-- ==== Sys2Proof/Word.lean ====
section
/-!
DEFINITION. The machine words of the KX16: registers are 64 bits (R17), instruction words 16 or 32
bits (R101), memory is bytes (R11).
-/
namespace Sys2Proof

/-- A 64-bit scalar register value (R17). -/
abbrev Word := BitVec 64

/-- A byte of memory (R11). -/
abbrev Byte := BitVec 8

/-- A 32-bit semaphore, accumulator lane or FP32 pattern. -/
abbrev Half := BitVec 32

end Sys2Proof
end

