-- ==== Sys2Proof/Syntax.lean ====
section
/-!
DEFINITION. The syntax of the KX16's steps: one constructor per row of the opcode table.

The 220 rows that are instruction words carry the fields their own entries use (R103, R106: a field an
instruction does not use is reserved and is not kept). `t` holds the W and P bits of R119, `m` the handle
and offset register of a memory operand (R107); its immediate comes from an EXT (R104, R105), which is an
instruction of its own. The other rows are the part's events: sequencer words (R317) and the steps of
engines, traps, the lining, the optics, boot and the mailbox. An event's operands say which object it
happens to and carry what the spec leaves to the outside (a measurement, a sensor, firmware's choice).
-/
namespace Sys2Proof

/-- A register number x0 to x63, or h0 to h63 where the instruction says so (R103). -/
abbrev Reg := BitVec 6

/-- The W and P bits of a 32-bit word (R119). -/
structure Tack where
  w : Bool
  p : Bool
  deriving DecidableEq, Repr

/-- A memory operand `[hA + xB + imm]`: handle register A and offset register B (R107, R198). -/
structure MemOp where
  h : Reg
  x : Reg
  deriving DecidableEq, Repr

/-- VCOL's register operand and its F: register B holds the column; F = 0 reads it, and 2 to 7 name no direction (R243, R263). -/
structure ColOp where
  x : Reg
  f : BitVec 3
  deriving DecidableEq, Repr

/-- Where a stream runs: tile 0 to 15 (16 is the hub tile), core, slot, stream number of R16. -/
structure Place where
  tile : Nat
  core : Nat
  slot : Nat
  stream : Nat
  deriving DecidableEq, Repr

/-- A cause code with its TINFO registers (R39, R366). -/
structure Cause where
  code : Nat
  info0 : Word
  info1 : Word
  info2 : Word
  info3 : Word
  deriving DecidableEq, Repr

/-- A copy engine: a core's own (of the hub for tile 16), or a tile's (R227, R481). -/
inductive Eng where
  | core (tile core : Nat)
  | tile (tile : Nat)
  deriving DecidableEq, Repr

/-- The fields of a MAKE or TREE word (R317). In a TREE word DMOD and DTILE together are LEAF. -/
structure MakeWord where
  circuit : BitVec 8
  stile : BitVec 4
  dmod : BitVec 6
  dtile : BitVec 4
  width1 : BitVec 4
  minw1 : BitVec 4
  span : Bool
  rcore : BitVec 3
  rbob : BitVec 4
  route : BitVec 9
  rx : Bool
  deriving DecidableEq, Repr

/-- What the receivers measure while a circuit is made (R402 to R404, R410): which bonded ports fail to
lock, each port's skew in ps, the far end's kept-port mask and MINW (none: no matching word), and each
leaf's calibrated loss in hundredths of a dB. -/
structure MakeObs where
  nolock : Nat
  skew : List Nat
  far : Option (Nat × Nat)
  loss : List Nat
  deriving DecidableEq, Repr

/-- What a TRAIN has found (R469, R470): the wavelengths that fail and, on an external port, the endpoint at the peer, the
peer's number and the fibre's delay. -/
structure TrainObs where
  failed : Nat
  peer : Option (Nat × Nat × Nat) := none
  deriving DecidableEq, Repr

/-- Where a source is switched (R396, R406): of this module, or of a peer. -/
inductive SwitchSite where
  | here (src : Nat)
  | peer (m src : Nat)
  deriving DecidableEq, Repr

/-- What a chunk's flits carry (R313, R414): the partial of a rank, or the final value. -/
inductive ChunkPart where
  | sum (rank : Nat)
  | result
  deriving DecidableEq, Repr

/-- What becomes of a flit (R387, R419): performed, lost with a port, or discarded by its tag check on an
endpoint; or, on a receive end, a message that arrives from another module (R300). -/
inductive FlitFate where
  | arrives
  | lost
  | tagFails (ep : Nat)
  | message (payload : Word) (tag circ selfid : Nat)
  deriving DecidableEq, Repr

/-- One element of a fabric copy or reduction that reaches a tile (R304, R305): receive-window index, the
bit of the window it begins at, TYPE, ROP, the element's bits, the operation it comes from and its number
(R382). -/
structure FarWrite where
  ridx : Nat
  bit : Nat
  type : Nat
  rop : Nat
  value : Nat
  source : Nat
  number : Nat
  deriving DecidableEq, Repr

/-- What a scrub read or an access finds in a granule's error-correcting code (R346). -/
inductive EccKind where
  | clean
  | corrected
  | uncorrectable
  deriving DecidableEq, Repr

/-- What a neighbour answers to its measurement (R416): whether its certificates and signatures verify, the root its chain
ends in, and the digests of measurement blocks 1 to 3. -/
structure Measurement where
  genuine : Bool
  root : List Byte
  blocks : List Nat
  deriving DecidableEq, Repr

/-- What a boot meets (R454): bit n of `fails` says that step n's action fails, of `altFails` that its
alternative fails; `tiles` are the tiles whose rail or self-test failed; `ports` the endpoints that fail to
come up; `fibres` each external endpoint's peer module, peer endpoint and delay in stitches (R391); `peers` what
the neighbours answer to their measurement, each with its identity digest (R416); `cut` the step in which a reset or a loss of
power ends the boot (R456), 0 for none; `cores` the cores whose lining fails its check, by 8 × tile + core (R458); bit p of
`cxl` says that CXL port p fails. -/
structure BootObs where
  fails : Nat
  altFails : Nat
  tiles : Nat
  ports : List Nat
  fibres : List (Nat × Nat × Nat × Nat)
  peers : List (Nat × Measurement × Nat)
  cut : Nat := 0
  cores : List Nat := []
  cxl : Nat := 0
  deriving DecidableEq, Repr

/-- What becomes of a write of the flash (R460, R465): it succeeds, it fails, or an alarm or a loss of power ends it. -/
inductive FlashWrite where
  | written
  | failed
  | torn
  deriving DecidableEq, Repr

/-- What LAUNCH takes from outside this module (R351): firmware's placement of each section's contents
(`pages`, a physical base each) and of each tile's page tables (`tables`), this module's number, the handler
entry and the first context area it gives the slots, whether every other module passed its steps, whether the
modules' members of its groups would create them (R411: the status of one that would not, else 0), and the step it has reached when an alarm cancels it (R465). -/
structure LaunchObs where
  pages : List Nat
  tables : List Nat
  module : Nat
  tvec : Word
  ctx : Word
  othersOk : Bool
  others : Nat
  alarmStep : Nat := 5
  deriving DecidableEq, Repr

/-- The instructions and events of the KX16: one constructor per row of the opcode table. -/
inductive Instr where
  /-- NOP (R137). -/
  | nop (t : Tack)
  /-- BLK (R113). -/
  | blk (rep : BitVec 6) (len : BitVec 9) (pp wp : BitVec 2)
  /-- BLKX (R113). -/
  | blkx (creg : Reg) (len : BitVec 9) (pp wp : BitVec 2)
  /-- BR (R138). -/
  | br (off : BitVec 15) (t : Tack)
  /-- BZ (R138). -/
  | bz (a : Reg) (off : BitVec 15) (t : Tack)
  /-- BNZ (R138). -/
  | bnz (a : Reg) (off : BitVec 15) (t : Tack)
  /-- BRX (R138). -/
  | brx (a : Reg) (t : Tack)
  /-- CALL (R138). -/
  | call (off : BitVec 15) (t : Tack)
  /-- RET (R138). -/
  | retB (t : Tack)
  /-- REND (R140). -/
  | rend (mask : BitVec 5) (id : BitVec 3) (t : Tack)
  /-- END (R139). -/
  | endS (t : Tack)
  /-- YIELD (R141). -/
  | yield (t : Tack)
  /-- WAITC (R142). -/
  | waitc (d : Reg) (n : BitVec 14) (t : Tack)
  /-- WAITC_S (R142). -/
  | waitcS (d : Reg) (n : BitVec 14) (t : Tack)
  /-- EXT (R105). -/
  | ext (imm : BitVec 23)
  /-- TRAP (R143). -/
  | trap (d : Reg) (imm : BitVec 15) (t : Tack)
  /-- SYSC (R143). -/
  | sysc (d : Reg) (imm : BitVec 15) (t : Tack)
  /-- TKW (R144). -/
  | tkw (j : BitVec 2) (n1 : BitVec 3) (t : Tack)
  /-- TKP (R144). -/
  | tkp (j : BitVec 2) (n1 : BitVec 3) (t : Tack)
  /-- SEMW (R148). -/
  | semw (d a : Reg) (sel : BitVec 9) (t : Tack)
  /-- SEMA (R147). -/
  | sema (d a : Reg) (sel : BitVec 9) (t : Tack)
  /-- SEMS (R147). -/
  | sems (a : Reg) (sel : BitVec 9) (t : Tack)
  /-- SEMS_DISARM (R148). -/
  | semsDisarm (a : Reg) (sel : BitVec 9) (t : Tack)
  /-- SEMO (R147). -/
  | semo (sel : BitVec 9) (t : Tack)
  /-- SEMRD (R147). -/
  | semrd (d : Reg) (sel : BitVec 9) (t : Tack)
  /-- FENCE (R151). -/
  | fence (scope : BitVec 3) (t : Tack)
  /-- ACQ (R152). -/
  | acq (t : Tack)
  /-- ACQ_R (R152). -/
  | acqR (d : Reg) (m : MemOp) (t : Tack)
  /-- REL (R151). -/
  | rel (scope : BitVec 3) (t : Tack)
  /-- PFEN_RETAIN (R153). -/
  | pfenRetain (t : Tack)
  /-- PFEN_LINING (R153). -/
  | pfenLining (t : Tack)
  /-- SEMWA (R149). -/
  | semwa (d a b : Reg) (f : BitVec 3) (t : Tack)
  /-- RDCYC (R155). -/
  | rdcyc (d : Reg) (t : Tack)
  /-- RDCYC_S (R155). -/
  | rdcycS (d : Reg) (t : Tack)
  /-- RDID (R155). -/
  | rdid (d : Reg) (t : Tack)
  /-- PRIO (R155). -/
  | prio (d a : Reg) (t : Tack)
  /-- LINEPT (R154). -/
  | linept (d : Reg) (t : Tack)
  /-- ADD (R156). -/
  | addR (d a b : Reg) (t : Tack)
  /-- SUB (R156). -/
  | subR (d a b : Reg) (t : Tack)
  /-- MUL (R156). -/
  | mulR (d a b : Reg) (t : Tack)
  /-- MULH (R156). -/
  | mulh (d a b : Reg) (t : Tack)
  /-- MULHU (R156). -/
  | mulhu (d a b : Reg) (t : Tack)
  /-- DIV (R156). -/
  | divI (d a b : Reg) (t : Tack)
  /-- DIVU (R156). -/
  | divu (d a b : Reg) (t : Tack)
  /-- REM (R156). -/
  | remI (d a b : Reg) (t : Tack)
  /-- REMU (R156). -/
  | remu (d a b : Reg) (t : Tack)
  /-- AND (R156). -/
  | andR (d a b : Reg) (t : Tack)
  /-- OR (R156). -/
  | orR (d a b : Reg) (t : Tack)
  /-- XOR (R156). -/
  | xorR (d a b : Reg) (t : Tack)
  /-- SHL (R156). -/
  | shl (d a b : Reg) (t : Tack)
  /-- SHRL (R156). -/
  | shrl (d a b : Reg) (t : Tack)
  /-- SHRA (R156). -/
  | shra (d a b : Reg) (t : Tack)
  /-- MIN (R156). -/
  | minS (d a b : Reg) (t : Tack)
  /-- MAX (R156). -/
  | maxS (d a b : Reg) (t : Tack)
  /-- MINU (R156). -/
  | minu (d a b : Reg) (t : Tack)
  /-- MAXU (R156). -/
  | maxu (d a b : Reg) (t : Tack)
  /-- SEQ (R156). -/
  | seq (d a b : Reg) (t : Tack)
  /-- SLT (R156). -/
  | slt (d a b : Reg) (t : Tack)
  /-- SLTU (R156). -/
  | sltu (d a b : Reg) (t : Tack)
  /-- SEL (R156). -/
  | sel (d a b : Reg) (t : Tack)
  /-- CLZ (R156). -/
  | clz (d a : Reg) (t : Tack)
  /-- ADDI (R157). -/
  | addi (d a : Reg) (imm : BitVec 9) (t : Tack)
  /-- ANDI (R157). -/
  | andi (d a : Reg) (imm : BitVec 9) (t : Tack)
  /-- ORI (R157). -/
  | ori (d a : Reg) (imm : BitVec 9) (t : Tack)
  /-- XORI (R157). -/
  | xori (d a : Reg) (imm : BitVec 9) (t : Tack)
  /-- SHLI (R157). -/
  | shli (d a : Reg) (imm : BitVec 9) (t : Tack)
  /-- SHRLI (R157). -/
  | shrli (d a : Reg) (imm : BitVec 9) (t : Tack)
  /-- SHRAI (R157). -/
  | shrai (d a : Reg) (imm : BitVec 9) (t : Tack)
  /-- SLTI (R157). -/
  | slti (d a : Reg) (imm : BitVec 9) (t : Tack)
  /-- LI (R158). -/
  | li (d : Reg) (imm : BitVec 15) (t : Tack)
  /-- LIH (R158). -/
  | lih (d : Reg) (imm : BitVec 15) (t : Tack)
  /-- POPC (R159). -/
  | popc (d a : Reg) (t : Tack)
  /-- BFX (R159). -/
  | bfx (d a b : Reg) (signed : Bool) (t : Tack)
  /-- BFI (R159). -/
  | bfi (d a b : Reg) (t : Tack)
  /-- MULI (R157). -/
  | muli (d a : Reg) (imm : BitVec 9) (t : Tack)
  /-- CLAMP (R159). -/
  | clamp (d a b : Reg) (uns : Bool) (t : Tack)
  /-- RNDC (R160). -/
  | rndc (d a b : Reg) (t : Tack)
  /-- LDB (R205). -/
  | ldb (d : Reg) (m : MemOp) (f : BitVec 3) (t : Tack)
  /-- LDH (R205). -/
  | ldh (d : Reg) (m : MemOp) (f : BitVec 3) (t : Tack)
  /-- LDW (R205). -/
  | ldw (d : Reg) (m : MemOp) (f : BitVec 3) (t : Tack)
  /-- LDD (R205). -/
  | ldd (d : Reg) (m : MemOp) (f : BitVec 3) (t : Tack)
  /-- LDBS (R205). -/
  | ldbs (d : Reg) (m : MemOp) (f : BitVec 3) (t : Tack)
  /-- LDHS (R205). -/
  | ldhs (d : Reg) (m : MemOp) (f : BitVec 3) (t : Tack)
  /-- LDWS (R205). -/
  | ldws (d : Reg) (m : MemOp) (f : BitVec 3) (t : Tack)
  /-- STB (R205). -/
  | stb (d : Reg) (m : MemOp) (f : BitVec 3) (t : Tack)
  /-- STH (R205). -/
  | sth (d : Reg) (m : MemOp) (f : BitVec 3) (t : Tack)
  /-- STW (R205). -/
  | stw (d : Reg) (m : MemOp) (f : BitVec 3) (t : Tack)
  /-- STD (R205). -/
  | std (d : Reg) (m : MemOp) (f : BitVec 3) (t : Tack)
  /-- HLD (R206). -/
  | hld (d a : Reg) (imm : BitVec 9) (t : Tack)
  /-- HINFO (R207). -/
  | hinfo (d a : Reg) (f : BitVec 3) (t : Tack)
  /-- HSUB (R208). -/
  | hsub (d a b : Reg) (f : BitVec 3) (t : Tack)
  /-- PREF (R209). -/
  | pref (m : MemOp) (t : Tack)
  /-- PREF_L2 (R209). -/
  | prefL2 (m : MemOp) (t : Tack)
  /-- CINV (R209). -/
  | cinv (d : Reg) (m : MemOp) (t : Tack)
  /-- CINV_L2 (R209). -/
  | cinvL2 (d : Reg) (m : MemOp) (t : Tack)
  /-- AADD (R210). -/
  | aadd (d : Reg) (m : MemOp) (f : BitVec 3) (t : Tack)
  /-- AMIN (R210). -/
  | amin (d : Reg) (m : MemOp) (f : BitVec 3) (t : Tack)
  /-- AMAX (R210). -/
  | amax (d : Reg) (m : MemOp) (f : BitVec 3) (t : Tack)
  /-- AMINU (R210). -/
  | aminu (d : Reg) (m : MemOp) (f : BitVec 3) (t : Tack)
  /-- AMAXU (R210). -/
  | amaxu (d : Reg) (m : MemOp) (f : BitVec 3) (t : Tack)
  /-- AAND (R210). -/
  | aand (d : Reg) (m : MemOp) (f : BitVec 3) (t : Tack)
  /-- AOR (R210). -/
  | aor (d : Reg) (m : MemOp) (f : BitVec 3) (t : Tack)
  /-- AXOR (R210). -/
  | axor (d : Reg) (m : MemOp) (f : BitVec 3) (t : Tack)
  /-- AXCH (R210). -/
  | axch (d : Reg) (m : MemOp) (f : BitVec 3) (t : Tack)
  /-- ACAS (R210). -/
  | acas (d : Reg) (m : MemOp) (f : BitVec 3) (t : Tack)
  /-- AFADD (R210). -/
  | afadd (d : Reg) (m : MemOp) (f : BitVec 3) (t : Tack)
  /-- REDADD (R210). -/
  | redadd (d : Reg) (m : MemOp) (f : BitVec 3) (t : Tack)
  /-- REDFADD (R210). -/
  | redfadd (d : Reg) (m : MemOp) (f : BitVec 3) (t : Tack)
  /-- REDMIN (R210). -/
  | redmin (d : Reg) (m : MemOp) (f : BitVec 3) (t : Tack)
  /-- REDMAX (R210). -/
  | redmax (d : Reg) (m : MemOp) (f : BitVec 3) (t : Tack)
  /-- AINC (R210). -/
  | ainc (d : Reg) (m : MemOp) (f : BitVec 3) (t : Tack)
  /-- BBCLM (R216). -/
  | bbclm (d : Reg) (bob : BitVec 4) (nw : Bool) (t : Tack)
  /-- BBPUB (R216). -/
  | bbpub (bob : BitVec 4) (b : Reg) (t : Tack)
  /-- BBWF (R216). -/
  | bbwf (d : Reg) (bob : BitVec 4) (b : Reg) (nw : Bool) (t : Tack)
  /-- BBWE (R216). -/
  | bbwe (d : Reg) (bob : BitVec 4) (nw : Bool) (t : Tack)
  /-- BBREL (R216). -/
  | bbrel (bob : BitVec 4) (b : Reg) (t : Tack)
  /-- BBINIT (R215). -/
  | bbinit (bob : BitVec 4) (b : Reg) (t : Tack)
  /-- CPY (R227). -/
  | cpy (m : MemOp) (tile : Bool) (t : Tack)
  /-- CPYQ (R228). -/
  | cpyq (d a b : Reg) (tile : Bool) (t : Tack)
  /-- CPYX (R228). -/
  | cpyx (d : Reg) (m : MemOp) (tile : Bool) (t : Tack)
  /-- GATH (R228). -/
  | gath (d : Reg) (m : MemOp) (tile : Bool) (t : Tack)
  /-- SCAT (R228). -/
  | scat (d : Reg) (m : MemOp) (tile : Bool) (t : Tack)
  /-- FILL (R228). -/
  | fill (d : Reg) (m : MemOp) (tile : Bool) (t : Tack)
  /-- SLD (R230). -/
  | sld (d : Reg) (m : MemOp) (f : BitVec 3) (t : Tack)
  /-- SST (R230). -/
  | sst (d : Reg) (m : MemOp) (f : BitVec 3) (t : Tack)
  /-- BBQRY (R217). -/
  | bbqry (d : Reg) (bob : BitVec 4) (f : BitVec 3) (t : Tack)
  /-- CPYW (R229). -/
  | cpyw (d : Reg) (m : MemOp) (tile : Bool) (t : Tack)
  /-- PLD (R235). -/
  | pld (d : Reg) (m : MemOp) (f : BitVec 3) (t : Tack)
  /-- PST (R236). -/
  | pst (d : Reg) (m : MemOp) (t : Tack)
  /-- PSTL (R236). -/
  | pstl (d : Reg) (m : MemOp) (t : Tack)
  /-- PAXPY (R237). -/
  | paxpy (d : Reg) (m : MemOp) (f : BitVec 3) (t : Tack)
  /-- PSCL (R238). -/
  | pscl (d : Reg) (m : MemOp) (t : Tack)
  /-- PCVT (R239). -/
  | pcvt (d : Reg) (m : MemOp) (f : BitVec 3) (t : Tack)
  /-- PNORM (R240). -/
  | pnorm (d : Reg) (m : MemOp) (t : Tack)
  /-- PCNT (R240). -/
  | pcnt (d : Reg) (m : MemOp) (t : Tack)
  /-- VADD (R249). -/
  | vadd (d a b : Reg) (f : BitVec 3) (t : Tack)
  /-- VSUB (R249). -/
  | vsub (d a b : Reg) (f : BitVec 3) (t : Tack)
  /-- VMUL (R249). -/
  | vmul (d a b : Reg) (f : BitVec 3) (t : Tack)
  /-- VFMA (R249). -/
  | vfma (d a b : Reg) (f : BitVec 3) (t : Tack)
  /-- VMIN (R249). -/
  | vmin (d a b : Reg) (f : BitVec 3) (t : Tack)
  /-- VMAX (R249). -/
  | vmax (d a b : Reg) (f : BitVec 3) (t : Tack)
  /-- VABS (R249). -/
  | vabs (d a : Reg) (f : BitVec 3) (t : Tack)
  /-- VNEG (R249). -/
  | vneg (d a : Reg) (f : BitVec 3) (t : Tack)
  /-- VCMP (R252). -/
  | vcmp (d a b : Reg) (f : BitVec 3) (t : Tack)
  /-- VSEL (R253). -/
  | vsel (d a b : Reg) (t : Tack)
  /-- VAND (R249). -/
  | vand (d a b : Reg) (t : Tack)
  /-- VOR (R249). -/
  | vor (d a b : Reg) (t : Tack)
  /-- VXOR (R249). -/
  | vxor (d a b : Reg) (t : Tack)
  /-- VSHL (R249). -/
  | vshl (d a b : Reg) (t : Tack)
  /-- VSHR (R249). -/
  | vshr (d a b : Reg) (t : Tack)
  /-- VCVT (R254). -/
  | vcvt (d a b : Reg) (t : Tack)
  /-- VSFN (R256). -/
  | vsfn (d a : Reg) (f : BitVec 3) (t : Tack)
  /-- VRED (R257). -/
  | vred (d a : Reg) (f : BitVec 3) (t : Tack)
  /-- VBCST (R260). -/
  | vbcst (d a : Reg) (t : Tack)
  /-- VLD (R261). -/
  | vld (d : Reg) (m : MemOp) (f : BitVec 3) (t : Tack)
  /-- VST (R261). -/
  | vst (d : Reg) (m : MemOp) (f : BitVec 3) (t : Tack)
  /-- VGET (R262). -/
  | vget (d a b : Reg) (f : BitVec 3) (t : Tack)
  /-- VPUT (R262). -/
  | vput (d a b : Reg) (f : BitVec 3) (t : Tack)
  /-- VCOL_R (R263): F is 0; F of 2 to 7 has no direction and faults (R243). -/
  | vcolR (d a : Reg) (b : ColOp) (t : Tack)
  /-- VCOL_W (R263). -/
  | vcolW (d a b : Reg) (t : Tack)
  /-- VPERM (R264). -/
  | vperm (d a b : Reg) (t : Tack)
  /-- VRNG (R265). -/
  | vrng (d a b : Reg) (f : BitVec 3) (t : Tack)
  /-- OSMX (R266). -/
  | osmx (d : Reg) (t : Tack)
  /-- OSMN (R267). -/
  | osmn (d : Reg) (t : Tack)
  /-- VQNT (R269). -/
  | vqnt (d a b : Reg) (f : BitVec 3) (t : Tack)
  /-- VDQN (R270). -/
  | vdqn (d a b : Reg) (f : BitVec 3) (t : Tack)
  /-- VIOTA (R260). -/
  | viota (d a : Reg) (t : Tack)
  /-- VSCAN (R259). -/
  | vscan (d a : Reg) (f : BitVec 3) (t : Tack)
  /-- MLW (R274). -/
  | mlw (d : Reg) (m : MemOp) (f : BitVec 3) (t : Tack)
  /-- MSWP (R276). -/
  | mswp (t : Tack)
  /-- MMA (R279). -/
  | mma (d : Reg) (m : MemOp) (t : Tack)
  /-- MMAZ (R279). -/
  | mmaz (d : Reg) (m : MemOp) (t : Tack)
  /-- MDRN (R286). -/
  | mdrn (d : Reg) (m : MemOp) (f : BitVec 3) (t : Tack)
  /-- MCFG (R272). -/
  | mcfg (d a : Reg) (t : Tack)
  /-- MZRO (R288). -/
  | mzro (d : Reg) (s : Bool) (t : Tack)
  /-- MSCL (R283). -/
  | mscl (d : Reg) (m : MemOp) (f : BitVec 3) (t : Tack)
  /-- MBIAS (R284). -/
  | mbias (m : MemOp) (t : Tack)
  /-- MBIAS_CLR (R284). -/
  | mbiasClr (t : Tack)
  /-- MGEMV (R292). -/
  | mgemv (d : Reg) (m : MemOp) (t : Tack)
  /-- MGWT (R294). -/
  | mgwt (d : Reg) (t : Tack)
  /-- MOVC (R289). -/
  | movc (d a : Reg) (s : Bool) (t : Tack)
  /-- MTRN (R290). -/
  | mtrn (d a : Reg) (sh dh : Bool) (t : Tack)
  /-- MSTAT (R291). -/
  | mstat (d a : Reg) (f : BitVec 3) (t : Tack)
  /-- MRSM (R282). -/
  | mrsm (t : Tack)
  /-- MRSM_DISCARD (R282). -/
  | mrsmDiscard (t : Tack)
  /-- MFMT (R273). -/
  | mfmt (a : Reg) (t : Tack)
  /-- SEND (R299). -/
  | sendM (a b : Reg) (t : Tack)
  /-- FCPY (R302). -/
  | fcpy (m : MemOp) (t : Tack)
  /-- FRED (R302). -/
  | fred (m : MemOp) (t : Tack)
  /-- FSIG (R308). -/
  | fsig (a b : Reg) (t : Tack)
  /-- COLL (R309). -/
  | coll (d : Reg) (m : MemOp) (t : Tack)
  /-- CQRY (R316). -/
  | cqry (d a : Reg) (f : BitVec 3) (t : Tack)
  /-- CWAIT (R316). -/
  | cwait (d a : Reg) (t : Tack)
  /-- CABT (R316). -/
  | cabt (a : Reg) (t : Tack)
  /-- XFM (R323). -/
  | xfm (d : Reg) (m : MemOp) (e1 : Bool) (t : Tack)
  /-- XWAIT (R327). -/
  | xwait (d a : Reg) (t : Tack)
  /-- XQRY (R327). -/
  | xqry (d a : Reg) (f : BitVec 3) (t : Tack)
  /-- XABT (R327). -/
  | xabt (a : Reg) (t : Tack)
  /-- XABT_Q (R327). -/
  | xabtQ (a : Reg) (t : Tack)
  /-- ERET (R162). -/
  | eret (t : Tack)
  /-- MFS (R161). -/
  | mfs (d : Reg) (idx : BitVec 12) (t : Tack)
  /-- MTS (R161). -/
  | mts (d : Reg) (idx : BitVec 12) (t : Tack)
  /-- WFI (R163). -/
  | wfi (a : Reg) (t : Tack)
  /-- HINT (R109). -/
  | hint (n : BitVec 5) (imm : BitVec 21) (t : Tack)
  /-- C_NOP (R110). -/
  | cNop
  /-- C_TKW (R110). -/
  | cTkw (imm : BitVec 5)
  /-- C_TKP (R110). -/
  | cTkp (imm : BitVec 5)
  /-- C_MOV (R110). -/
  | cMov (d a : BitVec 5)
  /-- C_ADD (R110). -/
  | cAdd (d a : BitVec 5)
  /-- C_SUB (R110). -/
  | cSub (d a : BitVec 5)
  /-- C_AND (R110). -/
  | cAnd (d a : BitVec 5)
  /-- C_OR (R110). -/
  | cOr (d a : BitVec 5)
  /-- C_XOR (R110). -/
  | cXor (d a : BitVec 5)
  /-- C_ADDI (R110). -/
  | cAddi (d : BitVec 5) (imm : BitVec 5)
  /-- C_LI (R110). -/
  | cLi (d : BitVec 5) (imm : BitVec 5)
  /-- C_SHLI (R110). -/
  | cShli (d : BitVec 5) (imm : BitVec 5)
  /-- C_SHRLI (R110). -/
  | cShrli (d : BitVec 5) (imm : BitVec 5)
  /-- C_BZ (R110). -/
  | cBz (d : BitVec 5) (imm : BitVec 5)
  /-- C_BNZ (R110). -/
  | cBnz (d : BitVec 5) (imm : BitVec 5)
  /-- C_END (R110). -/
  | cEnd
  /-- ALIGN (R399). -/
  | sqAlign
  /-- PHASE (R320). -/
  | sqPhase (n : BitVec 16)
  /-- MAKE (R320). -/
  | sqMake (w : MakeWord)
  /-- TREE (R409). -/
  | sqTree (w : MakeWord)
  /-- BREAK (R320). -/
  | sqBreak (c : BitVec 8)
  /-- PREP (R408). -/
  | sqPrep (route : BitVec 9)
  /-- WAIT (R319). -/
  | sqWait (n : BitVec 16)
  /-- SIGT (R320). -/
  | sqSigt (sel : BitVec 9) (tile : BitVec 4) (core : BitVec 3) (addend : BitVec 32)
  /-- PAUSEPT (R321). -/
  | sqPausept
  /-- LOOP (R319). -/
  | sqLoop (n : BitVec 16)
  /-- NEXT (R319). -/
  | sqNext
  /-- CHUNK (R320). -/
  | sqChunk (c : BitVec 8) (plan step : BitVec 10)
  /-- SEQUENCER_END (R320). -/
  | sequencerEnd
  /-- ALIGN_RELEASE (R399). -/
  | alignRelease (high : Nat)
  /-- CIRCUIT_MAKE_RESOLVE (R402). -/
  | circuitMakeResolve (c : Nat) (obs : MakeObs)
  /-- CIRCUIT_BREAK_COMPLETE (R320). -/
  | circuitBreakComplete (c : Nat)
  /-- PHASE_END (R320). -/
  | phaseEnd
  /-- PAUSE_RESUME (R321). -/
  | pauseResume
  /-- FAST_BRINGUP_END (R407). -/
  | fastBringupEnd (near far : Nat) (ok : Bool)
  /-- FULL_TRAINING_END (R407). -/
  | fullTrainingEnd (near far : Nat) (ok : Bool)
  /-- LOSS_OF_LOCK (R393). -/
  | lossOfLock (ep wl : Nat) (rx : Bool)
  /-- SPARE_WAVELENGTH_MAPPING (R395). -/
  | spareWavelengthMapping (ep wl : Nat)
  /-- SOURCE_FAILURE (R396). -/
  | sourceFailure (src : Nat)
  /-- SPARE_SOURCE_SWITCH (R396). -/
  | spareSourceSwitch (site : SwitchSite)
  /-- FLIT_ARRIVAL (R387). -/
  | flitArrival (c : Nat) (fate : FlitFate)
  /-- MESSAGE_DELIVERY (R300). -/
  | messageDelivery (c : Nat)
  /-- FSIG_ARRIVAL (R308). -/
  | fsigArrival (tile : Nat) (core : Nat) (sel : Nat) (addend : BitVec 32)
  /-- FABRIC_WRITE_ARRIVAL (R305). -/
  | fabricWriteArrival (tile : Nat) (w : FarWrite)
  /-- FABRIC_COPY_COMPLETE (R306). -/
  | fabricCopyComplete (tile id : Nat)
  /-- PEER_RESET (R419). -/
  | peerReset (peer : Nat)
  /-- MEASUREMENT_END (R417): the peer's answer and its identity digest. -/
  | measurementEnd (peer : Nat) (m : Measurement) (digest : Nat)
  /-- KEY_UPDATE (R418). -/
  | keyUpdate (peer : Nat)
  /-- SERVICE_CIRCUIT_REMAKE (R420). -/
  | serviceCircuitRemake (peer : Nat)
  /-- CHUNK_ARRIVAL (R313). -/
  | chunkArrival (tile ticket chunk : Nat) (part : ChunkPart) (data : List Byte)
  /-- COLLECTIVE_COMPLETE (R314). -/
  | collectiveComplete (tile ticket : Nat)
  /-- COLLECTIVE_ABORT (R315). -/
  | collectiveAbort (tile ticket reason : Nat)
  /-- COPY_START (R226). -/
  | copyStart (e : Eng) (id n : Nat)
  /-- COPY_SOURCE_FREE (R184). -/
  | copySourceFree (e : Eng) (id : Nat)
  /-- COPY_COMPLETE (R224). -/
  | copyComplete (e : Eng) (id : Nat)
  /-- COPY_FAULT (R221). -/
  | copyFault (e : Eng) (id : Nat)
  /-- PENDING_TACK_PUSH (R135). -/
  | pendingTackPush (p : Place)
  /-- XFM_RECORD_START (R326). -/
  | xfmRecordStart (tile eng : Nat)
  /-- XFM_RECORD_END (R326). -/
  | xfmRecordEnd (tile eng : Nat)
  /-- MGEMV_COMPLETE (R294). -/
  | mgemvComplete (tile core id : Nat)
  /-- REDUCTION_PERFORM (R382). -/
  | reductionPerform (tile i : Nat)
  /-- WALKER_ITERATION_START (R357). -/
  | walkerIterationStart (tile : Nat)
  /-- SYNC_TRAP_DELIVERY (R362). -/
  | syncTrapDelivery (p : Place) (c : Cause)
  /-- ASYNC_TRAP_DELIVERY (R364). -/
  | asyncTrapDelivery (tile core slot : Nat)
  /-- TACK_WATCHDOG (R365). -/
  | tackWatchdog (p : Place)
  /-- THIMBLE_TRAP (R449). -/
  | thimbleTrap (c : Cause)
  /-- PREEMPT_HALT (R371). -/
  | preemptHalt (tile core slot : Nat)
  /-- CONTEXT_SAVE_COMPLETE (R374). -/
  | contextSaveComplete (tile core slot : Nat)
  /-- PERIODIC_LINING_TIMER (R44). -/
  | periodicLiningTimer (tile core : Nat)
  /-- LINING_CAPTURE (R380). -/
  | liningCapture (tile core : Nat)
  /-- LINING_COMMIT (R380). -/
  | liningCommit (tile core : Nat)
  /-- LINING_WRITER_DRAIN (R379). -/
  | liningWriterDrain (tile core n : Nat)
  /-- POWER_FAIL_DETECT (R381). -/
  | powerFailDetect (tile : Nat)
  /-- FINAL_FLUSH_COMMIT (R378). -/
  | finalFlushCommit (tile : Nat) (good : Bool)
  /-- LINING_RESUME (R383). -/
  | liningResume (tile : Nat)
  /-- MODULE_POWER_LOSS (R197). -/
  | modulePowerLoss
  /-- MODULE_RESET (R454). -/
  | moduleReset (obs : BootObs)
  /-- THERMAL_TRIP (R466). -/
  | thermalTrip
  /-- THERMAL_RECOVERY (R466). -/
  | thermalRecovery
  /-- ALARM_TRIP (R463). -/
  | alarmTrip (sensor : Nat)
  /-- HBM_REFRESH (R472). -/
  | hbmRefresh (tile bank : Nat)
  /-- PATROL_SCRUB (R472). -/
  | patrolScrub (tile granule : Nat) (err : EccKind)
  /-- RING_THERMAL_LOCK (R472). -/
  | ringThermalLock (ep : Nat)
  /-- LASER_POWER_CONTROL (R472). -/
  | laserPowerControl (src : Nat)
  /-- TELEMETRY_SAMPLING (R472). -/
  | telemetrySampling
  /-- MRAM_SCRUB (R472). -/
  | mramScrub (tile core : Nat)
  /-- START (R352). -/
  | wStart (tile : Nat)
  /-- STOP (R352). -/
  | wStop (tile : Nat)
  /-- PREEMPT (R371). -/
  | wPreempt (tile core slot : Nat) (arg : Nat)
  /-- RESUME (R375). -/
  | wResume (tile core slot : Nat) (arg : Nat)
  /-- ENTER (R368). -/
  | wEnter (tile core slot : Nat)
  /-- KILL (R368). -/
  | wKill (tile core slot : Nat)
  /-- INVALIDATE_PAGE (R344). -/
  | invalidatePage (tile vpn : Nat)
  /-- INVALIDATE_ALL (R344). -/
  | invalidateAll (tile : Nat)
  /-- HUB_INVALIDATE_PAGE (R481). -/
  | hubInvalidatePage (vpn : Nat)
  /-- HUB_INVALIDATE_ALL (R481). -/
  | hubInvalidateAll
  /-- INVALIDATION_COMPLETE (R344). -/
  | invalidationComplete (tile : Nat)
  /-- PTROOT_WRITE (R343). -/
  | ptrootWrite (tile : Nat) (v : Word)
  /-- HPTROOT_WRITE (R481). -/
  | hptrootWrite (v : Word)
  /-- MSPLIT_WRITE (R331). -/
  | msplitWrite (tile : Nat) (v : Word)
  /-- SPLIT_CHANGE (R331). -/
  | splitChange (tile : Nat)
  /-- WLMAP_WRITE (R391). -/
  | wlmapWrite (ep : Nat) (v : Word)
  /-- LASERCTL_WRITE (R467). -/
  | laserctlWrite (src : Nat) (v : Word)
  /-- LASER_LOCK_END (R467). -/
  | laserLockEnd (src : Nat) (ok : Bool)
  /-- LOCK (R469). -/
  | pbLock (ep wlm : Nat)
  /-- TRAIN (R469). -/
  | pbTrain (ep wlm farep : Nat)
  /-- FAST (R469). -/
  | pbFast (ep wlm farep : Nat)
  /-- ABORT (R469). -/
  | pbAbort (ep : Nat)
  /-- LOCK_END (R469). -/
  | lockEnd (ep failed : Nat)
  /-- TRAIN_END (R469). -/
  | trainEnd (ep : Nat) (obs : TrainObs)
  /-- LAUNCH (R351). -/
  | launch (obs : LaunchObs)
  /-- CANCEL (R452). -/
  | cancel
  /-- RECOVER (R460). -/
  | recover (write : FlashWrite)
  /-- GROUP_CREATE (R411). -/
  | groupCreate (others : Nat)
  /-- GROUP_DELETE (R412). -/
  | groupDelete
  /-- SECCFG (R462). -/
  | seccfg
  /-- LOGREAD (R452). -/
  | logread
  /-- CLEARJ (R456). -/
  | clearj
  /-- MBCMD_INVALID (R452). -/
  | mbcmdInvalid (op : Nat)
  /-- REGISTER_WRITE (R13). -/
  | registerWrite (offset : Nat) (v : Word)
  /-- WAITC_TARGET_REACHED (R142). -/
  | waitcTargetReached (p : Place)
  /-- MATRIX_PASS_COMPLETE (R280). -/
  | matrixPassComplete (tile core : Nat)
  /-- STORE_PERFORMED_AT_HOME (R195). -/
  | storePerformedAtHome (tile core i : Nat)
  /-- KEY_PHASE_WINDOW_END (R418). -/
  | keyPhaseWindowEnd (peer : Nat)
  deriving DecidableEq, Repr

end Sys2Proof
end

