-- ==== Sys2Proof/WellFormed.lean ====
section
/-!
DEFINITION. Which terms of Instr stand for a word or event of the part.

An instruction word is well formed when the code scanner and the sequencer's loader accept its own fields
(R111, R123, R318); an event when the places and objects it names exist (R15, R391, R392).
-/
namespace Sys2Proof

/-- A stream's place: a compute tile's core, or the thimble core (tile 16, core 0, slot 0, stream C: R447). -/
def Place.wf (p : Place) : Bool :=
  (decide (p.tile < 16) && decide (p.core < 8) && decide (p.slot < 4) && decide (p.stream < 5)) ||
    decide (p = ⟨16, 0, 0, 0⟩)

/-- A slot of a compute tile (R15). -/
def slotWf (t c k : Nat) : Bool := decide (t < 16) && decide (c < 8) && decide (k < 4)

/-- A copy engine that exists (R227, R481: the hub tile has one core engine and no tile engine). -/
def Eng.wf : Eng → Bool
  | .core t c => (decide (t < 16) && decide (c < 8)) || (decide (t = 16) && decide (c = 0))
  | .tile t => decide (t < 16)

/-- A MAKE or TREE word: MINW at most WIDTH (R318). -/
def MakeWord.wf (m : MakeWord) : Bool := decide (m.minw1.toNat ≤ m.width1.toNat)

/-- A cause code of R366. -/
def Cause.wf (c : Cause) : Bool := decide (c.code < 0x40)

/-- Whether the term stands for a word or an event of the part. -/
def Instr.wf (i : Instr) : Bool :=
  match i with
  | .blk rep len _ _ => decide (rep ≠ 63#6) && decide (len ≠ 0#9)
  | .blkx _ len _ _ => decide (len ≠ 0#9)
  | .vcolR _ _ b _ => decide (b.f ≠ 1#3)
  | .sqPhase n => decide (n ≠ 0#16)
  | .sqMake m => m.wf
  | .sqTree m => m.wf
  | .sqLoop n => decide (n ≠ 0#16)
  | .circuitMakeResolve c _ => decide (c < 256)
  | .circuitBreakComplete c => decide (c < 256)
  | .fastBringupEnd near far _ => decide (near < 1344) && decide (far < 1344)
  | .fullTrainingEnd near far _ => decide (near < 1344) && decide (far < 1344)
  | .lossOfLock ep wl _ => decide (ep < 1344) && decide (wl < 9)
  | .spareWavelengthMapping ep wl => decide (ep < 1344) && decide (wl < 8)
  | .sourceFailure src => decide (src < 52)
  | .spareSourceSwitch (.here src) => decide (src < 52)
  | .spareSourceSwitch (.peer m src) => decide (m < 64) && decide (src < 48)
  | .flitArrival c _ => decide (c < 256)
  | .messageDelivery c => decide (c < 256)
  | .fsigArrival t c n _ => decide (t < 16) && decide (c < 8) && decide (n < 512)
  | .fabricWriteArrival t w => decide (t < 16) && decide (w.ridx < 64)
  | .fabricCopyComplete t _ => decide (t < 16)
  | .chunkArrival t _ _ _ _ => decide (t < 16)
  | .collectiveComplete t _ => decide (t < 16)
  | .collectiveAbort t _ _ => decide (t < 16)
  | .copyStart e _ _ => e.wf
  | .copySourceFree e _ => e.wf
  | .copyComplete e _ => e.wf
  | .copyFault e _ => e.wf
  | .pendingTackPush p => p.wf
  | .xfmRecordStart t e => decide (t < 16) && decide (e < 2)
  | .xfmRecordEnd t e => decide (t < 16) && decide (e < 2)
  | .mgemvComplete t c _ => slotWf t c 0
  | .reductionPerform t _ => decide (t < 16)
  | .walkerIterationStart t => decide (t < 16)
  | .syncTrapDelivery p c => p.wf && c.wf
  | .asyncTrapDelivery t c k => slotWf t c k
  | .tackWatchdog p => p.wf
  | .thimbleTrap c => c.wf
  | .preemptHalt t c k => slotWf t c k
  | .contextSaveComplete t c k => slotWf t c k
  | .periodicLiningTimer t c => slotWf t c 0
  | .liningCapture t c => slotWf t c 0
  | .liningCommit t c => slotWf t c 0
  | .liningWriterDrain t c _ => slotWf t c 0
  | .powerFailDetect t => decide (t < 16)
  | .finalFlushCommit t _ => decide (t < 16)
  | .liningResume t => decide (t < 16)
  | .hbmRefresh t _ => decide (t < 16)
  | .patrolScrub t _ _ => decide (t < 16)
  | .ringThermalLock ep => decide (ep < 1344)
  | .laserPowerControl src => decide (src < 52)
  | .mramScrub t c => slotWf t c 0
  | .wStart t => decide (t < 16)
  | .wStop t => decide (t < 16)
  | .wPreempt t c k _ => slotWf t c k
  | .wResume t c k _ => slotWf t c k
  | .wEnter t c k => slotWf t c k
  | .wKill t c k => slotWf t c k
  | .invalidatePage t _ => decide (t < 16)
  | .invalidateAll t => decide (t < 16)
  | .invalidationComplete t => decide (t < 17)
  | .ptrootWrite t _ => decide (t < 16)
  | .msplitWrite t _ => decide (t < 16)
  | .splitChange t => decide (t < 16)
  | .wlmapWrite ep _ => decide (ep < 1344)
  | .laserctlWrite src _ => decide (src < 52)
  | .laserLockEnd src _ => decide (src < 52)
  | .pbLock ep _ => decide (ep < 1344)
  | .pbTrain ep _ far => decide (ep < 1344) && decide (far < 1344)
  | .pbFast ep _ far => decide (ep < 1344) && decide (far < 1344)
  | .pbAbort ep => decide (ep < 1344)
  | .lockEnd ep _ => decide (ep < 1344)
  | .trainEnd ep _ => decide (ep < 1344)
  | .waitcTargetReached p => p.wf
  | .matrixPassComplete t c => slotWf t c 0
  | .storePerformedAtHome t c _ => slotWf t c 0
  | _ => true

end Sys2Proof
end

