-- ==== Sys2Proof/Decode.lean ====
section
/-!
DEFINITION. The decoder and the encoder (R101 to R111, R317).

A word is 32-bit when bit 0 of its first halfword is 1, else 16-bit (R101). The decoder is total on any
bytes and rejects by name what the code scanner rejects of one word (R123). The encoder follows the same
tables and writes zero into a reserved field (R106).
-/
namespace Sys2Proof

/-- Why a word is no instruction. -/
inductive DecodeError where
  /-- Too few bytes for the word. -/
  | truncated
  /-- OP 0xE0 to 0xFF (R109, reason 1 of R123). -/
  | reservedOp
  /-- A compact c-op of 16 to 31 (R110, reason 2 of R123). -/
  | reservedCompact
  /-- BLK with REP = 63 (R111, reason 3 of R123). -/
  | repReserved
  /-- A header with LEN = 0 (R111, reason 4 of R123). -/
  | lenZero
  /-- A reserved sequencer op (R317). -/
  | reservedSeqOp
  deriving DecidableEq, Repr

/-- The fields of an R-form word (R103); the I, U and J forms read their immediates across them. -/
structure RWord where
  f : BitVec 3
  b : BitVec 6
  a : BitVec 6
  d : BitVec 6
  p : Bool
  w : Bool
  op : BitVec 8
  deriving DecidableEq, Repr

/-- The W and P bits of a word. -/
def RWord.t (r : RWord) : Tack := ⟨r.w, r.p⟩
/-- imm9 of the I-form: bits 31:23. -/
def RWord.imm9 (r : RWord) : BitVec 9 := r.f ++ r.b
/-- imm15 of the U-form and off15 of the J-form: bits 31:17. -/
def RWord.imm15 (r : RWord) : BitVec 15 := r.f ++ r.b ++ r.a
/-- The whole 32-bit word of the fields (R103). -/
def RWord.pack (r : RWord) : BitVec 32 :=
  r.f ++ r.b ++ r.a ++ r.d ++ BitVec.ofBool r.p ++ BitVec.ofBool r.w ++ r.op ++ 1#1
/-- The fields of a 32-bit word (R103). -/
def RWord.unpack (w : BitVec 32) : RWord :=
  ⟨w.extractLsb' 29 3, w.extractLsb' 23 6, w.extractLsb' 17 6, w.extractLsb' 11 6, w.getLsbD 10,
    w.getLsbD 9, w.extractLsb' 1 8⟩
/-- An I-form word from its fields. -/
def RWord.ofI (imm : BitVec 9) (a d : BitVec 6) (t : Tack) (op : BitVec 8) : RWord :=
  ⟨imm.extractLsb' 6 3, imm.extractLsb' 0 6, a, d, t.p, t.w, op⟩
/-- A U-form or J-form word from its fields. -/
def RWord.ofU (imm : BitVec 15) (d : BitVec 6) (t : Tack) (op : BitVec 8) : RWord :=
  ⟨imm.extractLsb' 12 3, imm.extractLsb' 6 6, imm.extractLsb' 0 6, d, t.p, t.w, op⟩

/-- The major opcodes 0x00 to 0x0F (R107, R108); BLK, BLKX and EXT are read from the whole word. -/
def decodeRow0 (lo : Nat) (r : RWord) : Option Instr :=
  match lo with
  | 0 => some (.nop r.t)
  | 3 => some (.br r.imm15 r.t)
  | 4 => some (.bz r.d r.imm15 r.t)
  | 5 => some (.bnz r.d r.imm15 r.t)
  | 6 => some (.brx r.a r.t)
  | 7 => some (.call r.imm15 r.t)
  | 8 => some (.retB r.t)
  | 9 => some (.rend (r.imm15.extractLsb' 0 5) (r.imm15.extractLsb' 5 3) r.t)
  | 10 => some (.endS r.t)
  | 11 => some (.yield r.t)
  | 12 => if r.imm15.getLsbD 14 then some (.waitcS r.d (r.imm15.extractLsb' 0 14) r.t) else some (.waitc r.d (r.imm15.extractLsb' 0 14) r.t)
  | 14 => some (.trap r.d r.imm15 r.t)
  | 15 => some (.sysc r.d r.imm15 r.t)
  | _ => none

/-- The major opcodes 0x10 to 0x1F (R107, R108); BLK, BLKX and EXT are read from the whole word. -/
def decodeRow1 (lo : Nat) (r : RWord) : Option Instr :=
  match lo with
  | 0 => some (.tkw (r.imm9.extractLsb' 0 2) (r.imm9.extractLsb' 2 3) r.t)
  | 1 => some (.tkp (r.imm9.extractLsb' 0 2) (r.imm9.extractLsb' 2 3) r.t)
  | 2 => some (.semw r.d r.a r.imm9 r.t)
  | 3 => some (.sema r.d r.a r.imm9 r.t)
  | 4 => if r.d.getLsbD 0 then some (.semsDisarm r.a r.imm9 r.t) else some (.sems r.a r.imm9 r.t)
  | 5 => some (.semo r.imm9 r.t)
  | 6 => some (.semrd r.d r.imm9 r.t)
  | 7 => some (.fence (r.imm15.extractLsb' 0 3) r.t)
  | 8 => if r.f = 1#3 then some (.acqR r.d ⟨r.a, r.b⟩ r.t) else some (.acq r.t)
  | 9 => some (.rel (r.imm15.extractLsb' 0 3) r.t)
  | 10 => if r.imm15.getLsbD 0 then some (.pfenLining r.t) else some (.pfenRetain r.t)
  | 11 => some (.semwa r.d r.a r.b r.f r.t)
  | 12 => if r.f.getLsbD 0 then some (.rdcycS r.d r.t) else some (.rdcyc r.d r.t)
  | 13 => some (.rdid r.d r.t)
  | 14 => some (.prio r.d r.a r.t)
  | 15 => some (.linept r.d r.t)
  | _ => none

/-- The major opcodes 0x20 to 0x2F (R107, R108); BLK, BLKX and EXT are read from the whole word. -/
def decodeRow2 (lo : Nat) (r : RWord) : Option Instr :=
  match lo with
  | 0 => some (.addR r.d r.a r.b r.t)
  | 1 => some (.subR r.d r.a r.b r.t)
  | 2 => some (.mulR r.d r.a r.b r.t)
  | 3 => some (.mulh r.d r.a r.b r.t)
  | 4 => some (.mulhu r.d r.a r.b r.t)
  | 5 => some (.divI r.d r.a r.b r.t)
  | 6 => some (.divu r.d r.a r.b r.t)
  | 7 => some (.remI r.d r.a r.b r.t)
  | 8 => some (.remu r.d r.a r.b r.t)
  | 9 => some (.andR r.d r.a r.b r.t)
  | 10 => some (.orR r.d r.a r.b r.t)
  | 11 => some (.xorR r.d r.a r.b r.t)
  | 12 => some (.shl r.d r.a r.b r.t)
  | 13 => some (.shrl r.d r.a r.b r.t)
  | 14 => some (.shra r.d r.a r.b r.t)
  | 15 => some (.minS r.d r.a r.b r.t)
  | _ => none

/-- The major opcodes 0x30 to 0x3F (R107, R108); BLK, BLKX and EXT are read from the whole word. -/
def decodeRow3 (lo : Nat) (r : RWord) : Option Instr :=
  match lo with
  | 0 => some (.maxS r.d r.a r.b r.t)
  | 1 => some (.minu r.d r.a r.b r.t)
  | 2 => some (.maxu r.d r.a r.b r.t)
  | 3 => some (.seq r.d r.a r.b r.t)
  | 4 => some (.slt r.d r.a r.b r.t)
  | 5 => some (.sltu r.d r.a r.b r.t)
  | 6 => some (.sel r.d r.a r.b r.t)
  | 7 => some (.clz r.d r.a r.t)
  | 8 => some (.addi r.d r.a r.imm9 r.t)
  | 9 => some (.andi r.d r.a r.imm9 r.t)
  | 10 => some (.ori r.d r.a r.imm9 r.t)
  | 11 => some (.xori r.d r.a r.imm9 r.t)
  | 12 => some (.shli r.d r.a r.imm9 r.t)
  | 13 => some (.shrli r.d r.a r.imm9 r.t)
  | 14 => some (.shrai r.d r.a r.imm9 r.t)
  | 15 => some (.slti r.d r.a r.imm9 r.t)
  | _ => none

/-- The major opcodes 0x40 to 0x4F (R107, R108); BLK, BLKX and EXT are read from the whole word. -/
def decodeRow4 (lo : Nat) (r : RWord) : Option Instr :=
  match lo with
  | 0 => some (.li r.d r.imm15 r.t)
  | 1 => some (.lih r.d r.imm15 r.t)
  | 2 => some (.popc r.d r.a r.t)
  | 3 => some (.bfx r.d r.a r.b (r.f.getLsbD 0) r.t)
  | 4 => some (.bfi r.d r.a r.b r.t)
  | 5 => some (.muli r.d r.a r.imm9 r.t)
  | 6 => some (.clamp r.d r.a r.b (r.f.getLsbD 0) r.t)
  | 7 => some (.rndc r.d r.a r.b r.t)
  | 8 => some (.ldb r.d ⟨r.a, r.b⟩ r.f r.t)
  | 9 => some (.ldh r.d ⟨r.a, r.b⟩ r.f r.t)
  | 10 => some (.ldw r.d ⟨r.a, r.b⟩ r.f r.t)
  | 11 => some (.ldd r.d ⟨r.a, r.b⟩ r.f r.t)
  | 12 => some (.ldbs r.d ⟨r.a, r.b⟩ r.f r.t)
  | 13 => some (.ldhs r.d ⟨r.a, r.b⟩ r.f r.t)
  | 14 => some (.ldws r.d ⟨r.a, r.b⟩ r.f r.t)
  | 15 => some (.stb r.d ⟨r.a, r.b⟩ r.f r.t)
  | _ => none

/-- The major opcodes 0x50 to 0x5F (R107, R108); BLK, BLKX and EXT are read from the whole word. -/
def decodeRow5 (lo : Nat) (r : RWord) : Option Instr :=
  match lo with
  | 0 => some (.sth r.d ⟨r.a, r.b⟩ r.f r.t)
  | 1 => some (.stw r.d ⟨r.a, r.b⟩ r.f r.t)
  | 2 => some (.std r.d ⟨r.a, r.b⟩ r.f r.t)
  | 3 => some (.hld r.d r.a r.imm9 r.t)
  | 4 => some (.hinfo r.d r.a r.f r.t)
  | 5 => some (.hsub r.d r.a r.b r.f r.t)
  | 6 => if r.f.getLsbD 0 then some (.prefL2 ⟨r.a, r.b⟩ r.t) else some (.pref ⟨r.a, r.b⟩ r.t)
  | 7 => if r.f.getLsbD 0 then some (.cinvL2 r.d ⟨r.a, r.b⟩ r.t) else some (.cinv r.d ⟨r.a, r.b⟩ r.t)
  | 8 => some (.aadd r.d ⟨r.a, r.b⟩ r.f r.t)
  | 9 => some (.amin r.d ⟨r.a, r.b⟩ r.f r.t)
  | 10 => some (.amax r.d ⟨r.a, r.b⟩ r.f r.t)
  | 11 => some (.aminu r.d ⟨r.a, r.b⟩ r.f r.t)
  | 12 => some (.amaxu r.d ⟨r.a, r.b⟩ r.f r.t)
  | 13 => some (.aand r.d ⟨r.a, r.b⟩ r.f r.t)
  | 14 => some (.aor r.d ⟨r.a, r.b⟩ r.f r.t)
  | 15 => some (.axor r.d ⟨r.a, r.b⟩ r.f r.t)
  | _ => none

/-- The major opcodes 0x60 to 0x6F (R107, R108); BLK, BLKX and EXT are read from the whole word. -/
def decodeRow6 (lo : Nat) (r : RWord) : Option Instr :=
  match lo with
  | 0 => some (.axch r.d ⟨r.a, r.b⟩ r.f r.t)
  | 1 => some (.acas r.d ⟨r.a, r.b⟩ r.f r.t)
  | 2 => some (.afadd r.d ⟨r.a, r.b⟩ r.f r.t)
  | 3 => some (.redadd r.d ⟨r.a, r.b⟩ r.f r.t)
  | 4 => some (.redfadd r.d ⟨r.a, r.b⟩ r.f r.t)
  | 5 => some (.redmin r.d ⟨r.a, r.b⟩ r.f r.t)
  | 6 => some (.redmax r.d ⟨r.a, r.b⟩ r.f r.t)
  | 7 => some (.ainc r.d ⟨r.a, r.b⟩ r.f r.t)
  | 8 => some (.bbclm r.d (r.a.extractLsb' 0 4) (r.f.getLsbD 0) r.t)
  | 9 => some (.bbpub (r.a.extractLsb' 0 4) r.b r.t)
  | 10 => some (.bbwf r.d (r.a.extractLsb' 0 4) r.b (r.f.getLsbD 0) r.t)
  | 11 => some (.bbwe r.d (r.a.extractLsb' 0 4) (r.f.getLsbD 0) r.t)
  | 12 => some (.bbrel (r.a.extractLsb' 0 4) r.b r.t)
  | 13 => some (.bbinit (r.a.extractLsb' 0 4) r.b r.t)
  | 14 => some (.cpy ⟨r.a, r.b⟩ (r.f.getLsbD 0) r.t)
  | 15 => some (.cpyq r.d r.a r.b (r.f.getLsbD 0) r.t)
  | _ => none

/-- The major opcodes 0x70 to 0x7F (R107, R108); BLK, BLKX and EXT are read from the whole word. -/
def decodeRow7 (lo : Nat) (r : RWord) : Option Instr :=
  match lo with
  | 0 => some (.cpyx r.d ⟨r.a, r.b⟩ (r.f.getLsbD 0) r.t)
  | 1 => some (.gath r.d ⟨r.a, r.b⟩ (r.f.getLsbD 0) r.t)
  | 2 => some (.scat r.d ⟨r.a, r.b⟩ (r.f.getLsbD 0) r.t)
  | 3 => some (.fill r.d ⟨r.a, r.b⟩ (r.f.getLsbD 0) r.t)
  | 4 => some (.sld r.d ⟨r.a, r.b⟩ r.f r.t)
  | 5 => some (.sst r.d ⟨r.a, r.b⟩ r.f r.t)
  | 6 => some (.bbqry r.d (r.a.extractLsb' 0 4) r.f r.t)
  | 7 => some (.cpyw r.d ⟨r.a, r.b⟩ (r.f.getLsbD 0) r.t)
  | 8 => some (.pld r.d ⟨r.a, r.b⟩ r.f r.t)
  | 9 => some (.pst r.d ⟨r.a, r.b⟩ r.t)
  | 10 => some (.pstl r.d ⟨r.a, r.b⟩ r.t)
  | 11 => some (.paxpy r.d ⟨r.a, r.b⟩ r.f r.t)
  | 12 => some (.pscl r.d ⟨r.a, r.b⟩ r.t)
  | 13 => some (.pcvt r.d ⟨r.a, r.b⟩ r.f r.t)
  | 14 => some (.pnorm r.d ⟨r.a, r.b⟩ r.t)
  | 15 => some (.pcnt r.d ⟨r.a, r.b⟩ r.t)
  | _ => none

/-- The major opcodes 0x80 to 0x8F (R107, R108); BLK, BLKX and EXT are read from the whole word. -/
def decodeRow8 (lo : Nat) (r : RWord) : Option Instr :=
  match lo with
  | 0 => some (.vadd r.d r.a r.b r.f r.t)
  | 1 => some (.vsub r.d r.a r.b r.f r.t)
  | 2 => some (.vmul r.d r.a r.b r.f r.t)
  | 3 => some (.vfma r.d r.a r.b r.f r.t)
  | 4 => some (.vmin r.d r.a r.b r.f r.t)
  | 5 => some (.vmax r.d r.a r.b r.f r.t)
  | 6 => some (.vabs r.d r.a r.f r.t)
  | 7 => some (.vneg r.d r.a r.f r.t)
  | 8 => some (.vcmp r.d r.a r.b r.f r.t)
  | 9 => some (.vsel r.d r.a r.b r.t)
  | 10 => some (.vand r.d r.a r.b r.t)
  | 11 => some (.vor r.d r.a r.b r.t)
  | 12 => some (.vxor r.d r.a r.b r.t)
  | 13 => some (.vshl r.d r.a r.b r.t)
  | 14 => some (.vshr r.d r.a r.b r.t)
  | 15 => some (.vcvt r.d r.a r.b r.t)
  | _ => none

/-- The major opcodes 0x90 to 0x9F (R107, R108); BLK, BLKX and EXT are read from the whole word. -/
def decodeRow9 (lo : Nat) (r : RWord) : Option Instr :=
  match lo with
  | 0 => some (.vsfn r.d r.a r.f r.t)
  | 1 => some (.vred r.d r.a r.f r.t)
  | 2 => some (.vbcst r.d r.a r.t)
  | 3 => some (.vld r.d ⟨r.a, r.b⟩ r.f r.t)
  | 4 => some (.vst r.d ⟨r.a, r.b⟩ r.f r.t)
  | 5 => some (.vget r.d r.a r.b r.f r.t)
  | 6 => some (.vput r.d r.a r.b r.f r.t)
  | 7 => if r.f = 1#3 then some (.vcolW r.d r.a r.b r.t) else some (.vcolR r.d r.a ⟨r.b, r.f⟩ r.t)
  | 8 => some (.vperm r.d r.a r.b r.t)
  | 9 => some (.vrng r.d r.a r.b r.f r.t)
  | 10 => some (.osmx r.d r.t)
  | 11 => some (.osmn r.d r.t)
  | 12 => some (.vqnt r.d r.a r.b r.f r.t)
  | 13 => some (.vdqn r.d r.a r.b r.f r.t)
  | 14 => some (.viota r.d r.a r.t)
  | 15 => some (.vscan r.d r.a r.f r.t)
  | _ => none

/-- The major opcodes 0xA0 to 0xAF (R107, R108); BLK, BLKX and EXT are read from the whole word. -/
def decodeRowA (lo : Nat) (r : RWord) : Option Instr :=
  match lo with
  | 0 => some (.mlw r.d ⟨r.a, r.b⟩ r.f r.t)
  | 1 => some (.mswp r.t)
  | 2 => some (.mma r.d ⟨r.a, r.b⟩ r.t)
  | 3 => some (.mmaz r.d ⟨r.a, r.b⟩ r.t)
  | 4 => some (.mdrn r.d ⟨r.a, r.b⟩ r.f r.t)
  | 5 => some (.mcfg r.d r.a r.t)
  | 6 => some (.mzro r.d (r.f.getLsbD 0) r.t)
  | 7 => some (.mscl r.d ⟨r.a, r.b⟩ r.f r.t)
  | 8 => if r.f.getLsbD 0 then some (.mbiasClr r.t) else some (.mbias ⟨r.a, r.b⟩ r.t)
  | 9 => some (.mgemv r.d ⟨r.a, r.b⟩ r.t)
  | 10 => some (.mgwt r.d r.t)
  | 11 => some (.movc r.d r.a (r.f.getLsbD 0) r.t)
  | 12 => some (.mtrn r.d r.a (r.f.getLsbD 0) (r.f.getLsbD 1) r.t)
  | 13 => some (.mstat r.d r.a r.f r.t)
  | 14 => if r.f.getLsbD 0 then some (.mrsmDiscard r.t) else some (.mrsm r.t)
  | 15 => some (.mfmt r.a r.t)
  | _ => none

/-- The major opcodes 0xB0 to 0xBF (R107, R108); BLK, BLKX and EXT are read from the whole word. -/
def decodeRowB (lo : Nat) (r : RWord) : Option Instr :=
  match lo with
  | 0 => some (.sendM r.a r.b r.t)
  | 1 => some (.fcpy ⟨r.a, r.b⟩ r.t)
  | 2 => some (.fred ⟨r.a, r.b⟩ r.t)
  | 3 => some (.fsig r.a r.b r.t)
  | 4 => some (.coll r.d ⟨r.a, r.b⟩ r.t)
  | 5 => some (.cqry r.d r.a r.f r.t)
  | 6 => some (.cwait r.d r.a r.t)
  | 7 => some (.cabt r.a r.t)
  | 8 => some (.xfm r.d ⟨r.a, r.b⟩ (r.f.getLsbD 0) r.t)
  | 9 => some (.xwait r.d r.a r.t)
  | 10 => some (.xqry r.d r.a r.f r.t)
  | 11 => if r.f.getLsbD 0 then some (.xabtQ r.a r.t) else some (.xabt r.a r.t)
  | 12 => some (.eret r.t)
  | 13 => some (.mfs r.d (r.imm15.extractLsb' 0 12) r.t)
  | 14 => some (.mts r.d (r.imm15.extractLsb' 0 12) r.t)
  | 15 => some (.wfi r.a r.t)
  | _ => none
/-- An R, I, U or J word by its major opcode (R107, R108). OP 0xC0 to 0xDF are hints (R109). -/
def decodeOp (r : RWord) : Option Instr :=
  match r.op.toNat / 16 with
  | 0 => decodeRow0 (r.op.toNat % 16) r
  | 1 => decodeRow1 (r.op.toNat % 16) r
  | 2 => decodeRow2 (r.op.toNat % 16) r
  | 3 => decodeRow3 (r.op.toNat % 16) r
  | 4 => decodeRow4 (r.op.toNat % 16) r
  | 5 => decodeRow5 (r.op.toNat % 16) r
  | 6 => decodeRow6 (r.op.toNat % 16) r
  | 7 => decodeRow7 (r.op.toNat % 16) r
  | 8 => decodeRow8 (r.op.toNat % 16) r
  | 9 => decodeRow9 (r.op.toNat % 16) r
  | 10 => decodeRowA (r.op.toNat % 16) r
  | 11 => decodeRowB (r.op.toNat % 16) r
  | 12 | 13 => some (.hint (r.op.extractLsb' 0 5) (r.f ++ r.b ++ r.a ++ r.d) r.t)
  | _ => none

/-- A 32-bit word (R102, R103, R105, R111). -/
def decode32 (w : BitVec 32) : Except DecodeError Instr :=
  let op := w.extractLsb' 1 8
  if op = 0x01#8 then
    if w.extractLsb' 22 6 = 63#6 then .error .repReserved
    else if w.extractLsb' 13 9 = 0#9 then .error .lenZero
    else .ok (.blk (w.extractLsb' 22 6) (w.extractLsb' 13 9) (w.extractLsb' 11 2) (w.extractLsb' 9 2))
  else if op = 0x02#8 then
    if w.extractLsb' 13 9 = 0#9 then .error .lenZero
    else .ok (.blkx (w.extractLsb' 22 6) (w.extractLsb' 13 9) (w.extractLsb' 11 2) (w.extractLsb' 9 2))
  else if op = 0x0D#8 then .ok (.ext (w.extractLsb' 9 23))
  else match decodeOp (RWord.unpack w) with
    | some i => .ok i
    | none => .error .reservedOp

/-- A 16-bit compact word (R110). -/
def decode16 (w : BitVec 16) : Except DecodeError Instr :=
  let d := w.extractLsb' 6 5
  let a := w.extractLsb' 11 5
  match (w.extractLsb' 1 5).toNat with
  | 0 => .ok .cNop
  | 1 => .ok (.cTkw a)
  | 2 => .ok (.cTkp a)
  | 3 => .ok (.cMov d a)
  | 4 => .ok (.cAdd d a)
  | 5 => .ok (.cSub d a)
  | 6 => .ok (.cAnd d a)
  | 7 => .ok (.cOr d a)
  | 8 => .ok (.cXor d a)
  | 9 => .ok (.cAddi d a)
  | 10 => .ok (.cLi d a)
  | 11 => .ok (.cShli d a)
  | 12 => .ok (.cShrli d a)
  | 13 => .ok (.cBz d a)
  | 14 => .ok (.cBnz d a)
  | 15 => .ok .cEnd
  | _ => .error .reservedCompact

/-- The fields of a MAKE or TREE word (R317). -/
def decodeMake (w : BitVec 64) : MakeWord :=
  { circuit := w.extractLsb' 8 8, stile := w.extractLsb' 60 4, dmod := w.extractLsb' 54 6
    dtile := w.extractLsb' 50 4, width1 := w.extractLsb' 46 4, minw1 := w.extractLsb' 42 4
    span := w.getLsbD 41, rcore := w.extractLsb' 38 3, rbob := w.extractLsb' 34 4
    route := w.extractLsb' 25 9, rx := w.getLsbD 24 }

/-- A 64-bit sequencer word (R317). -/
def decodeSeq (w : BitVec 64) : Except DecodeError Instr :=
  match (w.extractLsb' 0 8).toNat with
  | 0 => .ok .sequencerEnd
  | 1 => .ok .sqAlign
  | 2 => .ok (.sqPhase (w.extractLsb' 8 16))
  | 3 => .ok (.sqMake (decodeMake w))
  | 4 => .ok (.sqTree (decodeMake w))
  | 5 => .ok (.sqBreak (w.extractLsb' 8 8))
  | 6 => .ok (.sqPrep (w.extractLsb' 8 9))
  | 7 => .ok (.sqWait (w.extractLsb' 8 16))
  | 8 => .ok (.sqSigt (w.extractLsb' 8 9) (w.extractLsb' 17 4) (w.extractLsb' 21 3) (w.extractLsb' 24 32))
  | 9 => .ok .sqPausept
  | 10 => .ok (.sqLoop (w.extractLsb' 8 16))
  | 11 => .ok .sqNext
  | 12 => .ok (.sqChunk (w.extractLsb' 8 8) (w.extractLsb' 54 10) (w.extractLsb' 44 10))
  | _ => .error .reservedSeqOp

/-- Two bytes, little-endian (R11). -/
def half16 (b0 b1 : Byte) : BitVec 16 := b1 ++ b0

/-- The first word of a stream's code bytes, with the bytes after it (R101). -/
def decode (bs : List Byte) : Except DecodeError (Instr × List Byte) :=
  match bs with
  | b0 :: b1 :: rest =>
    if b0.getLsbD 0 then
      match rest with
      | b2 :: b3 :: rest' => (decode32 (b3 ++ b2 ++ b1 ++ b0)).map (fun i => (i, rest'))
      | _ => .error .truncated
    else (decode16 (half16 b0 b1)).map (fun i => (i, rest))
  | _ => .error .truncated

/-- The n bytes of a number, the least significant first (R11). -/
def leBytes : Nat → Nat → List Byte
  | 0, _ => []
  | n + 1, v => BitVec.ofNat 8 v :: leBytes n (v / 256)

/-- The word's number of bytes: 2 for a compact form, 4 for any other instruction word (R101), 8 for a
sequencer word (R317), 0 for an event. -/
def decodeTableWord (nbits w : Nat) : Option Instr :=
  let r := if nbits = 64 then (decodeSeq (BitVec.ofNat 64 w)).map (fun i => (i, ([] : List Byte)))
    else decode (leBytes (if w % 2 = 1 then 4 else 2) w)
  match r with
  | .ok (i, _) => some i
  | .error _ => none

/-- The R-form fields of an instruction encoded in the R, I, U or J form (R103, R107); `none` for the
blocks, EXT, hints, compact forms, sequencer words and events. -/
def encodeR (i : Instr) : Option RWord :=
  match i with
  | .nop t => some ⟨0#3, 0#6, 0#6, 0#6, t.p, t.w, 0x00#8⟩
  | .br off t => some (RWord.ofU off 0#6 t 0x03#8)
  | .bz a off t => some (RWord.ofU off a t 0x04#8)
  | .bnz a off t => some (RWord.ofU off a t 0x05#8)
  | .brx a t => some ⟨0#3, 0#6, a, 0#6, t.p, t.w, 0x06#8⟩
  | .call off t => some (RWord.ofU off 0#6 t 0x07#8)
  | .retB t => some ⟨0#3, 0#6, 0#6, 0#6, t.p, t.w, 0x08#8⟩
  | .rend mask id t => some (RWord.ofU (0#7 ++ id ++ mask) 0#6 t 0x09#8)
  | .endS t => some ⟨0#3, 0#6, 0#6, 0#6, t.p, t.w, 0x0A#8⟩
  | .yield t => some ⟨0#3, 0#6, 0#6, 0#6, t.p, t.w, 0x0B#8⟩
  | .waitc d n t => some (RWord.ofU (0#1 ++ n) d t 0x0C#8)
  | .waitcS d n t => some (RWord.ofU (1#1 ++ n) d t 0x0C#8)
  | .trap d imm t => some (RWord.ofU imm d t 0x0E#8)
  | .sysc d imm t => some (RWord.ofU imm d t 0x0F#8)
  | .tkw j n1 t => some (RWord.ofI (0#4 ++ n1 ++ j) 0#6 0#6 t 0x10#8)
  | .tkp j n1 t => some (RWord.ofI (0#4 ++ n1 ++ j) 0#6 0#6 t 0x11#8)
  | .semw d a sel t => some (RWord.ofI sel a d t 0x12#8)
  | .sema d a sel t => some (RWord.ofI sel a d t 0x13#8)
  | .sems a sel t => some (RWord.ofI sel a 0#6 t 0x14#8)
  | .semsDisarm a sel t => some (RWord.ofI sel a 1#6 t 0x14#8)
  | .semo sel t => some (RWord.ofI sel 0#6 0#6 t 0x15#8)
  | .semrd d sel t => some (RWord.ofI sel 0#6 d t 0x16#8)
  | .fence scope t => some (RWord.ofU (0#12 ++ scope) 0#6 t 0x17#8)
  | .acq t => some ⟨0#3, 0#6, 0#6, 0#6, t.p, t.w, 0x18#8⟩
  | .acqR d m t => some ⟨1#3, m.x, m.h, d, t.p, t.w, 0x18#8⟩
  | .rel scope t => some (RWord.ofU (0#12 ++ scope) 0#6 t 0x19#8)
  | .pfenRetain t => some (RWord.ofU 0#15 0#6 t 0x1A#8)
  | .pfenLining t => some (RWord.ofU 1#15 0#6 t 0x1A#8)
  | .semwa d a b f t => some ⟨f, b, a, d, t.p, t.w, 0x1B#8⟩
  | .rdcyc d t => some ⟨0#3, 0#6, 0#6, d, t.p, t.w, 0x1C#8⟩
  | .rdcycS d t => some ⟨1#3, 0#6, 0#6, d, t.p, t.w, 0x1C#8⟩
  | .rdid d t => some ⟨0#3, 0#6, 0#6, d, t.p, t.w, 0x1D#8⟩
  | .prio d a t => some ⟨0#3, 0#6, a, d, t.p, t.w, 0x1E#8⟩
  | .linept d t => some ⟨0#3, 0#6, 0#6, d, t.p, t.w, 0x1F#8⟩
  | .addR d a b t => some ⟨0#3, b, a, d, t.p, t.w, 0x20#8⟩
  | .subR d a b t => some ⟨0#3, b, a, d, t.p, t.w, 0x21#8⟩
  | .mulR d a b t => some ⟨0#3, b, a, d, t.p, t.w, 0x22#8⟩
  | .mulh d a b t => some ⟨0#3, b, a, d, t.p, t.w, 0x23#8⟩
  | .mulhu d a b t => some ⟨0#3, b, a, d, t.p, t.w, 0x24#8⟩
  | .divI d a b t => some ⟨0#3, b, a, d, t.p, t.w, 0x25#8⟩
  | .divu d a b t => some ⟨0#3, b, a, d, t.p, t.w, 0x26#8⟩
  | .remI d a b t => some ⟨0#3, b, a, d, t.p, t.w, 0x27#8⟩
  | .remu d a b t => some ⟨0#3, b, a, d, t.p, t.w, 0x28#8⟩
  | .andR d a b t => some ⟨0#3, b, a, d, t.p, t.w, 0x29#8⟩
  | .orR d a b t => some ⟨0#3, b, a, d, t.p, t.w, 0x2A#8⟩
  | .xorR d a b t => some ⟨0#3, b, a, d, t.p, t.w, 0x2B#8⟩
  | .shl d a b t => some ⟨0#3, b, a, d, t.p, t.w, 0x2C#8⟩
  | .shrl d a b t => some ⟨0#3, b, a, d, t.p, t.w, 0x2D#8⟩
  | .shra d a b t => some ⟨0#3, b, a, d, t.p, t.w, 0x2E#8⟩
  | .minS d a b t => some ⟨0#3, b, a, d, t.p, t.w, 0x2F#8⟩
  | .maxS d a b t => some ⟨0#3, b, a, d, t.p, t.w, 0x30#8⟩
  | .minu d a b t => some ⟨0#3, b, a, d, t.p, t.w, 0x31#8⟩
  | .maxu d a b t => some ⟨0#3, b, a, d, t.p, t.w, 0x32#8⟩
  | .seq d a b t => some ⟨0#3, b, a, d, t.p, t.w, 0x33#8⟩
  | .slt d a b t => some ⟨0#3, b, a, d, t.p, t.w, 0x34#8⟩
  | .sltu d a b t => some ⟨0#3, b, a, d, t.p, t.w, 0x35#8⟩
  | .sel d a b t => some ⟨0#3, b, a, d, t.p, t.w, 0x36#8⟩
  | .clz d a t => some ⟨0#3, 0#6, a, d, t.p, t.w, 0x37#8⟩
  | .addi d a imm t => some (RWord.ofI imm a d t 0x38#8)
  | .andi d a imm t => some (RWord.ofI imm a d t 0x39#8)
  | .ori d a imm t => some (RWord.ofI imm a d t 0x3A#8)
  | .xori d a imm t => some (RWord.ofI imm a d t 0x3B#8)
  | .shli d a imm t => some (RWord.ofI imm a d t 0x3C#8)
  | .shrli d a imm t => some (RWord.ofI imm a d t 0x3D#8)
  | .shrai d a imm t => some (RWord.ofI imm a d t 0x3E#8)
  | .slti d a imm t => some (RWord.ofI imm a d t 0x3F#8)
  | .li d imm t => some (RWord.ofU imm d t 0x40#8)
  | .lih d imm t => some (RWord.ofU imm d t 0x41#8)
  | .popc d a t => some ⟨0#3, 0#6, a, d, t.p, t.w, 0x42#8⟩
  | .bfx d a b signed t => some ⟨(0#2 ++ BitVec.ofBool signed), b, a, d, t.p, t.w, 0x43#8⟩
  | .bfi d a b t => some ⟨0#3, b, a, d, t.p, t.w, 0x44#8⟩
  | .muli d a imm t => some (RWord.ofI imm a d t 0x45#8)
  | .clamp d a b uns t => some ⟨(0#2 ++ BitVec.ofBool uns), b, a, d, t.p, t.w, 0x46#8⟩
  | .rndc d a b t => some ⟨0#3, b, a, d, t.p, t.w, 0x47#8⟩
  | .ldb d m f t => some ⟨f, m.x, m.h, d, t.p, t.w, 0x48#8⟩
  | .ldh d m f t => some ⟨f, m.x, m.h, d, t.p, t.w, 0x49#8⟩
  | .ldw d m f t => some ⟨f, m.x, m.h, d, t.p, t.w, 0x4A#8⟩
  | .ldd d m f t => some ⟨f, m.x, m.h, d, t.p, t.w, 0x4B#8⟩
  | .ldbs d m f t => some ⟨f, m.x, m.h, d, t.p, t.w, 0x4C#8⟩
  | .ldhs d m f t => some ⟨f, m.x, m.h, d, t.p, t.w, 0x4D#8⟩
  | .ldws d m f t => some ⟨f, m.x, m.h, d, t.p, t.w, 0x4E#8⟩
  | .stb d m f t => some ⟨f, m.x, m.h, d, t.p, t.w, 0x4F#8⟩
  | .sth d m f t => some ⟨f, m.x, m.h, d, t.p, t.w, 0x50#8⟩
  | .stw d m f t => some ⟨f, m.x, m.h, d, t.p, t.w, 0x51#8⟩
  | .std d m f t => some ⟨f, m.x, m.h, d, t.p, t.w, 0x52#8⟩
  | .hld d a imm t => some (RWord.ofI imm a d t 0x53#8)
  | .hinfo d a f t => some ⟨f, 0#6, a, d, t.p, t.w, 0x54#8⟩
  | .hsub d a b f t => some ⟨f, b, a, d, t.p, t.w, 0x55#8⟩
  | .pref m t => some ⟨0#3, m.x, m.h, 0#6, t.p, t.w, 0x56#8⟩
  | .prefL2 m t => some ⟨1#3, m.x, m.h, 0#6, t.p, t.w, 0x56#8⟩
  | .cinv d m t => some ⟨0#3, m.x, m.h, d, t.p, t.w, 0x57#8⟩
  | .cinvL2 d m t => some ⟨1#3, m.x, m.h, d, t.p, t.w, 0x57#8⟩
  | .aadd d m f t => some ⟨f, m.x, m.h, d, t.p, t.w, 0x58#8⟩
  | .amin d m f t => some ⟨f, m.x, m.h, d, t.p, t.w, 0x59#8⟩
  | .amax d m f t => some ⟨f, m.x, m.h, d, t.p, t.w, 0x5A#8⟩
  | .aminu d m f t => some ⟨f, m.x, m.h, d, t.p, t.w, 0x5B#8⟩
  | .amaxu d m f t => some ⟨f, m.x, m.h, d, t.p, t.w, 0x5C#8⟩
  | .aand d m f t => some ⟨f, m.x, m.h, d, t.p, t.w, 0x5D#8⟩
  | .aor d m f t => some ⟨f, m.x, m.h, d, t.p, t.w, 0x5E#8⟩
  | .axor d m f t => some ⟨f, m.x, m.h, d, t.p, t.w, 0x5F#8⟩
  | .axch d m f t => some ⟨f, m.x, m.h, d, t.p, t.w, 0x60#8⟩
  | .acas d m f t => some ⟨f, m.x, m.h, d, t.p, t.w, 0x61#8⟩
  | .afadd d m f t => some ⟨f, m.x, m.h, d, t.p, t.w, 0x62#8⟩
  | .redadd d m f t => some ⟨f, m.x, m.h, d, t.p, t.w, 0x63#8⟩
  | .redfadd d m f t => some ⟨f, m.x, m.h, d, t.p, t.w, 0x64#8⟩
  | .redmin d m f t => some ⟨f, m.x, m.h, d, t.p, t.w, 0x65#8⟩
  | .redmax d m f t => some ⟨f, m.x, m.h, d, t.p, t.w, 0x66#8⟩
  | .ainc d m f t => some ⟨f, m.x, m.h, d, t.p, t.w, 0x67#8⟩
  | .bbclm d bob nw t => some ⟨(0#2 ++ BitVec.ofBool nw), 0#6, (0#2 ++ bob), d, t.p, t.w, 0x68#8⟩
  | .bbpub bob b t => some ⟨0#3, b, (0#2 ++ bob), 0#6, t.p, t.w, 0x69#8⟩
  | .bbwf d bob b nw t => some ⟨(0#2 ++ BitVec.ofBool nw), b, (0#2 ++ bob), d, t.p, t.w, 0x6A#8⟩
  | .bbwe d bob nw t => some ⟨(0#2 ++ BitVec.ofBool nw), 0#6, (0#2 ++ bob), d, t.p, t.w, 0x6B#8⟩
  | .bbrel bob b t => some ⟨0#3, b, (0#2 ++ bob), 0#6, t.p, t.w, 0x6C#8⟩
  | .bbinit bob b t => some ⟨0#3, b, (0#2 ++ bob), 0#6, t.p, t.w, 0x6D#8⟩
  | .cpy m tile t => some ⟨(0#2 ++ BitVec.ofBool tile), m.x, m.h, 0#6, t.p, t.w, 0x6E#8⟩
  | .cpyq d a b tile t => some ⟨(0#2 ++ BitVec.ofBool tile), b, a, d, t.p, t.w, 0x6F#8⟩
  | .cpyx d m tile t => some ⟨(0#2 ++ BitVec.ofBool tile), m.x, m.h, d, t.p, t.w, 0x70#8⟩
  | .gath d m tile t => some ⟨(0#2 ++ BitVec.ofBool tile), m.x, m.h, d, t.p, t.w, 0x71#8⟩
  | .scat d m tile t => some ⟨(0#2 ++ BitVec.ofBool tile), m.x, m.h, d, t.p, t.w, 0x72#8⟩
  | .fill d m tile t => some ⟨(0#2 ++ BitVec.ofBool tile), m.x, m.h, d, t.p, t.w, 0x73#8⟩
  | .sld d m f t => some ⟨f, m.x, m.h, d, t.p, t.w, 0x74#8⟩
  | .sst d m f t => some ⟨f, m.x, m.h, d, t.p, t.w, 0x75#8⟩
  | .bbqry d bob f t => some ⟨f, 0#6, (0#2 ++ bob), d, t.p, t.w, 0x76#8⟩
  | .cpyw d m tile t => some ⟨(0#2 ++ BitVec.ofBool tile), m.x, m.h, d, t.p, t.w, 0x77#8⟩
  | .pld d m f t => some ⟨f, m.x, m.h, d, t.p, t.w, 0x78#8⟩
  | .pst d m t => some ⟨0#3, m.x, m.h, d, t.p, t.w, 0x79#8⟩
  | .pstl d m t => some ⟨0#3, m.x, m.h, d, t.p, t.w, 0x7A#8⟩
  | .paxpy d m f t => some ⟨f, m.x, m.h, d, t.p, t.w, 0x7B#8⟩
  | .pscl d m t => some ⟨0#3, m.x, m.h, d, t.p, t.w, 0x7C#8⟩
  | .pcvt d m f t => some ⟨f, m.x, m.h, d, t.p, t.w, 0x7D#8⟩
  | .pnorm d m t => some ⟨0#3, m.x, m.h, d, t.p, t.w, 0x7E#8⟩
  | .pcnt d m t => some ⟨0#3, m.x, m.h, d, t.p, t.w, 0x7F#8⟩
  | .vadd d a b f t => some ⟨f, b, a, d, t.p, t.w, 0x80#8⟩
  | .vsub d a b f t => some ⟨f, b, a, d, t.p, t.w, 0x81#8⟩
  | .vmul d a b f t => some ⟨f, b, a, d, t.p, t.w, 0x82#8⟩
  | .vfma d a b f t => some ⟨f, b, a, d, t.p, t.w, 0x83#8⟩
  | .vmin d a b f t => some ⟨f, b, a, d, t.p, t.w, 0x84#8⟩
  | .vmax d a b f t => some ⟨f, b, a, d, t.p, t.w, 0x85#8⟩
  | .vabs d a f t => some ⟨f, 0#6, a, d, t.p, t.w, 0x86#8⟩
  | .vneg d a f t => some ⟨f, 0#6, a, d, t.p, t.w, 0x87#8⟩
  | .vcmp d a b f t => some ⟨f, b, a, d, t.p, t.w, 0x88#8⟩
  | .vsel d a b t => some ⟨0#3, b, a, d, t.p, t.w, 0x89#8⟩
  | .vand d a b t => some ⟨0#3, b, a, d, t.p, t.w, 0x8A#8⟩
  | .vor d a b t => some ⟨0#3, b, a, d, t.p, t.w, 0x8B#8⟩
  | .vxor d a b t => some ⟨0#3, b, a, d, t.p, t.w, 0x8C#8⟩
  | .vshl d a b t => some ⟨0#3, b, a, d, t.p, t.w, 0x8D#8⟩
  | .vshr d a b t => some ⟨0#3, b, a, d, t.p, t.w, 0x8E#8⟩
  | .vcvt d a b t => some ⟨0#3, b, a, d, t.p, t.w, 0x8F#8⟩
  | .vsfn d a f t => some ⟨f, 0#6, a, d, t.p, t.w, 0x90#8⟩
  | .vred d a f t => some ⟨f, 0#6, a, d, t.p, t.w, 0x91#8⟩
  | .vbcst d a t => some ⟨0#3, 0#6, a, d, t.p, t.w, 0x92#8⟩
  | .vld d m f t => some ⟨f, m.x, m.h, d, t.p, t.w, 0x93#8⟩
  | .vst d m f t => some ⟨f, m.x, m.h, d, t.p, t.w, 0x94#8⟩
  | .vget d a b f t => some ⟨f, b, a, d, t.p, t.w, 0x95#8⟩
  | .vput d a b f t => some ⟨f, b, a, d, t.p, t.w, 0x96#8⟩
  | .vcolR d a b t => some ⟨b.f, b.x, a, d, t.p, t.w, 0x97#8⟩
  | .vcolW d a b t => some ⟨1#3, b, a, d, t.p, t.w, 0x97#8⟩
  | .vperm d a b t => some ⟨0#3, b, a, d, t.p, t.w, 0x98#8⟩
  | .vrng d a b f t => some ⟨f, b, a, d, t.p, t.w, 0x99#8⟩
  | .osmx d t => some ⟨0#3, 0#6, 0#6, d, t.p, t.w, 0x9A#8⟩
  | .osmn d t => some ⟨0#3, 0#6, 0#6, d, t.p, t.w, 0x9B#8⟩
  | .vqnt d a b f t => some ⟨f, b, a, d, t.p, t.w, 0x9C#8⟩
  | .vdqn d a b f t => some ⟨f, b, a, d, t.p, t.w, 0x9D#8⟩
  | .viota d a t => some ⟨0#3, 0#6, a, d, t.p, t.w, 0x9E#8⟩
  | .vscan d a f t => some ⟨f, 0#6, a, d, t.p, t.w, 0x9F#8⟩
  | .mlw d m f t => some ⟨f, m.x, m.h, d, t.p, t.w, 0xA0#8⟩
  | .mswp t => some ⟨0#3, 0#6, 0#6, 0#6, t.p, t.w, 0xA1#8⟩
  | .mma d m t => some ⟨0#3, m.x, m.h, d, t.p, t.w, 0xA2#8⟩
  | .mmaz d m t => some ⟨0#3, m.x, m.h, d, t.p, t.w, 0xA3#8⟩
  | .mdrn d m f t => some ⟨f, m.x, m.h, d, t.p, t.w, 0xA4#8⟩
  | .mcfg d a t => some ⟨0#3, 0#6, a, d, t.p, t.w, 0xA5#8⟩
  | .mzro d s t => some ⟨(0#2 ++ BitVec.ofBool s), 0#6, 0#6, d, t.p, t.w, 0xA6#8⟩
  | .mscl d m f t => some ⟨f, m.x, m.h, d, t.p, t.w, 0xA7#8⟩
  | .mbias m t => some ⟨0#3, m.x, m.h, 0#6, t.p, t.w, 0xA8#8⟩
  | .mbiasClr t => some ⟨1#3, 0#6, 0#6, 0#6, t.p, t.w, 0xA8#8⟩
  | .mgemv d m t => some ⟨0#3, m.x, m.h, d, t.p, t.w, 0xA9#8⟩
  | .mgwt d t => some ⟨0#3, 0#6, 0#6, d, t.p, t.w, 0xAA#8⟩
  | .movc d a s t => some ⟨(0#2 ++ BitVec.ofBool s), 0#6, a, d, t.p, t.w, 0xAB#8⟩
  | .mtrn d a sh dh t => some ⟨(0#1 ++ BitVec.ofBool dh ++ BitVec.ofBool sh), 0#6, a, d, t.p, t.w, 0xAC#8⟩
  | .mstat d a f t => some ⟨f, 0#6, a, d, t.p, t.w, 0xAD#8⟩
  | .mrsm t => some ⟨0#3, 0#6, 0#6, 0#6, t.p, t.w, 0xAE#8⟩
  | .mrsmDiscard t => some ⟨1#3, 0#6, 0#6, 0#6, t.p, t.w, 0xAE#8⟩
  | .mfmt a t => some ⟨0#3, 0#6, a, 0#6, t.p, t.w, 0xAF#8⟩
  | .sendM a b t => some ⟨0#3, b, a, 0#6, t.p, t.w, 0xB0#8⟩
  | .fcpy m t => some ⟨0#3, m.x, m.h, 0#6, t.p, t.w, 0xB1#8⟩
  | .fred m t => some ⟨0#3, m.x, m.h, 0#6, t.p, t.w, 0xB2#8⟩
  | .fsig a b t => some ⟨0#3, b, a, 0#6, t.p, t.w, 0xB3#8⟩
  | .coll d m t => some ⟨0#3, m.x, m.h, d, t.p, t.w, 0xB4#8⟩
  | .cqry d a f t => some ⟨f, 0#6, a, d, t.p, t.w, 0xB5#8⟩
  | .cwait d a t => some ⟨0#3, 0#6, a, d, t.p, t.w, 0xB6#8⟩
  | .cabt a t => some ⟨0#3, 0#6, a, 0#6, t.p, t.w, 0xB7#8⟩
  | .xfm d m e1 t => some ⟨(0#2 ++ BitVec.ofBool e1), m.x, m.h, d, t.p, t.w, 0xB8#8⟩
  | .xwait d a t => some ⟨0#3, 0#6, a, d, t.p, t.w, 0xB9#8⟩
  | .xqry d a f t => some ⟨f, 0#6, a, d, t.p, t.w, 0xBA#8⟩
  | .xabt a t => some ⟨0#3, 0#6, a, 0#6, t.p, t.w, 0xBB#8⟩
  | .xabtQ a t => some ⟨1#3, 0#6, a, 0#6, t.p, t.w, 0xBB#8⟩
  | .eret t => some ⟨0#3, 0#6, 0#6, 0#6, t.p, t.w, 0xBC#8⟩
  | .mfs d idx t => some (RWord.ofU (0#3 ++ idx) d t 0xBD#8)
  | .mts d idx t => some (RWord.ofU (0#3 ++ idx) d t 0xBE#8)
  | .wfi a t => some ⟨0#3, 0#6, a, 0#6, t.p, t.w, 0xBF#8⟩
  | .blk _ _ _ _ | .blkx _ _ _ _ | .ext _ | .hint _ _ _ | .cNop | .cTkw _ | .cTkp _ | .cMov _ _ | .cAdd _ _ | .cSub _ _ | .cAnd _ _ | .cOr _ _ | .cXor _ _ | .cAddi _ _ | .cLi _ _ | .cShli _ _ | .cShrli _ _ | .cBz _ _ | .cBnz _ _ | .cEnd | .sqAlign | .sqPhase _ | .sqMake _ | .sqTree _ | .sqBreak _ | .sqPrep _ | .sqWait _ | .sqSigt _ _ _ _ | .sqPausept | .sqLoop _ | .sqNext | .sqChunk _ _ _ | .sequencerEnd | .alignRelease _ | .circuitMakeResolve _ _ | .circuitBreakComplete _ | .phaseEnd | .pauseResume | .fastBringupEnd _ _ _ | .fullTrainingEnd _ _ _ | .lossOfLock _ _ _ | .spareWavelengthMapping _ _ | .sourceFailure _ | .spareSourceSwitch _ | .flitArrival _ _ | .messageDelivery _ | .fsigArrival _ _ _ _ | .fabricWriteArrival _ _ | .fabricCopyComplete _ _ | .peerReset _ | .measurementEnd _ _ _ | .keyUpdate _ | .serviceCircuitRemake _ | .chunkArrival _ _ _ _ _ | .collectiveComplete _ _ | .collectiveAbort _ _ _ | .copyStart _ _ _ | .copySourceFree _ _ | .copyComplete _ _ | .copyFault _ _ | .pendingTackPush _ | .xfmRecordStart _ _ | .xfmRecordEnd _ _ | .mgemvComplete _ _ _ | .reductionPerform _ _ | .walkerIterationStart _ | .syncTrapDelivery _ _ | .asyncTrapDelivery _ _ _ | .tackWatchdog _ | .thimbleTrap _ | .preemptHalt _ _ _ | .contextSaveComplete _ _ _ | .periodicLiningTimer _ _ | .liningCapture _ _ | .liningCommit _ _ | .liningWriterDrain _ _ _ | .powerFailDetect _ | .finalFlushCommit _ _ | .liningResume _ | .modulePowerLoss | .moduleReset _ | .thermalTrip | .thermalRecovery | .alarmTrip _ | .hbmRefresh _ _ | .patrolScrub _ _ _ | .ringThermalLock _ | .laserPowerControl _ | .telemetrySampling | .mramScrub _ _ | .wStart _ | .wStop _ | .wPreempt _ _ _ _ | .wResume _ _ _ _ | .wEnter _ _ _ | .wKill _ _ _ | .invalidatePage _ _ | .invalidateAll _ | .hubInvalidatePage _ | .hubInvalidateAll | .invalidationComplete _ | .ptrootWrite _ _ | .hptrootWrite _ | .msplitWrite _ _ | .splitChange _ | .wlmapWrite _ _ | .laserctlWrite _ _ | .laserLockEnd _ _ | .pbLock _ _ | .pbTrain _ _ _ | .pbFast _ _ _ | .pbAbort _ | .lockEnd _ _ | .trainEnd _ _ | .launch _ | .cancel | .recover _ | .groupCreate _ | .groupDelete | .seccfg | .logread | .clearj | .mbcmdInvalid _ | .registerWrite _ _ | .waitcTargetReached _ | .matrixPassComplete _ _ | .storePerformedAtHome _ _ _ | .keyPhaseWindowEnd _ => none

/-- A 32-bit word of an instruction that has one. -/
def encode32 (i : Instr) : Option (BitVec 32) :=
  match i with
  | .blk rep len pp wp => some (0#4 ++ rep ++ len ++ pp ++ wp ++ 0x01#8 ++ 1#1)
  | .blkx c len pp wp => some (0#4 ++ c ++ len ++ pp ++ wp ++ 0x02#8 ++ 1#1)
  | .ext imm => some (imm ++ 0x0D#8 ++ 1#1)
  | .hint n imm t => some (imm ++ BitVec.ofBool t.p ++ BitVec.ofBool t.w ++ (0b110#3 ++ n) ++ 1#1)
  | j => (encodeR j).map RWord.pack

/-- A compact word (R110). -/
def encode16 (i : Instr) : Option (BitVec 16) :=
  let w (op : BitVec 5) (d a : BitVec 5) : Option (BitVec 16) := some (a ++ d ++ op ++ 0#1)
  match i with
  | .cNop => w 0 0 0
  | .cTkw a => w 1 0 a
  | .cTkp a => w 2 0 a
  | .cMov d a => w 3 d a
  | .cAdd d a => w 4 d a
  | .cSub d a => w 5 d a
  | .cAnd d a => w 6 d a
  | .cOr d a => w 7 d a
  | .cXor d a => w 8 d a
  | .cAddi d a => w 9 d a
  | .cLi d a => w 10 d a
  | .cShli d a => w 11 d a
  | .cShrli d a => w 12 d a
  | .cBz d a => w 13 d a
  | .cBnz d a => w 14 d a
  | .cEnd => w 15 0 0
  | _ => none

/-- A MAKE or TREE word (R317). -/
def encodeMake (op : BitVec 8) (m : MakeWord) : BitVec 64 :=
  m.stile ++ m.dmod ++ m.dtile ++ m.width1 ++ m.minw1 ++ BitVec.ofBool m.span ++ m.rcore ++ m.rbob ++
    m.route ++ BitVec.ofBool m.rx ++ 0#8 ++ m.circuit ++ op

/-- A sequencer word (R317). -/
def encodeSeq (i : Instr) : Option (BitVec 64) :=
  match i with
  | .sequencerEnd => some 0#64
  | .sqAlign => some (0#56 ++ 1#8)
  | .sqPhase n => some (0#40 ++ n ++ 2#8)
  | .sqMake m => some (encodeMake 3#8 m)
  | .sqTree m => some (encodeMake 4#8 m)
  | .sqBreak c => some (0#48 ++ c ++ 5#8)
  | .sqPrep r => some (0#47 ++ r ++ 6#8)
  | .sqWait n => some (0#40 ++ n ++ 7#8)
  | .sqSigt sel tile core addend => some (0#8 ++ addend ++ core ++ tile ++ sel ++ 8#8)
  | .sqPausept => some (0#56 ++ 9#8)
  | .sqLoop n => some (0#40 ++ n ++ 10#8)
  | .sqNext => some (0#56 ++ 11#8)
  | .sqChunk c plan step => some (plan ++ step ++ 0#28 ++ c ++ 12#8)
  | _ => none

/-- The bytes of an instruction, its words in memory order (R101, R317); none for an event. -/
def encode (i : Instr) : Option (List Byte) :=
  match encode32 i with
  | some w => some (leBytes 4 w.toNat)
  | none => match encode16 i with
    | some w => some (leBytes 2 w.toNat)
    | none => (encodeSeq i).map (fun w => leBytes 8 w.toNat)

/-- How many bytes a stream's instruction word takes (R101): 2 for a compact form, else 4. -/
def Instr.size (i : Instr) : Nat := if (encode16 i).isSome then 2 else 4

end Sys2Proof
end

