-- ==== Sys2Proof/Machine/Table.lean ====
section
/-!
DEFINITION. Sparse tables: plain data for the numbered objects of the part.

A table lists (number, value) pairs, numbers strictly rising, no entry at its default, so that equal
tables are equal data.
-/
namespace Sys2Proof.Machine

/-- A sparse table. -/
abbrev Tab (α : Type) := List (Nat × α)

/-- The value at index `i`; `d` where nothing is listed. -/
def Tab.get {α : Type} (d : α) (i : Nat) : Tab α → α
  | [] => d
  | (j, v) :: r => if i = j then v else Tab.get d i r

/-- The table without index `i`. -/
def Tab.erase {α : Type} (i : Nat) (t : Tab α) : Tab α := t.filter (fun e => e.1 ≠ i)

/-- The table with (`i`, `v`) listed. -/
def Tab.insert {α : Type} (i : Nat) (v : α) : Tab α → Tab α
  | [] => [(i, v)]
  | (j, w) :: r =>
    if i < j then (i, v) :: (j, w) :: r else if i = j then (i, v) :: r else (j, w) :: Tab.insert i v r

/-- Index `i` set to `v`; the default is not listed. -/
def Tab.set {α : Type} [DecidableEq α] (d : α) (i : Nat) (v : α) (t : Tab α) : Tab α :=
  if v = d then Tab.erase i t else Tab.insert i v t

/-- The canonical form: indices strictly rising and no entry at the default. -/
abbrev Tab.wf {α : Type} [DecidableEq α] (d : α) (t : Tab α) : Prop :=
  (t.map (·.1)).Pairwise (· < ·) ∧ ∀ e ∈ t, e.2 ≠ d

/-- Lists of numbers as sets: strictly rising, no repeats. -/
def setInsert (i : Nat) : List Nat → List Nat
  | [] => [i]
  | j :: r => if i < j then i :: j :: r else if i = j then j :: r else j :: setInsert i r

/-- A number as a bit vector of another width, and the low bits of a word. -/
def bits (w : Word) (lo n : Nat) : Nat := (w.toNat / 2 ^ lo) % 2 ^ n

/-- Bit `i` of a number. -/
def bitN (v i : Nat) : Bool := (v / 2 ^ i) % 2 = 1

/-- The low `w` bits of a number read as signed (SExt of R64's helpers). -/
def sext (w : Nat) (v : Nat) : Int :=
  let m := v % 2 ^ w
  if w = 0 then 0 else if m < 2 ^ (w - 1) then (m : Int) else (m : Int) - (2 ^ w : Nat)

/-- An integer wrapped to `w` bits, as a number (WrapU). -/
def wrapU (w : Nat) (v : Int) : Nat := (v % ((2 ^ w : Nat) : Int)).toNat

/-- An integer as a 64-bit word. -/
def word (v : Int) : Word := BitVec.ofInt 64 v

end Sys2Proof.Machine
end

