-- ==== Sys2Proof/Machine/Memory.lean ====
section
/-!
DEFINITION. Memory: one list of (address, byte) pairs in canonical form.

Physical addresses of R334 stand at their own numbers below 2^52. The on-die SRAM has no physical
addresses (R334), so the model gives each memory of R328 a window of numbers above 2^52: window kind k
of unit u begins at 2^52 × (1 + k) + u × 2^32. An unlisted byte reads 0 (log 1; R28, R331 and R481 give
the zeros of the accumulators, new base-scratchpad bytes and the hub scratchpad).
-/
namespace Sys2Proof.Machine

/-- A byte store: (address, byte) pairs, addresses rising, no zero byte listed. -/
abbrev Memory := List Host.Cell

/-- The canonical form. -/
abbrev Memory.wf (m : Memory) : Prop := (m.map (·.1)).Pairwise (· < ·) ∧ ∀ e ∈ m, e.2 ≠ 0#8

/-- What an unlisted address reads as. -/
def Memory.unlisted : Byte := 0#8

/-- The byte at an address. -/
def Memory.readByte (m : Memory) (a : Nat) : Byte := Tab.get Memory.unlisted a m

/-- The cells of a run of bytes that are listed. -/
def Memory.cells (a : Nat) : List Byte → Memory
  | [] => []
  | b :: r => if b = Memory.unlisted then cells (a + 1) r else (a, b) :: cells (a + 1) r

/-- The `n` bytes at an address, lowest first. -/
def Memory.readBytes (m : Memory) (a n : Nat) : List Byte :=
  let w := m.filter (fun c => decide (a ≤ c.1) && decide (c.1 < a + n))
  (List.range n).map (fun i => Memory.readByte w (a + i))

/-- A run of bytes stored at an address. -/
def Memory.writeBytes (m : Memory) (a : Nat) (bs : List Byte) : Memory :=
  m.filter (fun c => decide (c.1 < a)) ++ Memory.cells a bs ++
    m.filter (fun c => decide (a + bs.length ≤ c.1))

/-- A little-endian number from bytes (R11). -/
def leNat : List Byte → Nat
  | [] => 0
  | b :: r => b.toNat + 256 * leNat r

/-- The `n`-byte little-endian number at an address. -/
def Memory.readNat (m : Memory) (a n : Nat) : Nat := leNat (m.readBytes a n)

/-- An `n`-byte little-endian number stored at an address. -/
def Memory.writeNat (m : Memory) (a n v : Nat) : Memory := m.writeBytes a (leBytes n v)

/-- `bits` bits of the store at bit address `bit` (element packing of R63: the first element of a byte in
its low bits). -/
def Memory.readBits (m : Memory) (bit w : Nat) : Nat :=
  let lo := bit / 8
  let n := (bit % 8 + w + 7) / 8
  (m.readNat lo n / 2 ^ (bit % 8)) % 2 ^ w

/-- `w` bits stored at bit address `bit`, other bits of their bytes kept (R170, R348). -/
def Memory.writeBits (m : Memory) (bit w v : Nat) : Memory :=
  let lo := bit / 8
  let n := (bit % 8 + w + 7) / 8
  let old := m.readNat lo n
  let s := 2 ^ (bit % 8)
  let keepHi := old / (s * 2 ^ w) * (s * 2 ^ w)
  m.writeNat lo n (old % s + (v % 2 ^ w) * s + keepHi)

/-- A zero run (R28, R331): the listed bytes of the range removed. -/
def Memory.zero (m : Memory) (a n : Nat) : Memory :=
  m.filter (fun c => !(decide (a ≤ c.1) && decide (c.1 < a + n)))

/-- Window kinds of the on-die SRAM (R328). -/
def kSlice : Nat := 0
/-- Core scratchpad (8 MiB). -/
def kScratch : Nat := 1
/-- Tile shared memory (32 MiB). -/
def kShared : Nat := 2
/-- Base scratchpad (R331). -/
def kBase : Nat := 3
/-- Accumulator rows, 8 × 512 KiB (R27). -/
def kAccum : Nat := 4
/-- Hub scratchpad (R447, 1 MiB). -/
def kHub : Nat := 5
/-- Weight-buffer bytes, one window a buffer: unit 2 × core key + buffer (R29, R275). -/
def kWeight : Nat := 6

/-- The number of byte `off` of unit `u` of an SRAM kind. -/
def sram (kind u off : Nat) : Nat := 2 ^ 52 * (1 + kind) + u * 2 ^ 32 + off

/-- The key of a core (R15): 8 × tile + core. -/
def coreKey (t c : Nat) : Nat := 8 * t + c
/-- The key of a slot. -/
def slotKey (t c k : Nat) : Nat := 4 * coreKey t c + k
/-- The key of a stream. -/
def streamKey (t c k f : Nat) : Nat := 5 * slotKey t c k + f

end Sys2Proof.Machine
end

