-- ==== Sys2Proof/Config.lean ====
section
/-!
DEFINITION. What the spec leaves open: free values and functions no rule computes.

Each constant is opaque: nothing in Lean can evaluate it, so a statement about a value it gives holds
whatever it is. The machine applies the free values to its counter of free values (log 5), so that each
use is fresh. The security functions are those R459, R462 and R416 to R418 name by standard and no rule
computes.
-/
namespace Sys2Proof

/-- A free 64-bit value (log 5). -/
opaque Config.freeWord : Nat → Word
/-- A free byte (log 5). -/
opaque Config.freeByte : Nat → Byte
/-- A free number (log 5). -/
opaque Config.freeNat : Nat → Nat
/-- Whether an Ed25519 signature over SHA-512 verifies: key digest or key, message, signature (R351, R459). -/
opaque Config.ed25519Ok : List Byte → List Byte → List Byte → Bool
/-- Whether a firmware image carries the fused key and a valid signature (R459); its security version and commit
flag, whose places in the image no rule gives; the version is a number from 0 to 63, as the counter is. -/
opaque Config.fwKeyOk : List Byte → Bool
opaque Config.fwSigOk : List Byte → Bool
opaque Config.fwVersion : List Byte → BitVec 6
opaque Config.fwCommit : List Byte → Bool
/-- A security configuration read from a SECCFG body, whose layout no rule gives (R462): whether it is well
formed, whether the owner root signed it, and its fields. -/
opaque Config.secOk : List Byte → Bool
opaque Config.secSigned : List Byte → List Byte → Bool
opaque Config.secRoot : List Byte → List Byte
opaque Config.secEndorsement : List Byte → List Byte
opaque Config.secAllowed : List Byte → Nat → List Nat
opaque Config.secLaunchKey : List Byte → Option (List Byte)
opaque Config.secLevels : List Byte → Nat
opaque Config.secWarn : List Byte → Nat
/-- Bytes of the journal and of the runtime log as R450 and R452 show them, whose layout no rule gives: of the
entries' fields in order. -/
opaque Config.journalByte : List Nat → Nat → Byte
opaque Config.logBytes : List Nat → List Byte
/-- The order of a core's block map, and the bytes of its packed register blocks (R377, R458): core, block. -/
opaque Config.blockAt : Nat → Nat → Nat
/-- A block map's bytes, and where a commit's map lies (R377): store, sequence number. -/
opaque Config.blockMap : List Nat → List Byte
opaque Config.mapAt : Nat → BitVec 32 → BitVec 32
opaque Config.packedByte : Nat → Nat → Nat → Byte
/-- Whether a transform that ends early counts its OUTSZ in bytes (R326): by its function. -/
opaque Config.outszInBytes : Nat → Bool
/-- The byte of an E8M0 element for a number that has no E8M0 encoding (R72): its sign and its magnitude m × 2^e. -/
opaque Config.e8m0Open : Bool → Nat → Int → Nat
/-- The capacity in bytes of the memory device on a module's CXL port, and which module has the bridge (R334, R336). -/
opaque Config.tierBytes : Nat → Nat → Nat
opaque Config.isBridge : Nat → Bool
/-- The session direction identifier towards a peer (R418). -/
opaque Config.sessionId : Nat → Nat
/-- The 256-bit identity seed fused at manufacture, HKDF-SHA-512 of a seed and a label (R461), the Ed25519 public key of a
private one, and the Ed25519 signature of a message with a private key. -/
opaque Config.identitySeed : BitVec 256
opaque Config.hkdf : BitVec 256 → List Byte → List Byte
opaque Config.publicKey : List Byte → List Byte
opaque Config.sign : List Byte → List Byte → List Byte
/-- The digests of the boot ROM and of a security configuration (R416): root, endorsement, allowed lists, launch key,
levels, warning threshold. -/
opaque Config.romDigest : Nat
opaque Config.secDigest : List Byte → List Byte → List (List Nat) → Option (List Byte) → Nat → Nat → Nat
/-- A digest of a message (SHA-512 or the digest R459, R462 and R416 name). -/
opaque Config.digest : List Byte → Nat

end Sys2Proof
end

