-- ==== Sys2Proof/Machine/State.lean ====
section
/-!
DEFINITION. The state of one module, as plain data, and its value at reset.

The levels are those of R15. Objects the part numbers (streams, slots, cores, tiles, circuits, endpoints,
sources) stand in sparse tables whose unlisted entries are at their reset value. Tile 16, core 0, slot 0 is
the thimble core (R447, R481).
-/
namespace Sys2Proof.Machine

/-- The block a stream is in (R114). -/
structure Block where
  header : Word
  start : Word
  stop : Word
  remaining : Nat
  wpeer : Nat
  ppeer : Nat
  deriving DecidableEq, Repr

/-- A wait a stream has armed (R140, R142, R148, R149, R153, R163). -/
inductive Wait where
  | semw (sel : Nat) (thr : BitVec 32) (d : Reg) (t : Tack)
  | semwa (win : Nat) (mask : Word) (thr : BitVec 32) (d : Reg) (t : Tack)
  | wfi (mask : Word) (fired : Bool)
  | rend (mask id : Nat) (t : Tack)
  | lining (n : Nat) (t : Tack)
  | until (stitch : Bool) (target : Nat) (t : Tack)
  | page (va : Nat)
  deriving DecidableEq, Repr

/-- One stream of a slot, or the supervisor's bank of one (R15, R17 to R19, R53, R114, R135). -/
structure Stream where
  /-- x1 to x63 (R17). -/
  x : Tab Word := []
  /-- Program counter (R18). -/
  pc : Word := 0
  /-- Block state (R114); none before the first header. -/
  block : Option Block := none
  /-- IMM of an EXT that applies to the next word (R105). -/
  ext : Option (BitVec 23) := none
  /-- FPFLAGS (R45). -/
  fpflags : BitVec 32 := 0
  /-- VLEN (R46). -/
  vlen : BitVec 32 := 0
  /-- The stream has executed END, or holds no task (R23, R139). -/
  ended : Bool := true
  /-- The wait it has armed. -/
  wait : Option Wait := none
  /-- The channels of pushes that wait for room, oldest first (R119, R135). -/
  push : List Nat := []
  /-- A handler has written this stream's PC register (R117). -/
  moved : Bool := false
  /-- The clock at which its present stall on a tack or REND began (R365). -/
  stalled : Option Nat := none
  /-- The clock since which it has been ready without issuing (R360). -/
  ready : Option Nat := none
  /-- Its place in round robin: the clock of its last issue (R141, R360). -/
  issued : Nat := 0
  /-- Its last turn found it stalled or waiting (R360). -/
  blocked : Bool := false
  deriving DecidableEq, Repr

/-- A handle register (R199); the default is the null handle (R20). -/
structure Handle where
  base : Nat := 0
  wstart : Nat := 0
  bound : Nat := 0
  type : Nat := 0
  space : Nat := 0
  ceil : Nat := 0
  pr : Bool := false
  pw : Bool := false
  pa : Bool := false
  rank : Nat := 0
  e0 : Nat := 0
  e1 : Nat := 0
  e2 : Nat := 0
  e3 : Nat := 0
  peer : Nat := 0
  ptile : Nat := 0
  ridx : Nat := 0
  deriving DecidableEq, Repr

/-- A trap event: cause code, the stream it names (none: 5), TINFO0 to TINFO3 (R39, R364). -/
structure Event where
  code : Nat
  stream : Nat := 5
  info0 : Word := 0
  info1 : Word := 0
  info2 : Word := 0
  info3 : Word := 0
  deriving DecidableEq, Repr

/-- The task a slot holds (R57 to R59): a number of its own, its walker record and iteration. -/
structure Task where
  id : Nat
  tile : Nat
  recIdx : Nat
  iter : Nat
  /-- The START whose record it is an iteration of (R358). -/
  gen : Nat := 0
  /-- Done semaphore: selector, core, increment. -/
  done : Option (Nat × Nat × BitVec 32)
  deriving DecidableEq, Repr

/-- Slot states (R23). -/
inductive SlotMode where
  | free
  | running
  | trapped
  | preempted
  deriving DecidableEq, Repr

/-- The trap and address registers of a slot (R35 to R41). -/
structure TrapRegs where
  torn : Bool := false
  resumed : Bool := false
  /-- TSTAT.PREQ. -/
  preq : Bool := false
  fstrm : Nat := 0
  pmode : Bool := false
  /-- TSTAT.MODE: the C stream runs in supervisor mode. -/
  super : Bool := false
  cause : BitVec 32 := 0
  tvec : Word := 0
  info0 : Word := 0
  info1 : Word := 0
  info2 : Word := 0
  info3 : Word := 0
  cap : Nat := 15
  eff : Nat := 0
  base : Nat := 0
  htbase : Word := 0
  htcnt : Nat := 0
  ctxbase : Word := 0
  /-- The C stream's resume address as the trap left it, once the handler has written PCC (R162). -/
  pcc : Option Word := none
  deriving DecidableEq, Repr

/-- A translation-cache entry (R344): the key's slot and handle (or class for fetches), page and leaf. -/
structure TcEntry where
  /-- Slot key × 64 + handle register, or 2^20 + class for instruction fetches, or 2^21 for the walker. -/
  key : Nat
  page : Nat
  leaf : Word
  size : Nat
  deriving DecidableEq, Repr

/-- An outstanding MGEMV (R292, R294), with the translations it was accepted with (R344). -/
structure Mgemv where
  id : Nat
  slot : Nat
  tile : Nat
  row : Nat
  n : Nat
  k : Nat
  pa : Nat
  pw : Nat
  zero : Bool
  vec : Handle
  vidx : Nat
  voff : Int
  mat : Handle
  midx : Nat
  offm : Nat
  tc : List TcEntry := []
  /-- It runs again after a pre-emption or a power loss, before the M stream issues (R295). -/
  rerun : Bool := false
  deriving DecidableEq, Repr

/-- A task slot (R15, R20 to R23). -/
structure Slot where
  mode : SlotMode := .free
  /-- Frozen: TRAPPED with nothing running (R368). -/
  frozen : Bool := false
  handles : Tab Handle := []
  /-- Tack counts by channel (R22). -/
  tack : Tab Nat := []
  regs : TrapRegs := {}
  /-- The supervisor bank with the handler's program counter and block (R53); zero before the first trap: DESIGN CHOICE,
  log 2. -/
  sup : Stream := { ended := false }
  /-- Waiting asynchronous events, oldest first, at most 8 (R364). -/
  fifo : List Event := []
  /-- Engine operations paused by a copy fault, in fault order (R370): engine and operation. -/
  faults : List (Eng × Nat) := []
  /-- The paused operation whose 0x0E has been delivered (R221). -/
  delivered : Option (Eng × Nat) := none
  task : Option Task := none
  /-- WSTAT.PSAVE (R374). -/
  psave : Bool := false
  /-- A PREEMPTED slot's halt: its stitch, and whether it was TRAPPED (R371, R373). -/
  halted : Option (Nat × Bool) := none
  /-- Poisoned granules its MGEMV operations have met since the last MGWT (R294). -/
  mgPoison : Nat := 0
  /-- MGEMV operations outstanding when it was halted for pre-emption (R295, R372). -/
  mgemv : List Mgemv := []
  deriving DecidableEq, Repr

/-- A semaphore: value and signaller (core, slot) when valid (R24, which gives no reset value: 0 and invalid are a DESIGN
CHOICE, log 2). -/
structure Sem where
  v : BitVec 32 := 0
  sig : Option (Nat × Nat) := none
  deriving DecidableEq, Repr

/-- A bobbin (R25; reset R214). `gen` counts its initialisations (R215, R225). -/
structure Bobbin where
  base : Nat := 0
  ssize : Nat := 64
  scount : Nat := 1
  head : BitVec 32 := 0
  claim : BitVec 32 := 0
  fill : BitVec 32 := 0
  pubv : BitVec 256 := 0
  gen : Nat := 0
  deriving DecidableEq, Repr

/-- What an accumulator tile holds beside its rows (R27, R28). Type 0x0B is WF32 (R61). -/
structure Accum where
  type : Nat := 0x0B
  statm : Tab (BitVec 32) := []
  statl : Tab (BitVec 32) := []
  stata : Tab (BitVec 32) := []
  ovf : BitVec 32 := 0
  deriving DecidableEq, Repr

/-- What a weight buffer has latched beside its bytes (R29, R275): type, plies, mode (0 none, 1 HI, 2 LO),
columns (no rule gives their number at reset; 512 is a DESIGN CHOICE, log 2), and the scale byte of each block of 48 of a PB operand (index column × 32 + block). -/
structure WBuf where
  type : Nat := 0
  pw : Nat := 4
  mode : Nat := 0
  nc : Nat := 512
  scales : Tab Nat := []
  deriving DecidableEq, Repr

/-- A matrix pass: an MMA or MMAZ whose rows are being streamed, or the progress record of an interrupted
one (R279 to R281). -/
structure Pass where
  /-- Slot key of the issuing M stream, and the instruction's address and W and P bits. -/
  slot : Nat
  addr : Word
  tack : Tack
  /-- Rows done. -/
  k : Nat
  tile : Nat
  row : Nat
  n : Nat
  /-- The activation handle's fields and the offset, in its unit. -/
  h : Handle
  hidx : Nat
  off : Int
  type : Nat
  pa : Nat
  zero : Bool
  deriving DecidableEq, Repr

/-- The matrix engine (R29). Scales, biases: FP32 bit patterns. -/
structure Matrix where
  wb0 : WBuf := {}
  wb1 : WBuf := {}
  /-- The active buffer is wb1. -/
  active : Bool := false
  fmtType : Nat := 0
  fmtPa : Nat := 4
  rowScale : Tab (BitVec 32) := []
  colScale : Tab (BitVec 32) := []
  bias : Tab (BitVec 32) := []
  /-- Progress record (R280). -/
  record : Option Pass := none
  /-- MSTAT's discard bit (R291). -/
  discarded : Bool := false
  /-- The pass in the array and the clock it started at (R287). -/
  running : Option (Pass × Nat) := none
  deriving DecidableEq, Repr

/-- A core's semaphores, bobbins, accumulators, matrix engine and configuration (R15). -/
structure Core where
  sems : Tab Sem := []
  bobbins : Tab Bobbin := []
  accums : Tab Accum := []
  matrix : Matrix := {}
  mshare : BitVec 32 := 0
  corecfg : BitVec 32 := 0
  lpcfg : BitVec 32 := 100
  lpseq : BitVec 32 := 0
  /-- Numbers of reductions sent, by source and home (R382). -/
  redSent : Tab (BitVec 32) := []
  deriving DecidableEq, Repr

/-- A store in a core's store buffer (R171, R195): the stream's number inside its core, the bit address in the one
memory, width and value. -/
structure StoreEntry where
  stream : Nat
  bit : Nat
  width : Nat
  value : Nat
  deriving DecidableEq, Repr

/-- An L1 line: line number (physical address / 64) and its bytes (R178, R328). -/
structure Line where
  num : Nat
  bytes : List Byte
  deriving DecidableEq, Repr

/-- A copy pattern (R218). -/
structure Pattern where
  cnt : List Nat
  sstr : List Int
  dstr : List Int
  type : Nat
  flags : Nat
  rop : Nat
  bob : Nat
  sh : Nat
  dh : Nat
  circ : Nat
  soff : Int
  doff : Int
  sfsel : Nat
  dvsel : Nat
  sfinc : BitVec 32
  dvinc : BitVec 32
  deriving DecidableEq, Repr

/-- The copy instructions (R227, R302). -/
inductive CopyKind where
  | cpy
  | cpyq
  | gath
  | scat
  | fill
  | fcpy
  | fred
  deriving DecidableEq, Repr

/-- An accepted engine copy (R218 to R229, R302 to R307). -/
structure CopyOp where
  id : Nat
  place : Place
  task : Nat
  kind : CopyKind
  pat : Pattern
  src : Handle
  dst : Handle
  /-- Scratchpad offset of the record; none for CPYQ. -/
  recOff : Option Nat
  /-- FILL's value, or the index array's scratchpad offset. -/
  arg : Nat
  /-- CPYW: selector and threshold it waits for (R229). -/
  armed : Option (Nat × BitVec 32) := none
  started : Bool := false
  /-- Bobbin slot claimed: claim number and the bobbin's initialisation count (R226). -/
  slot : Option (BitVec 32 × Nat) := none
  /-- Iterations whose writes are done: the prefix DONE counts. -/
  done : Nat := 0
  /-- Elements read and not yet written, from iteration `done` on, each with its destination position; none stands for a
  skipped one. -/
  held : List (Option (Nat × Int)) := []
  /-- Reductions it has sent, by home (R382). -/
  sent : Tab (BitVec 32) := []
  /-- Granules found poisoned under ZPOIS (R222). -/
  zeroed : List Nat := []
  /-- Bits of poisoned granules this copy has written (R347). -/
  cover : Tab Nat := []
  skipped : Bool := false
  freed : Bool := false
  /-- The fault it is paused by (R221). -/
  paused : Option Event := none
  /-- The address whose page's pending fault its next iteration waits on (R345). -/
  page : Option Nat := none
  /-- A fabric copy moves on its circuit alone (R303). -/
  waiting : Bool := false
  /-- Translations a fabric copy holds from its acceptance: 64 KiB page to physical page plus 1 (R302). -/
  pages : Tab Nat := []
  /-- The address of the first poisoned source element a fabric copy has met (R305). -/
  poisonAt : Option Word := none
  deriving DecidableEq, Repr

/-- A copy engine: its operations in order of acceptance, and the next operation's number. -/
structure Engine where
  ops : List CopyOp := []
  next : Nat := 0
  deriving DecidableEq, Repr

/-- What a core holds that is not lined with it as a register: caches, store buffer, engines, lining. -/
structure CoreAux where
  /-- Newest first. -/
  l1 : List Line := []
  stores : List StoreEntry := []
  mgemv : List Mgemv := []
  nextMg : Nat := 0
  /-- A lining point is requested and not captured (R380). -/
  liningAsked : Bool := false
  /-- Clock at which the periodic timer last fired (R44). -/
  timer : Nat := 0
  /-- Core clock cycles that CYCLE has not counted (R48). -/
  cycleBase : Nat := 0
  deriving DecidableEq, Repr

/-- A loop-nest record as the walker read it at START, with its progress (R353 to R357). -/
structure WalkRec where
  index : Nat
  rid : Nat
  serp : Bool
  perm : List Nat
  ext : List Nat
  cmask : Nat
  prio : Nat
  /-- Dependences: selector, core, threshold base, threshold step. -/
  deps : List (Nat × Nat × BitVec 32 × BitVec 32)
  entry : List Word
  done : Option (Nat × Nat × BitVec 32)
  next : Nat := 0
  retired : Nat := 0
  /-- Rejected by R354. -/
  bad : Bool := false
  deriving DecidableEq, Repr

/-- The graph walker and its registers (R352). -/
structure Walker where
  base : Word := 0
  cnt : Nat := 0
  run : Bool := false
  done : Bool := false
  cmderr : Bool := false
  /-- The command in progress, as WCMD was written (CMDBUSY). -/
  cmd : Option Word := none
  recs : List WalkRec := []
  /-- Number of STARTs since reset: the records are those of the last. -/
  gen : Nat := 0
  deriving DecidableEq, Repr

/-- A transform record in an engine's queue (R323, R326). -/
structure XfmOp where
  ticket : Nat
  place : Place
  task : Nat
  opc : Nat
  mode : Nat
  wsel : Nat
  ssel : Nat
  wthr : BitVec 32
  sinc : BitVec 32
  src : Handle
  dst : Handle
  sidx : Nat
  didx : Nat
  soff : Int
  doff : Int
  p0 : Nat
  p1 : Nat
  p2 : Nat
  recOff : Nat
  /-- Its comparison has held at some place since its acceptance (R326). -/
  passed : Bool := false
  started : Bool := false
  deriving DecidableEq, Repr

/-- A transform engine (R323, R327). `status`: the tickets it remembers, newest first. -/
structure Xfm where
  queue : List XfmOp := []
  accepted : BitVec 32 := 0
  ended : BitVec 32 := 0
  status : List (Nat × Nat) := []
  deriving DecidableEq, Repr

/-- A chunk as a rank holds it: 0 ORIGINAL, 1 PARTIAL, 2 FINAL; first rank and count of the ranks its
value covers (R315); and the value in staging, as one number of the chunk's elements (R413). -/
structure Chunk where
  state : Nat := 0
  first : Nat := 0
  ranks : Nat := 0
  value : Nat := 0
  /-- The destination holds the final value. -/
  written : Bool := false
  /-- Partials in staging that wait for their place in the order of R98, with the ranks they come from. -/
  parts : List (Nat × Nat) := []
  /-- The rank's partial of it has been sent. -/
  given : Bool := false
  deriving DecidableEq, Repr

/-- What the ranks of a collective must agree on (R315): OPK, TYPE, MODE, COUNT, ROOT. -/
structure CollSig where
  opk : Nat
  type : Nat
  tree : Bool
  rop : Nat
  count : Nat
  root : Nat
  deriving DecidableEq, Repr

/-- An accepted collective (R309 to R316). -/
structure CollOp where
  ticket : Nat
  place : Place
  task : Nat
  sig : CollSig
  group : Nat
  plan : Nat
  /-- Ranks, this rank, chunk count and steps of the plan (R311, R317). -/
  n : Nat
  rank : Nat
  nc : Nat
  planSteps : Nat
  src : Handle
  dst : Handle
  sidx : Nat
  didx : Nat
  soff : Int
  doff : Int
  csel : Nat
  cinc : BitVec 32
  aboff : Nat
  recOff : Nat
  /-- Bound to an instance of its plan (R320): that instance's number; steps completed (R316). -/
  bound : Bool := false
  inst : Nat := 0
  steps : Nat := 0
  chunks : Tab Chunk := []
  deriving DecidableEq, Repr

/-- The collective engine of a tile (R309). -/
structure Coll where
  ops : List CollOp := []
  count : BitVec 32 := 0
  /-- STATUS and steps of the tickets it remembers (R316), newest first; 0 while one has not ended. -/
  status : List (Nat × Nat × Nat) := []
  /-- Ended records whose values the plan's later steps still forward (R313). -/
  fin : List CollOp := []
  /-- Instances of each plan that have begun here, missed ones among them, and the step 0 words executed here (R320). -/
  insts : Tab Nat := []
  words : Tab Nat := []
  deriving DecidableEq, Repr

/-- A reduction on its way to its home (R211, R382). -/
structure Reduction where
  source : Nat
  home : Nat
  number : BitVec 32
  addr : Nat
  bit : Nat
  type : Nat
  rop : Nat
  value : Nat
  task : Nat
  place : Place
  /-- Virtual address for R212's report. -/
  va : Word
  space : Nat
  deriving DecidableEq, Repr

/-- A tile's own state (R15, R343, R352). -/
structure Tile where
  sems : Tab Sem := []
  ptroot : Word := 0
  tcache : List TcEntry := []
  busy : Bool := false
  /-- What the running invalidation covers: a page, or every one; and the tile copy engine's next number when it was
  issued (R302, R344). -/
  busyPage : Option Nat := none
  busyUpTo : Nat := 0
  /-- The size of the page it covers, as a power of two. -/
  busySize : Nat := 16
  /-- Pending-fault entries: page and its size as a power of two, slot whose fault took it (R345). -/
  pend : List (Nat × Nat × Nat) := []
  bsp : Nat := 0
  bspWant : Option Nat := none
  unc : BitVec 32 := 0
  cor : BitVec 32 := 0
  walker : Walker := {}
  /-- SUPSLOT (R352). -/
  supV : Bool := false
  supCore : Nat := 0
  supSlot : Nat := 0
  rdrop : BitVec 32 := 0
  /-- FRT bytes that differ from R366's resets. -/
  frt : Tab Nat := []
  copy : Engine := {}
  xfm0 : Xfm := {}
  xfm1 : Xfm := {}
  coll : Coll := {}
  /-- Ranges collectives have recorded for ACQ.R (R188). -/
  ranges : List (Nat × Nat × Nat) := []
  /-- Receive window table (R304). -/
  windows : Tab Handle := []
  reds : List Reduction := []
  /-- Highest number applied by source (R382): this tile's homes. -/
  applied : Tab (BitVec 32) := []
  /-- Far writes dropped by their window check (R304). -/
  fdrop : BitVec 32 := 0
  /-- Bits of poisoned granules that far copies have covered, by source × 2^46 + granule (R347). -/
  cover : Tab Nat := []
  /-- The compute die has power. -/
  powered : Bool := true
  /-- Power has been lost to a detect whose flush has not ended (R381). -/
  flushing : Bool := false
  /-- The clock at which the die lost power (R48). -/
  offAt : Nat := 0
  /-- TSEQ of the last tile-scope commit, and the number of captures made (R378). -/
  tseq : BitVec 32 := 0
  captures : Nat := 0
  deriving DecidableEq, Repr

/-- A captured core: what its lining holds (R56, R295, R377), with the poison marks of its memories. `seq` is
the number its commit carries. -/
structure CoreSnap where
  core : Core
  slots : Tab Slot
  streams : Tab Stream
  engine : Engine
  mgemv : List Mgemv
  mem : Memory
  poison : List Nat
  seq : BitVec 32
  stitch : Nat
  deriving DecidableEq, Repr

/-- Captured tile-scope lined state (R378); `stamp` numbers the tile's captures, `stitch` is the one it was taken in. -/
structure TileSnap where
  sems : Tab Sem
  walker : Walker
  supV : Bool
  supCore : Nat
  supSlot : Nat
  rdrop : BitVec 32
  frt : Tab Nat
  xfm0 : Xfm
  xfm1 : Xfm
  copy : Engine
  mem : Memory
  poison : List Nat
  stamp : Nat
  stitch : Nat
  deriving DecidableEq, Repr

/-- A commit record (R377, R378): its sequence number, the stitch of its capture, where its block map lies, the map (the
blocks whose committed contents are in their second copy), and whether the CRC-32C it carries is right. -/
structure CommitRecord where
  seq : BitVec 32
  stitch : Nat
  mapAt : BitVec 32
  map : List Nat
  good : Bool := true
  deriving DecidableEq, Repr

/-- A commit: its record, and what the copies that its block map names hold. -/
structure Commit (α : Type) where
  record : CommitRecord
  snap : α
  deriving DecidableEq, Repr

/-- The two commit-record places of a core or of a tile's shared memory (R377, R378). -/
structure Places (α : Type) where
  first : Option (Commit α) := none
  second : Option (Commit α) := none
  deriving DecidableEq, Repr

/-- A tile commit record (R378): LPSEQ of cores 0 to 7, TSEQ, the stitch of the capture, and whether its CRC-32C is
right. -/
structure TileRecord where
  lpseqs : List (BitVec 32)
  tseq : BitVec 32
  stitch : Nat
  good : Bool
  deriving DecidableEq, Repr

/-- A core's lining (R377 to R380): its commit records with what they commit, the memory contents the writer has
drained, the point captured and being drained with the tile-scope state captured beside it, and the 4 KiB blocks the
writer has still to write for it. -/
structure Lining where
  places : Places CoreSnap := {}
  work : Memory := []
  drain : Option CoreSnap := none
  shared : Option TileSnap := none
  left : List Nat := []
  deriving DecidableEq, Repr

/-- A tile's shared lining (R378): its commit records with what they commit, the shared memory the writers have
drained, the final flush's capture, and the tile commit record of the final flush. -/
structure TileLining where
  places : Places TileSnap := {}
  work : Memory := []
  drain : Option TileSnap := none
  flush : Option TileRecord := none
  deriving DecidableEq, Repr

/-- A pre-empted task whose context lies in memory (R372, R373): where its events go. -/
structure HeldTask where
  task : Nat
  tile : Nat
  area : Word
  deriving DecidableEq, Repr

/-- An event the part has started for itself and that is due later: the event row of the same name. -/
inductive Due where
  | copyStart (e : Eng) (id n : Nat)
  | copySourceFree (e : Eng) (id : Nat)
  | copyComplete (e : Eng) (id : Nat)
  | pendingTackPush (p : Place)
  | xfmRecordStart (tile eng : Nat)
  | xfmRecordEnd (tile eng : Nat)
  | mgemvComplete (tile core id : Nat)
  | reductionPerform (tile i : Nat)
  | walkerIterationStart (tile : Nat)
  | walkerCommand (tile : Nat)
  | asyncTrapDelivery (tile core slot : Nat)
  | taskEvent (tile task : Nat) (e : Event)
  | preemptHalt (tile core slot : Nat)
  | contextSaveComplete (tile core slot : Nat)
  | liningCapture (tile core : Nat)
  | writerDrain (tile core : Nat)
  | liningCommit (tile core : Nat)
  | finalFlushCommit (tile : Nat)
  | matrixPassComplete (tile core : Nat)
  | storePerformedAtHome (tile core i : Nat)
  | splitChange (tile : Nat)
  | invalidationComplete (tile : Nat)
  | fsigArrival (tile core sel : Nat) (addend : BitVec 32)
  | fabricWriteArrival (tile : Nat) (w : FarWrite)
  | chunkArrival (tile ticket chunk : Nat) (part : ChunkPart) (data : List Byte)
  | messageDelivery (c : Nat)
  | collectiveComplete (tile ticket : Nat)
  | collectiveAbort (tile ticket reason : Nat)
  | fastBringupEnd (near far : Nat)
  | fullTrainingEnd (near far : Nat)
  | lockEnd (ep : Nat)
  | trainEnd (ep : Nat)
  | keyUpdate (peer : Nat)
  | remakeService (peer : Nat)
  | laserLockEnd (src : Nat)
  | spareWavelengthMapping (ep wl : Nat)
  | spareSourceSwitch (src : Nat)
  | alignRelease
  | mailbox (op : Nat)
  | moduleReset
  | firmware (result : Option Nat)
  deriving DecidableEq, Repr

/-- Where an error that a code finds stands (R346): a granule of the one memory; an accumulator tile or the weight
buffers of a core; a slot's registers; or a tag of the caches a slot's access met. -/
inductive ErrorSite where
  | granule (g : Nat)
  | accum (tile core a : Nat)
  | weights (tile core : Nat)
  | registers (tile core slot : Nat)
  | tag (tile core slot : Nat)
  deriving DecidableEq, Repr

/-- A turn of the schedule (log 4): an engine of a core for some core cycles, an event of the outside, an error that
a read's code finds, three acts of the thimble core's firmware (it clears a peer's trust entry, R417; it runs a management
procedure with a handle table, R448; it takes a page's migration a step on, R350), an event the part has due, or time. -/
inductive Turn where
  | engine (p : Place) (cycles : Nat)
  | event (i : Instr)
  | error (site : ErrorSite) (kind : EccKind)
  | clearTrust (peer : Nat)
  | procedure (entry htbase : Word) (table : List Byte)
  | migrate (tile va ppn : Nat)
  | due (d : Due)
  | time (cycles : Nat)
  deriving DecidableEq, Repr

/-- Where an event for system software went (R367). -/
inductive Dest where
  | thimble
  | host
  | seq
  deriving DecidableEq, Repr

/-- An event handed to the thimble core, the host or the sequencer, with the tile and slot key it is about. -/
structure Report where
  dest : Dest
  event : Event
  tile : Nat
  slot : Nat
  deriving DecidableEq, Repr

/-- States of a circuit handle (R296). -/
inductive CircState where
  | idle
  | making
  | live
  | breaking
  | failed
  deriving DecidableEq, Repr

/-- A message of SEND (R299, R300), numbered by its circuit. -/
structure Message where
  seq : Nat
  payload : Word
  tag : Nat
  circ : Nat
  selfid : Nat
  deriving DecidableEq, Repr

/-- What a transfer carries (R388): a copy, a message, an FSIG, or a chunk of a collective step with its
value, once the rank has formed it. -/
inductive Cargo where
  | copy (tile id : Nat)
  | send (m : Message)
  | fsig (sel core : Nat) (addend : BitVec 32)
  | chunk (tile ticket : Nat) (sig : CollSig) (plan inst chunk : Nat) (part : ChunkPart) (value : Option Nat) (bytes : Nat)
  deriving DecidableEq, Repr

/-- A transfer active on a circuit (R388): the flits that have been performed and the phase it belongs to
(R320; none before it first moves data). -/
structure Transfer where
  cargo : Cargo
  place : Place
  task : Nat
  flits : Nat := 0
  phase : Option Nat := none
  /-- Its last flit has left: the stitch at which its last acknowledgement comes (R320, R389). -/
  acked : Option Nat := none
  /-- A copy's iterations by the stitches at which the acknowledgements of their flits come, newest first (R306). -/
  moved : List (Nat × Nat) := []
  deriving DecidableEq, Repr

/-- A circuit handle of the module (R296, R300, R317, R402 to R404). -/
structure Circuit where
  state : CircState := .idle
  /-- The word that last made it; whether that was TREE. -/
  word : Option MakeWord := none
  tree : Bool := false
  /-- Bonded ports it has: their places in the route, in order. -/
  ports : List Nat := []
  /-- Stitch of its word or of its break; the phase it was made in. -/
  since : Nat := 0
  phase : Option Nat := none
  /-- Failure found when it was made (R403), 0 for none; what its receivers measured. -/
  found : Nat := 0
  obs : Option MakeObs := none
  /-- Larger MINW of its ends (R404). -/
  minw : Nat := 0
  /-- Cause of its last failure (R316). -/
  cause : Nat := 0
  /-- The cause with which it becomes FAILED at the next stitch boundary (R394, R419). -/
  failing : Option Nat := none
  /-- It holds a tree slot (R409). -/
  slot : Bool := false
  /-- Credits, messages numbered so far, and the receive queue with the tile of each message (R300). -/
  credits : Nat := 16
  seq : Nat := 0
  queue : List (Nat × Message) := []
  transfers : List Transfer := []
  /-- Its place in the rotation of flits over transfers (R388). -/
  turn : Nat := 0
  /-- The stitch of its last flit, the flits that have left in that stitch, and all that have left (R386, R387). -/
  flitAt : Nat := 0
  flitUsed : Nat := 0
  flitNo : Nat := 0
  deriving DecidableEq, Repr

/-- A plan table entry (R317). -/
structure Plan where
  group : Nat
  tree : Bool
  nc : Nat
  steps : Nat
  deriving DecidableEq, Repr

/-- A route table entry (R400): KIND, PEER, near and far endpoints of its bonded ports. -/
structure Route where
  kind : Nat
  peer : Nat
  near : List Nat
  far : List Nat
  deriving DecidableEq, Repr

/-- The fabric sequencer (R317 to R321). -/
structure Sequencer where
  words : List Word := []
  /-- Leaf table: tile and module of each leaf. -/
  leaves : List (List (Nat × Nat)) := []
  plans : List Plan := []
  routes : List Route := []
  pc : Nat := 0
  running : Bool := false
  /-- It waits at ALIGN, or is stopped at a PAUSEPT. -/
  aligning : Bool := false
  paused : Bool := false
  /-- Stitch of the next word. -/
  nextAt : Nat := 0
  /-- Open loops, innermost first: index of the LOOP word and iterations left. -/
  loops : List (Nat × Nat) := []
  /-- The present phase: stitch of its PHASE word and its end; the number of phases opened; the stitch at
  which the last phase ended (R478). -/
  phase : Option (Nat × Nat) := none
  phases : Nat := 0
  lastEnd : Nat := 0
  pauseAsked : Bool := false
  deriving DecidableEq, Repr

/-- A port endpoint (R385, R391, R405, R468). -/
structure Endpoint where
  /-- 0 DARK, 1 TRAINING, 2 READY, 3 DOWN. -/
  state : Nat := 0
  /-- The source that feeds it when it is not floor(e / 28). -/
  src : Option Nat := none
  failwl : Nat := 0
  circ : Option Nat := none
  svc : Bool := false
  peermod : Nat := 0
  peerep : Nat := 0
  flight : Nat := 0
  sv : Bool := false
  spare : Nat := 0
  /-- The PBCMD command in progress: OP, WLM, FAREP. -/
  cmd : Option (Nat × Nat × Nat) := none
  locked : Nat := 0
  trained : Nat := 0
  err : Bool := false
  fail : Bool := false
  /-- Training cache: far endpoints, most recently used first. -/
  cache : List Nat := []
  /-- Background training, the one in progress first (R395, R396, R407, R408): far endpoint (its own number for a
  newly mapped lane, 2048 + source for a new source); full training; started by PREP. -/
  training : List (Nat × Bool × Bool) := []
  /-- Times of its tag failures in the last 125,000 stitches (R419). -/
  tags : List Nat := []
  /-- The wavelength last lost was lost at the receive side (R393, R424). -/
  lostRx : Bool := false
  /-- Flits sent while it was lit before, and the time in stitches since reset from which it is lit now (R386, R418). -/
  flits : Nat := 0
  litAt : Option Nat := none
  deriving DecidableEq, Repr

/-- A comb source (R390, R392, R467). States: 0 OFF, 1 LOCKED, 2 FAILED, 3 STANDBY. -/
structure Laser where
  en : Bool := false
  repl : Nat := 63
  pset : Nat := 140
  state : Nat := 0
  /-- SUBST when it is not its reset value. -/
  subst : Option Nat := none
  power : Nat := 0
  /-- The failed source a spare in standby has been told to take (R396). -/
  promised : Option Nat := none
  /-- It took its source by REPL (R467), which raises no 0x22. -/
  byRepl : Bool := false
  deriving DecidableEq, Repr

/-- A collective group (R411): tree slots reserved and its ranks' (tile, module). -/
structure CollGroup where
  tslots : Nat := 0
  ranks : List (Nat × Nat) := []
  deriving DecidableEq, Repr

/-- A link to a peer module (R417, R418, R420): trust 0 none, 1 TRUSTED, 2 PENDING, 3 REJECTED, with the
identity digest; whether the session's keys stand; key phase, and the time in stitches since reset at which the old key
stops being accepted; service port. -/
structure Link where
  trust : Nat := 0
  digest : Nat := 0
  keys : Bool := false
  phase : Bool := false
  oldUntil : Option Nat := none
  service : Option Nat := none
  /-- Key updates that its count of flits has called for (R418). -/
  updates : Nat := 0
  deriving DecidableEq, Repr

/-- A journal entry (R455): 0 NOTRUN, 1 STARTED, 2 DONE, 3 FAILED, 4 ALTERNATE; attempts; detail. -/
structure JournalEntry where
  state : Nat := 0
  attempts : Nat := 0
  detail : Nat := 0
  deriving DecidableEq, Repr

/-- The security configuration (R462). -/
structure SecConfig where
  root : List Byte := []
  endorsement : List Byte := []
  allowed1 : List Nat := []
  allowed2 : List Nat := []
  allowed3 : List Nat := []
  launchKey : Option (List Byte) := none
  levels : Nat := 0x5555
  warn : Nat := 0
  deriving DecidableEq, Repr

/-- The job that runs (R351): module mask, tiles involved, and whether its walkers have been started. -/
structure Job where
  mask : Nat
  tiles : List Nat
  started : Bool := false
  deriving DecidableEq, Repr

/-- The hub tile's management state (R447 to R469). -/
structure Hub where
  /-- Results of management procedures (R448), newest first. -/
  results : List Nat := []
  /-- The runtime log: cause and TEPC (R449, R455), newest first. -/
  log : List (Nat × Word) := []
  /-- The thimble core's log of routed events: tile and event (R367), newest first. -/
  routed : List (Nat × Event) := []
  /-- MBADDR, MBLEN, MBSTAT (R451). -/
  mbaddr : Nat := 0
  mblen : Nat := 0
  busy : Bool := false
  done : Bool := false
  code : Nat := 0
  detail : Nat := 0
  /-- MSI-X vectors fired (R423), newest first. -/
  msix : List Nat := []
  /-- The journal of this boot and of the last (R455), by step. -/
  journal : Tab JournalEntry := []
  lastBoot : Tab JournalEntry := []
  /-- BOOTSTAT (R457). -/
  step : Nat := 0
  outcome : Nat := 0
  ready : Bool := false
  fatal : Bool := false
  fenced : Nat := 0
  /-- Recovery mode (R460); an incomplete flash write (R465); the firmware image in the flash and the fused
  rollback counter (R459). -/
  recovery : Bool := false
  flash : List Byte := []
  torn : Bool := false
  rollback : BitVec 6 := 0
  /-- Cores whose lining failed its check, by core key (R454); bit p: CXL port p is not up (R454, R460). -/
  badCores : List Nat := []
  cxlDown : Nat := 0xFF
  /-- Certificate slot 0 and the signed measurements, as step 11 leaves them (R416, R461). -/
  chain : List (List Byte) := []
  answer : Option (Measurement × Nat) := none
  /-- ALMCFG, ALMSTAT (R464); temperature trip (R466); fabric halted by an alarm; identity seed (R463). -/
  levels : Nat := 0x5555
  seen : Nat := 0
  maxl : Nat := 0
  hot : Bool := false
  halted : Bool := false
  seedErased : Bool := false
  /-- An alarm of level 2 or 3 acts at the next stitch boundary (R463). -/
  alarm : Option Nat := none
  sec : SecConfig := {}
  /-- The post-mortem window shows the lining (R458); no launch has cleared it since the boot. -/
  window : Bool := false
  fresh : Bool := true
  job : Option Job := none
  /-- What the code scanner last answered for a page run it rejected: reason and halfword (R123). -/
  scan : Option (Nat × Nat) := none
  /-- Statuses of the groups of the last launch's manifest, newest first (R411). -/
  groupResults : List Nat := []
  /-- Accepted PREEMPTs: slot key and save area (R383). -/
  preempts : Tab Word := []
  /-- Steps whose failure a boot has recorded since the last CLEARJ: bit n (R456). -/
  failed : Nat := 0
  /-- The module has no power (R197). -/
  off : Bool := false
  deriving DecidableEq, Repr

/-- The state of the module. -/
structure State where
  streams : Tab Stream := []
  slots : Tab Slot := []
  cores : Tab Core := []
  aux : Tab CoreAux := []
  engines : Tab Engine := []
  tiles : Tab Tile := []
  linings : Tab Lining := []
  tileLinings : Tab TileLining := []
  mem : Memory := []
  /-- Poisoned granules (address / 64), rising (R346). -/
  poison : List Nat := []
  held : List HeldTask := []
  hub : Hub := {}
  seq : Sequencer := {}
  circuits : Tab Circuit := []
  eps : Tab Endpoint := []
  lasers : Tab Laser := []
  links : Tab Link := []
  groups : Tab CollGroup := []
  reports : List Report := []
  /-- Tasks started so far. -/
  tasks : Nat := 0
  /-- Core clock cycles since module reset (R4). -/
  clock : Nat := 0
  /-- Stitches the count has jumped forward (R399). -/
  jumped : Nat := 0
  /-- Module number (R47). -/
  module : Nat := 0
  /-- The model's own: the place whose instruction `exec` runs, and the schedule (log 4). -/
  cur : Place := ⟨0, 0, 0, 0⟩
  turns : List Turn := []
  /-- The model's own: the counter of free values (log 5). -/
  free : Nat := 0
  deriving DecidableEq, Repr

/-- Why the machine stops with a fault. Every constructor names a stop of the spec. -/
inductive Fault where
  /-- Raised by the step: the word at the program counter is one the code scanner rejects (R123), so the
  run-time decoder gives it no meaning (R124). Safe: such a word is never mapped executable. -/
  | unscanned
  deriving DecidableEq, Repr

/-- Why the machine refuses. -/
inductive Refusal where
  /-- Raised by `exec`'s arms alone, for an instruction that has no meaning yet. Safe. -/
  | notModelled (mnemonic : String)
  deriving DecidableEq, Repr

/-- The module right after reset. -/
def State.reset : State := {}

end Sys2Proof.Machine
end

