-- ==== Sys2Proof/Machine/Objects.lean ====
section
/-!
DEFINITION. The objects of the state and their accessors, the clocks, translation (R329 to R350) and the
fetch of code (R101, R118).
-/
namespace Sys2Proof

/-- The core of a place, as a key. -/
def Place.coreK (p : Place) : Nat := Machine.coreKey p.tile p.core
/-- The slot of a place. -/
def Place.slotK (p : Place) : Nat := Machine.slotKey p.tile p.core p.slot
/-- The stream of a place. -/
def Place.streamK (p : Place) : Nat := 5 * Machine.slotKey p.tile p.core p.slot + p.stream
/-- The number of a stream inside its core: 5 × slot + stream. -/
def Place.lane (p : Place) : Nat := 5 * p.slot + p.stream
/-- The thimble core's place (R447). -/
def Place.thimble (p : Place) : Bool := decide (p.tile = 16)

end Sys2Proof

namespace Sys2Proof.Machine

abbrev Out := Host.Outcome State Fault Refusal

/-! ## Objects -/

def State.stream (s : State) (k : Nat) : Stream := Tab.get {} k s.streams
def State.setStream (s : State) (k : Nat) (v : Stream) : State := { s with streams := Tab.set {} k v s.streams }
def State.slot (s : State) (k : Nat) : Slot := Tab.get {} k s.slots
def State.setSlot (s : State) (k : Nat) (v : Slot) : State := { s with slots := Tab.set {} k v s.slots }
def State.core (s : State) (k : Nat) : Core := Tab.get {} k s.cores
def State.setCore (s : State) (k : Nat) (v : Core) : State := { s with cores := Tab.set {} k v s.cores }
def State.auxOf (s : State) (k : Nat) : CoreAux := Tab.get {} k s.aux
def State.setAux (s : State) (k : Nat) (v : CoreAux) : State := { s with aux := Tab.set {} k v s.aux }
def State.tile (s : State) (t : Nat) : Tile := Tab.get {} t s.tiles
def State.setTile (s : State) (t : Nat) (v : Tile) : State := { s with tiles := Tab.set {} t v s.tiles }
def State.mySlot (s : State) : Slot := s.slot s.cur.slotK
def State.setMySlot (s : State) (v : Slot) : State := s.setSlot s.cur.slotK v
def State.myCore (s : State) : Core := s.core s.cur.coreK
def State.setMyCore (s : State) (v : Core) : State := s.setCore s.cur.coreK v
def State.myTile (s : State) : Tile := s.tile s.cur.tile
def State.setMyTile (s : State) (v : Tile) : State := s.setTile s.cur.tile v
def State.setRegs (s : State) (k : Nat) (r : TrapRegs) : State := s.setSlot k { s.slot k with regs := r }

/-- The slot's C stream runs in supervisor mode (R52). -/
def State.superAt (s : State) (p : Place) : Bool := (s.slot p.slotK).regs.super && decide (p.stream = 0)
/-- The stream's own state, or the supervisor bank (R53). -/
def State.at (s : State) (p : Place) : Stream :=
  if s.superAt p then (s.slot p.slotK).sup else s.stream p.streamK
def State.setAt (s : State) (p : Place) (v : Stream) : State :=
  if s.superAt p then s.setSlot p.slotK { s.slot p.slotK with sup := v } else s.setStream p.streamK v
/-- The executing stream. -/
def State.me (s : State) : Stream := s.at s.cur
def State.setMe (s : State) (v : Stream) : State := s.setAt s.cur v
/-- The executing stream is in supervisor mode. -/
def State.super (s : State) : Bool := s.superAt s.cur

/-- The address bits 55:`k` of a value (R37). -/
def addrBits (k : Nat) (v : Word) : Word := BitVec.ofNat 64 (v.toNat % 2 ^ 56 / 2 ^ k * 2 ^ k)

/-- A register of a stream; x0 reads zero (R17). -/
def Stream.getX (st : Stream) (r : Reg) : Word := if r = 0#6 then 0 else Tab.get 0 r.toNat st.x
/-- A register write; x0 discards it (R17, WriteX of R134). -/
def Stream.setX (st : Stream) (r : Reg) (v : Word) : Stream :=
  if r = 0#6 then st else { st with x := Tab.set 0 r.toNat v st.x }
def State.x (s : State) (r : Reg) : Word := s.me.getX r
def State.setX (s : State) (r : Reg) (v : Word) : State := s.setMe (s.me.setX r v)
/-- The handle register of the executing slot (R20). -/
def State.h (s : State) (r : Reg) : Handle := Tab.get {} r.toNat s.mySlot.handles

/-- The stitch count (R5, R48): 16 core cycles a stitch (R4), and the jumps of R399. -/
def State.stitch (s : State) : Nat := s.clock / 16 + s.jumped
/-- Stitches since reset, which no release of ALIGN moves. -/
def State.beat (s : State) : Nat := s.clock / 16
/-- CYCLE of a core (R48). -/
def State.cycle (s : State) (core : Nat) : Nat := s.clock - (s.auxOf core).cycleBase

/-- A fresh free value's number (log 5). -/
def State.tick (s : State) : State := { s with free := s.free + 1 }

/-! ## Physical memory and translation (R329 to R350) -/

/-- Sizes of the directly addressed spaces (R328, R329, R331). -/
def spaceSize (s : State) (tile space : Nat) : Nat :=
  match space with
  | 0 => 2 ^ 20
  | 1 => if tile = 16 then 2 ^ 20 else 2 ^ 23
  | 2 => if tile = 16 then 0 else 2 ^ 25
  | 3 => if tile = 16 then 0 else (s.tile tile).bsp * 2 ^ 24
  | _ => 0x1_0080_0000

/-- Where byte `off` of a directly addressed space stands in the one memory (R329, R481). -/
def spaceAddr (p : Place) (space off : Nat) : Nat :=
  match space with
  | 0 => sram kSlice p.coreK off
  | 1 => if p.tile = 16 then sram kHub 0 off else sram kScratch p.coreK off
  | 2 => sram kShared p.tile off
  | _ => sram kBase p.tile off

/-- The levels of a walk: the lowest VA bit indexed and the index width (R339). -/
def walkLevels : List (Nat × Nat) := [(46, 10), (33, 13), (29, 4), (21, 8), (16, 5)]

/-- A walk from a table's base: the leaf entry and the size of its page as a power of two (R339 to R341). -/
def walk (m : Memory) (va : Nat) : List (Nat × Nat) → Nat → Option (Word × Nat)
  | [], _ => none
  | (lo, n) :: rest, base =>
    let e := BitVec.ofNat 64 (m.readNat (base + 8 * ((va / 2 ^ lo) % 2 ^ n)) 8)
    if !e.getLsbD 63 then none
    else if e.getLsbD 62 then (if lo = 46 then none else some (e, lo))
    else walk m va rest (bits e 7 45 * 128)

/-- The address of the leaf entry at which a walk ends, beside what `walk` gives of it. -/
def leafAt (m : Memory) (va : Nat) : List (Nat × Nat) → Nat → Option (Nat × Word × Nat)
  | [], _ => none
  | (lo, n) :: rest, base =>
    let at_ := base + 8 * ((va / 2 ^ lo) % 2 ^ n)
    let e := BitVec.ofNat 64 (m.readNat at_ 8)
    if !e.getLsbD 63 then none
    else if e.getLsbD 62 then (if lo = 46 then none else some (at_, e, lo))
    else leafAt m va rest (bits e 7 45 * 128)

def leafR (e : Word) : Bool := e.getLsbD 57
def leafW (e : Word) : Bool := e.getLsbD 56
/-- PXX, read as 0 where PXW is also set (R341). -/
def leafX (e : Word) : Bool := e.getLsbD 55 && !e.getLsbD 56
def leafClass (e : Word) : Nat := bits e 52 3
def leafMig (e : Word) : Bool := e.getLsbD 58
def leafPacked (e : Word) : Bool := e.getLsbD 59
/-- Page ceiling: 0 UC, 1 WT, 2 C, 3 UC (R340). -/
def leafCeil (e : Word) : Nat := if bits e 60 2 = 3 then 0 else bits e 60 2
def leafNa (e : Word) : Bool := e.getLsbD 15
def leafPt (e : Word) : Bool := e.getLsbD 14
/-- The physical address of a virtual one through a leaf whose page is 2^sh bytes (R340). -/
def leafPa (e : Word) (sh va : Nat) : Nat := bits e 16 36 * 65536 / 2 ^ sh * 2 ^ sh + va % 2 ^ sh

/-- The entry a translation cache holds for a key and address. -/
def tcFind (key va : Nat) (l : List TcEntry) : Option TcEntry :=
  l.find? (fun e => decide (e.key = key) && decide (va / 2 ^ e.size = e.page))

/-- The translation of one address under a key of R344: the cached leaf, or a walk, which fills the cache. -/
def State.translate (s : State) (tile key va : Nat) : Option (Word × Nat) × State :=
  let t := s.tile tile
  match tcFind key va t.tcache with
  | some e => (some (e.leaf, e.size), s)
  | none =>
    if !t.ptroot.getLsbD 0 then (none, s)
    else match walk s.mem va walkLevels (bits t.ptroot 13 39 * 8192) with
      | none => (none, s)
      | some (e, sh) =>
        (some (e, sh), s.setTile tile { t with
          tcache := ({ key := key, page := va / 2 ^ sh, leaf := e, size := sh } :: t.tcache).take 4096 })

/-- What an access does to a page. -/
inductive Access where
  | read
  | write
  | atomic
  | reduce
  | copyWrite (rop : Bool)
  deriving DecidableEq, Repr

def Access.reads : Access → Bool
  | .read | .atomic => true
  | _ => false
def Access.writes : Access → Bool
  | .read => false
  | _ => true

/-- Whether a page denies an access: PXR, PXW (R341), PACKED (R349), and the near-memory rule of R335. -/
def pageDenies (a : Access) (near : Bool) (tile : Nat) (e : Word) (pa : Nat) : Bool :=
  (a.reads && !leafR e) || (a.writes && !leafW e) ||
  (leafPacked e && (match a with | .read => false | .copyWrite rop => rop | _ => true)) ||
  (near && decide (pa / 2 ^ 36 ≠ tile))

/-- The outcome of a translated run: segments of the one memory (address, length) with their leaves; a
fault code at a virtual address; or a wait on a pending fault or a migration (R345, R350). -/
inductive Xlat where
  | ok (segs : List (Nat × Nat)) (leaf : Word)
  | fault (code va : Nat)
  | hold
  deriving DecidableEq, Repr

/-- Two parts of one access (R200): any page not mapped comes before any page that denies, and both before a wait. -/
def Xlat.join : Xlat → Xlat → Xlat
  | .fault 3 v, _ => .fault 3 v
  | _, .fault 3 v => .fault 3 v
  | .fault c v, _ => .fault c v
  | _, .fault c v => .fault c v
  | .hold, _ => .hold
  | _, .hold => .hold
  | .ok a l, .ok b _ => .ok (a ++ b) l

/-- A translated run by pages of 64 KiB: `fuel` pieces from `va`. -/
def State.xlate (tile key : Nat) (a : Access) (near : Bool) :
    Nat → State → Nat → Nat → Xlat × State
  | 0, s, _, _ => (.ok [] 0, s)
  | fuel + 1, s, va, n =>
    let len := min n (65536 - va % 65536)
    match s.translate tile key va with
    | (none, s1) => (.fault 3 va, s1)
    | (some (e, sh), s1) =>
      let pa := leafPa e sh va
      let here : Xlat :=
        if pageDenies a near tile e pa then .fault 4 va else if leafMig e && a.writes then .hold else .ok [(pa, len)] e
      if n ≤ len then (here, s1)
      else
        let r := State.xlate tile key a near fuel s1 ((va + len) % 2 ^ 56) (n - len)
        (here.join r.1, r.2)

/-- The size of the page an address lies in, as a power of two: its leaf's, or 64 KiB where it is not mapped
(DESIGN CHOICE, log 33). -/
def State.pageSize (s : State) (tile va : Nat) : Nat :=
  let t := s.tile tile
  if !t.ptroot.getLsbD 0 then 16 else ((walk s.mem va walkLevels (bits t.ptroot 13 39 * 8192)).map (·.2)).getD 16

/-- A pending-fault entry's page holds an address. -/
def pendHas (va : Nat) (e : Nat × Nat × Nat) : Bool := decide (va / 2 ^ e.2.1 = e.1)

/-- A fault from a walk meets the pending-fault entries (R345): one delivery a page. -/
def State.pageFault (s : State) (p : Place) (va : Nat) : Bool × State :=
  let t := s.tile p.tile
  if t.pend.any (pendHas va) then (false, s)
  else if t.pend.length < 32 then
    let sh := s.pageSize p.tile va
    (true, s.setTile p.tile { t with pend := t.pend ++ [(va / 2 ^ sh, sh, p.slotK)] })
  else (true, s)

/-- A stream's fault from a walk: delivered, or the stream waits on the page's entry (R345). -/
def State.streamFault (s : State) (p : Place) (va : Nat) : Bool × State :=
  let r := s.pageFault p va
  (r.1, if r.1 then r.2 else r.2.setAt p { r.2.at p with wait := some (.page va) })
/-- A pending-fault entry covers an address (R345). -/
def State.pagePending (s : State) (tile va : Nat) : Bool := (s.tile tile).pend.any (pendHas va)
/-- The stream at `p` waits on the entry of a page that has not been released (R345). -/
def State.pageHeld (s : State) (p : Place) : Bool := match (s.at p).wait with | some (.page va) => s.pagePending p.tile va | _ => false
/-- A wait on a released page is over: the access walks again (R345). -/
def State.endPageWait (s : State) (p : Place) : State :=
  match (s.at p).wait with
  | some (.page _) => s.setAt p { s.at p with wait := none }
  | _ => s

/-- Whether any granule of the segments is poisoned (R346), and the first that is. -/
def poisonIn (s : State) (segs : List (Nat × Nat)) : Option Nat :=
  s.poison.find? (fun g => segs.any (fun e => decide (e.1 / 64 ≤ g) && decide (g * 64 < e.1 + e.2)))

/-- The bytes of the segments. -/
def readSegs (m : Memory) (segs : List (Nat × Nat)) : List Byte :=
  segs.flatMap (fun e => m.readBytes e.1 e.2)

/-- Bytes stored over the segments in order. -/
def writeSegs : Memory → List (Nat × Nat) → List Byte → Memory
  | m, [], _ => m
  | m, (a, n) :: r, bs => writeSegs (m.writeBytes a (bs.take n)) r (bs.drop n)

/-- The outcome of fetching `n` bytes of code for a class. -/
inductive Fetched where
  | ok (bs : List Byte)
  | fault (code : Nat)
  deriving DecidableEq, Repr

/-- A fetch of `n` bytes for a stream class (R101, R118, R335, R341): 0x03, 0x04 or 0x05. -/
def State.fetchBytes (s : State) (tile cls : Nat) : Nat → Nat → Fetched × State
  | _, 0 => (.ok [], s)
  | va, n + 1 =>
    match s.translate tile (2 ^ 20 + cls) va with
    | (none, s1) => (.fault 3, s1)
    | (some (e, sh), s1) =>
      let pa := leafPa e sh va
      if !(leafX e && decide (leafClass e = cls)) || (decide (tile < 16) && decide (pa / 2 ^ 36 ≠ tile)) then (.fault 4, s1)
      else if s1.poison.contains (pa / 64) then (.fault 5, s1)
      else match State.fetchBytes s1 tile cls ((va + 1) % 2 ^ 56) n with
        | (.ok bs, s2) => (.ok (s1.mem.readByte pa :: bs), s2)
        | r => r

/-- A word's bytes at an address: two or four (R101). -/
def State.fetchWord (s : State) (tile cls va : Nat) : Fetched × State :=
  match s.fetchBytes tile cls va 2 with
  | (.ok [b0, b1], s1) =>
    if b0.getLsbD 0 then
      match s1.fetchBytes tile cls ((va + 2) % 2 ^ 56) 2 with
      | (.ok bs, s2) => (.ok (b0 :: b1 :: bs), s2)
      | r => r
    else (.ok [b0, b1], s1)
  | r => r

/-- Whether fetched bytes are a block header: BLK or BLKX (R115). -/
def isHeader : List Byte → Bool
  | b0 :: b1 :: _ => b0.getLsbD 0 && (let op := (half16 b0 b1).extractLsb' 1 8; decide (op = 1#8) || decide (op = 2#8))
  | _ => false

end Sys2Proof.Machine
end

