-- ==== Sys2Proof/Machine/Numbers.lean ====
section
/-!
DEFINITION. Exact arithmetic, element types, formats, rounding and the fixed orders (R60 to R78, R94 to
R98, R100).

A value is a NaN, an infinity or a signed m × 2^e. Every conversion rounds the exact value once.
Flags are FPFLAGS bits: NX 1, UF 2, OF 4, DZ 8, NV 16, SAT 32 (R45).
-/
namespace Sys2Proof.Machine

def fNX : Nat := 1
def fUF : Nat := 2
def fOF : Nat := 4
def fDZ : Nat := 8
def fNV : Nat := 16
def fSAT : Nat := 32

/-- A value in pseudocode arithmetic (R60): a NaN, an infinity, or (−1)^neg × m × 2^e. -/
inductive Num where
  | nan
  | inf (neg : Bool)
  | fin (neg : Bool) (m : Nat) (e : Int)
  deriving DecidableEq, Repr

/-- An integer as a value. -/
def Num.ofInt (v : Int) : Num := .fin (decide (v < 0)) v.natAbs 0
/-- A dyadic v × 2^e. -/
def Num.dy (v : Int) (e : Int) : Num := .fin (decide (v < 0)) v.natAbs e

/-! ## Element types (R61 to R63) -/

/-- Width of a type code in bits; 0 for a reserved code. -/
def typeWidth (t : Nat) : Nat :=
  match t with
  | 0 | 4 | 0x0C | 0x0D | 0x0F => 8
  | 1 | 5 | 8 | 9 => 16
  | 2 | 6 | 0x0A | 0x0B => 32
  | 3 | 7 => 64
  | 0x0E | 0x10 | 0x11 => 4
  | 0x12 | 0x13 => 2
  | t => if 0x18 ≤ t ∧ t ≤ 0x1F then 2 * (t - 0x17) else 0

def isPB (t : Nat) : Bool := decide (0x18 ≤ t) && decide (t ≤ 0x1F)
/-- Number of plies of a PB type. -/
def pbPlies (t : Nat) : Nat := t - 0x17
def isSigned (t : Nat) : Bool := decide (t ≤ 3) || decide (t = 0x10) || decide (t = 0x12)
def isUnsigned (t : Nat) : Bool := (decide (4 ≤ t) && decide (t ≤ 7)) || decide (t = 0x11) || decide (t = 0x13)
def isInt (t : Nat) : Bool := isSigned t || isUnsigned t
/-- Types whose unit is one element rather than one byte (R198). -/
def elemUnit (t : Nat) : Bool :=
  decide (t = 0x0E) || (decide (0x10 ≤ t) && decide (t ≤ 0x13)) || isPB t
/-- Least and greatest value of an integer type. -/
def intLo (t : Nat) : Int := if isSigned t then -(2 ^ (typeWidth t - 1) : Nat) else 0
def intHi (t : Nat) : Int :=
  if isSigned t then (2 ^ (typeWidth t - 1) : Nat) - 1 else (2 ^ typeWidth t : Nat) - 1
/-- An integer element read from its bits. -/
def intOf (t v : Nat) : Int := if isSigned t then sext (typeWidth t) v else ((v % 2 ^ typeWidth t : Nat) : Int)

/-! ## Integer helpers (R64) -/

def sat (x lo hi : Int) : Int := if x < lo then lo else if x > hi then hi else x
def satS (x : Int) (w : Nat) : Int := sat x (-(2 ^ (w - 1) : Nat)) ((2 ^ (w - 1) : Nat) - 1)
def satU (x : Int) (w : Nat) : Int := sat x 0 ((2 ^ w : Nat) - 1)
/-- Quotient rounded toward zero; the corners of R64. -/
def divT (a b : Int) (w : Nat) (signed : Bool) : Int :=
  if b = 0 then (2 ^ w : Nat) - 1
  else if signed && decide (a = -(2 ^ (w - 1) : Nat)) && decide (b = -1) then -(2 ^ (w - 1) : Nat)
  else a.tdiv b
/-- Remainder of `divT`; a for b = 0, 0 in the signed overflow case (R64). -/
def remT (a b : Int) (w : Nat) (signed : Bool) : Int :=
  if b = 0 then a
  else if signed && decide (a = -(2 ^ (w - 1) : Nat)) && decide (b = -1) then 0
  else a.tmod b
def rotl (x n : Nat) : Nat := (x * 2 ^ n) % 2 ^ 32 + x / 2 ^ (32 - n)

/-! ## Formats (R65 to R74) -/

/-- A floating-point format: exponent bits, fraction bits, bias. `kind` 0: IEEE; 1: E4M3 (no infinity);
2: E2M1 (no infinity, no NaN); 3: WF32 (no subnormals). -/
structure Fmt where
  eb : Nat
  fb : Nat
  bias : Nat
  kind : Nat := 0
  deriving DecidableEq, Repr

def fp32 : Fmt := ⟨8, 23, 127, 0⟩
def fp16 : Fmt := ⟨5, 10, 15, 0⟩
def bf16 : Fmt := ⟨8, 7, 127, 0⟩
def wf32 : Fmt := ⟨10, 21, 511, 3⟩
def e4m3 : Fmt := ⟨4, 3, 7, 1⟩
def e5m2 : Fmt := ⟨5, 2, 15, 0⟩
def e2m1 : Fmt := ⟨2, 1, 1, 2⟩

/-- The format of a floating-point type code. -/
def fmtOf (t : Nat) : Option Fmt :=
  match t with
  | 0x08 => some fp16
  | 0x09 => some bf16
  | 0x0A => some fp32
  | 0x0B => some wf32
  | 0x0C => some e4m3
  | 0x0D => some e5m2
  | 0x0E => some e2m1
  | _ => none

def Fmt.width (f : Fmt) : Nat := 1 + f.eb + f.fb
/-- Canonical NaN (R67); 0 for E2M1 (R71). -/
def Fmt.nan (f : Fmt) : Nat :=
  match f.kind with
  | 1 => 0x7F
  | 2 => 0
  | 3 => 0x7FF00000
  | _ => (2 ^ f.eb - 1) * 2 ^ f.fb + 2 ^ (f.fb - 1)
def Fmt.hasInf (f : Fmt) : Bool := decide (f.kind = 0) || decide (f.kind = 3)
/-- Largest finite magnitude as m × 2^e. -/
def Fmt.max (f : Fmt) : Nat × Int :=
  match f.kind with
  | 1 => (14, 5)
  | 2 => (3, 1)
  | _ => (2 ^ (f.fb + 1) - 1, (f.bias : Int) - f.fb)
/-- Exponent of the smallest normal value. -/
def Fmt.emin (f : Fmt) : Int := 1 - (f.bias : Int)

/-- The value of an encoding. -/
def Fmt.decode (f : Fmt) (v : Nat) : Num :=
  let neg := bitN v (f.eb + f.fb)
  let E := (v / 2 ^ f.fb) % 2 ^ f.eb
  let M := v % 2 ^ f.fb
  if (f.kind = 0 ∨ f.kind = 3) ∧ E = 2 ^ f.eb - 1 then (if M = 0 then .inf neg else .nan)
  else if f.kind = 1 ∧ E = 15 ∧ M = 7 then .nan
  else if E = 0 then (if f.kind = 3 then .fin neg 0 0 else .fin neg M (f.emin - f.fb))
  else .fin neg (2 ^ f.fb + M) ((E : Int) - f.bias - f.fb)

def signBit (f : Fmt) (neg : Bool) : Nat := if neg then 2 ^ (f.eb + f.fb) else 0
def Fmt.infBits (f : Fmt) (neg : Bool) : Nat := signBit f neg + (2 ^ f.eb - 1) * 2 ^ f.fb

/-- Encode n × 2^q, n below 2^(fb+1), exponent in range. -/
def Fmt.encode (f : Fmt) (neg : Bool) (n : Nat) (q : Int) : Nat :=
  if n < 2 ^ f.fb then signBit f neg + n
  else signBit f neg + (q + f.fb + f.bias).toNat * 2 ^ f.fb + (n - 2 ^ f.fb)
def Fmt.maxBits (f : Fmt) (neg : Bool) : Nat := f.encode neg f.max.1 f.max.2

/-- Whether m1 × 2^e1 < m2 × 2^e2. -/
def magLt (m1 : Nat) (e1 : Int) (m2 : Nat) (e2 : Int) : Bool :=
  let lo := min e1 e2
  decide (m1 * 2 ^ (e1 - lo).toNat < m2 * 2 ^ (e2 - lo).toNat)

/-- m × 2^e rounded to a multiple of 2^q under a mode (R75, R78): the multiple, and whether it moved. -/
def roundMag (mode : Nat) (neg : Bool) (rnd : Nat) (m : Nat) (e q : Int) : Nat × Bool :=
  if q ≤ e then (m * 2 ^ (e - q).toNat, false)
  else
    let d := (q - e).toNat
    let n := m / 2 ^ d
    let r := m % 2 ^ d
    if r = 0 then (n, false)
    else
      let half := 2 ^ (d - 1)
      let up : Bool :=
        match mode with
        | 1 => false
        | 2 => neg
        | 3 => !neg
        | 4 => decide (half ≤ r)
        | 5 => if neg then decide ((2 ^ d - r) * 2 ^ 32 / 2 ^ d ≤ rnd) else decide (rnd < r * 2 ^ 32 / 2 ^ d)
        | _ => decide (half < r) || (decide (r = half) && decide (n % 2 = 1))
      (if up then n + 1 else n, true)

/-- Exponent of the leading bit. -/
def ilog (m : Nat) (e : Int) : Int := (Nat.log2 m : Int) + e

/-- Cvt (R76): the encoding and the flags. -/
def cvt (f : Fmt) (x : Num) (mode : Nat) (satOvf : Bool) (rnd : Nat := 0) : Nat × Nat :=
  match x with
  | .nan => (f.nan, if f.kind = 2 then fNV else 0)
  | .inf neg => if f.hasInf && !satOvf then (f.infBits neg, 0) else (f.maxBits neg, fSAT + fNX)
  | .fin neg m e =>
    if m = 0 then (signBit f neg, 0)
    else
      let lg := ilog m e
      let qn := lg - f.fb
      let q := if f.kind = 3 then qn else max qn (f.emin - f.fb)
      let r := roundMag mode neg rnd m e q
      let un := roundMag mode neg rnd m e qn
      let tiny := magLt un.1 qn 1 f.emin
      let nx := if r.2 then fNX else 0
      if magLt f.max.1 f.max.2 r.1 q then
        if f.hasInf && !satOvf then
          let up : Bool := match mode with | 1 => false | 2 => neg | 3 => !neg | _ => true
          (if up then f.infBits neg else f.maxBits neg, fOF + fNX)
        else (f.maxBits neg, fOF + fNX + fSAT)
      else if f.kind = 3 ∧ magLt r.1 q 1 f.emin then (signBit f neg, fUF + fNX)
      else
        let fl := nx + (if tiny && r.2 then fUF else 0)
        if r.1 = 2 ^ (f.fb + 1) then (f.encode neg (r.1 / 2) (q + 1), fl) else (f.encode neg r.1 q, fl)

/-- A value rounded to an integer under a mode. -/
def roundInt (mode : Nat) (rnd : Nat) (neg : Bool) (m : Nat) (e : Int) : Int × Bool :=
  let r := roundMag mode neg rnd m e 0
  (if neg then -(r.1 : Int) else r.1, r.2)

/-- CvtI (R77): the integer delivered, as bits of the type, and the flags. -/
def cvtI (t : Nat) (x : Num) (mode : Nat) (rnd : Nat := 0) : Nat × Nat :=
  let w := typeWidth t
  match x with
  | .nan => (0, fNV)
  | .inf neg => (wrapU w (if neg then intLo t else intHi t), fNV + fSAT + fNX)
  | .fin neg m e =>
    let r := roundInt mode rnd neg m e
    let n := sat r.1 (intLo t) (intHi t)
    if n = r.1 then (wrapU w n, if r.2 then fNX else 0) else (wrapU w n, fNV + fSAT + fNX)

/-- The value of an element of a type from its bits (PB types excepted). E8M0 is 2^(X − 127). -/
def valueOf (t v : Nat) : Num :=
  match fmtOf t with
  | some f => f.decode v
  | none => if t = 0x0F then (if v = 255 then .nan else .fin false 1 ((v : Int) - 127)) else Num.ofInt (intOf t v)

/-- Cvt to E8M0 (R72, R76): a power of two from 2^-127 to 2^127, without zero, sign or infinity. A number below them has
no encoding, and its byte is open (log 39). -/
def cvtE8M0 (x : Num) (mode rnd : Nat) : Nat × Nat :=
  match x with
  | .nan => (0xFF, 0)
  | .inf true => (Config.e8m0Open true 0 0 % 256, fNX)
  | .inf false => (0xFE, fSAT + fNX)
  | .fin neg m e =>
    let lg := ilog m e
    let r := roundMag mode neg rnd m e lg
    let k := if r.1 = 2 then lg + 1 else lg
    if neg ∨ m = 0 ∨ k < -127 then (Config.e8m0Open neg m e % 256, fNX)
    else if 127 < k then (0xFE, fOF + fSAT + fNX)
    else ((k + 127).toNat, if r.2 then fNX else 0)

/-- A value converted to an element of a type: CvtI for integer types, else Cvt. -/
def cvtTo (t : Nat) (x : Num) (mode : Nat) (satOvf : Bool) (rnd : Nat := 0) : Nat × Nat :=
  match fmtOf t with
  | some f => cvt f x mode satOvf rnd
  | none => if t = 0x0F then cvtE8M0 x mode rnd else cvtI t x mode rnd

/-! ## Exact operations on values, with NV for an invalid operation (R65, R68) -/

def Num.neg : Num → Num
  | .nan => .nan
  | .inf n => .inf (!n)
  | .fin n m e => .fin (!n) m e
def Num.abs : Num → Num
  | .nan => .nan
  | .inf _ => .inf false
  | .fin _ m e => .fin false m e
def Num.isNan : Num → Bool
  | .nan => true
  | _ => false

/-- A finite value as an integer at scale 2^lo. -/
def finAt (neg : Bool) (m : Nat) (e lo : Int) : Int :=
  let v : Int := m * 2 ^ (e - lo).toNat
  if neg then -v else v

/-- The exact sum. `rdn`: an exact cancellation gives −0 (R65). -/
def Num.add (rdn : Bool) (a b : Num) : Num × Bool :=
  match a, b with
  | .nan, _ | _, .nan => (.nan, false)
  | .inf n, .inf m => if n = m then (.inf n, false) else (.nan, true)
  | .inf n, _ | _, .inf n => (.inf n, false)
  | .fin n1 m1 e1, .fin n2 m2 e2 =>
    let lo := min e1 e2
    let v := finAt n1 m1 e1 lo + finAt n2 m2 e2 lo
    if v = 0 then (.fin (if m1 = 0 ∧ m2 = 0 ∧ n1 = n2 then n1 else rdn) 0 0, false)
    else (Num.dy v lo, false)

/-- The exact product. -/
def Num.mul (a b : Num) : Num × Bool :=
  match a, b with
  | .nan, _ | _, .nan => (.nan, false)
  | .inf n, .inf m => (.inf (n != m), false)
  | .inf n, .fin m k _ | .fin m k _, .inf n => if k = 0 then (.nan, true) else (.inf (n != m), false)
  | .fin n1 m1 e1, .fin n2 m2 e2 => (.fin (n1 != n2) (m1 * m2) (e1 + e2), false)

/-- a × b + c exactly. -/
def Num.fma (rdn : Bool) (a b c : Num) : Num × Bool :=
  let p := a.mul b
  let r := p.1.add rdn c
  (r.1, p.2 || r.2)

/-- Numeric comparison: a < b, with −0 below +0 when `zeros` (R96). NaN compares false. -/
def Num.lt (zeros : Bool) (a b : Num) : Bool :=
  match a, b with
  | .nan, _ | _, .nan => false
  | .inf n, .inf m => n && !m
  | .inf n, _ => n
  | _, .inf m => !m
  | .fin n1 m1 e1, .fin n2 m2 e2 =>
    let lo := min e1 e2
    let x := finAt n1 m1 e1 lo
    let y := finAt n2 m2 e2 lo
    decide (x < y) || (zeros && decide (x = 0) && decide (y = 0) && n1 && !n2)

/-- One rounding of an exact result to a format; WF32 always rounds as RoundWF (R74). -/
def roundTo (f : Fmt) (mode : Nat) (r : Num × Bool) : Nat × Nat :=
  let c := cvt f r.1 (if f.kind = 3 then 0 else mode) false
  (c.1, c.2 ||| (if r.2 then fNV else 0))

/-- Add, Sub, Mul and FMA of R65 on encodings: result and flags. -/
def fAdd (f : Fmt) (mode a b : Nat) : Nat × Nat :=
  roundTo f mode ((f.decode a).add (decide (mode = 2) && decide (f.kind ≠ 3)) (f.decode b))
def fSub (f : Fmt) (mode a b : Nat) : Nat × Nat :=
  roundTo f mode ((f.decode a).add (decide (mode = 2) && decide (f.kind ≠ 3)) (f.decode b).neg)
def fMul (f : Fmt) (mode a b : Nat) : Nat × Nat := roundTo f mode ((f.decode a).mul (f.decode b))
def fFma (f : Fmt) (mode a b c : Nat) : Nat × Nat :=
  roundTo f mode (Num.fma (decide (mode = 2) && decide (f.kind ≠ 3)) (f.decode a) (f.decode b) (f.decode c))

/-- AddWF of an accumulator encoding and an exact value (R74, R91). -/
def addWF (acc : Nat) (v : Num) : Nat := (roundTo wf32 0 ((wf32.decode acc).add false v)).1

/-- Floating minimum or maximum (R96): NaN if either is. -/
def fMin (f : Fmt) (a b : Nat) : Nat :=
  let x := f.decode a
  let y := f.decode b
  if x.isNan || y.isNan then f.nan else if y.lt true x then (cvt f y 0 false).1 else (cvt f x 0 false).1
def fMax (f : Fmt) (a b : Nat) : Nat :=
  let x := f.decode a
  let y := f.decode b
  if x.isNan || y.isNan then f.nan else if x.lt true y then (cvt f y 0 false).1 else (cvt f x 0 false).1

/-! ## Fixed orders (R95, R97, R98) -/

/-- One level of TreeSum: neighbours combined. -/
def pairUp {α : Type} (op : α → α → α) : List α → List α
  | a :: b :: r => op a b :: pairUp op r
  | l => l
/-- TreeSum over a list whose length is a power of two (R95), by levels. -/
def treeSum {α : Type} (op : α → α → α) (ident : α) : Nat → List α → α
  | 0, l => l.headD ident
  | n + 1, l => match l with
    | [] => ident
    | [a] => a
    | l => treeSum op ident n (pairUp op l)
/-- ScanInc (R97) over (lane active, value). -/
def scanInc {α : Type} (op : α → α → α) : α → List (Bool × α) → List α
  | _, [] => []
  | acc, (act, v) :: r =>
    let acc' := if act then op acc v else acc
    acc' :: scanInc op acc' r

/-! ## CG8 (R100) -/

/-- One round and the next round's keys. -/
def cg8Round (s : Nat × Nat × Nat × Nat × Nat × Nat) : Nat × Nat × Nat × Nat × Nat × Nat :=
  let (k0, k1, c0, c1, c2, c3) := s
  let a := (c0 + c3 + k0) % 2 ^ 32
  let b := (c2 + c1 + k1) % 2 ^ 32
  let g := Nat.xor (rotl c1 13) a
  let h := Nat.xor (rotl c3 24) b
  ((k0 + 0xA3B195E7) % 2 ^ 32, (k1 + 0x4D2C6F83) % 2 ^ 32, b, h, a, g)
/-- CG8: four 32-bit words after eight rounds. -/
def cg8 (k0 k1 c0 c1 c2 c3 : Nat) : Nat × Nat × Nat × Nat :=
  let r := cg8Round (cg8Round (cg8Round (cg8Round (cg8Round (cg8Round (cg8Round (cg8Round (k0, k1, c0, c1, c2, c3))))))))
  (r.2.2.1, r.2.2.2.1, r.2.2.2.2.1, r.2.2.2.2.2)

/-! ## Block quantisation (R94) -/

/-- ChooseX: 255 when a value is NaN or infinite. -/
def chooseX (vs : List Num) : Nat :=
  if vs.any (fun v => match v with | .fin _ _ _ => false | _ => true) then 255
  else
    let lg := vs.foldl (fun (acc : Option Int) v =>
      match v with
      | .fin _ m e => if m = 0 then acc else some (max (acc.getD (ilog m e)) (ilog m e))
      | _ => acc) none
    match lg with
    | none => 0
    | some l => if l + 128 < 0 then 0 else min (l + 128).toNat 254
/-- One element's mantissa under a scale: its value, whether it was clamped, whether it is inexact. -/
def quantLane (X q mode : Nat) (v : Num) (rnd : Nat) : Int × Bool × Bool :=
  match v with
  | .fin neg m e =>
    let r := roundInt mode rnd neg m (e - ((X : Int) - 127 - (2 * (q : Int) - 1)))
    let n := satS r.1 (2 * q)
    (n, decide (n ≠ r.1), r.2 || decide (n ≠ r.1))
  | _ => (0, false, false)
/-- QuantBlock: scale byte, mantissas, number of clamps. `round` supplies an element's rounding (R94 uses
RNE; an entry that names another mode passes it with its random word). -/
def quantBlock (vs : List Num) (q : Nat) (mode : Nat) (rnds : List Nat) : Nat × List Int × Nat :=
  let X := chooseX vs
  if X = 255 then (255, vs.map (fun _ => 0), 0)
  else
    let ms := (vs.zip (rnds ++ List.replicate vs.length 0)).map (fun (v, rnd) => quantLane X q mode v rnd)
    (X, ms.map (·.1), ms.countP (·.2.1))
/-- Whether QuantBlock delivers a mantissa other than its element's exact value. -/
def quantNX (vs : List Num) (q : Nat) (mode : Nat := 0) (rnds : List Nat := []) : Bool :=
  let X := chooseX vs
  decide (X ≠ 255) && (vs.zip (rnds ++ List.replicate vs.length 0)).any (fun (v, rnd) => (quantLane X q mode v rnd).2.2)

end Sys2Proof.Machine
end

