-- ==== Sys2Proof/Machine/Plies.lean ====
section
/-!
DEFINITION. The memory seen through a handle, element packing, and the ply-block layout (R63, R79 to R88,
R192, R198, R199, R219).
-/
namespace Sys2Proof.Machine

/-- The memory behind a handle: whose core and tile, the translation key, the space and BASE. -/
structure View where
  place : Place
  key : Nat
  space : Nat
  base : Nat
  deriving DecidableEq, Repr

/-- The translation-cache key of a slot's handle register (R344). -/
def handleKey (slot hidx : Nat) : Nat := slot * 64 + hidx
/-- The view of handle register `hidx` of a slot; the thimble core's spaces 2 and 3 are those of the
handle's PTILE (R481). -/
def Handle.view (h : Handle) (p : Place) (hidx : Nat) : View :=
  ⟨if p.tile = 16 ∧ (h.space = 2 ∨ h.space = 3) then { p with tile := h.ptile } else p,
    handleKey p.slotK hidx, h.space, h.base⟩

/-- Spaces addressed directly (R329). -/
def direct (space : Nat) : Bool := decide (space ≤ 3) || decide (space = 9)

/-- The segments of `n` bytes at byte `off` past BASE, for memory already checked. -/
def State.segs (s : State) (v : View) (off n : Nat) : List (Nat × Nat) :=
  if direct v.space then [(spaceAddr v.place v.space (v.base + off), n)]
  else match State.xlate v.place.tile v.key .read false (n / 65536 + 2) s ((v.base + off) % 2 ^ 56) n with
    | (.ok segs _, _) => segs
    | _ => match State.xlate v.place.tile v.key (.copyWrite false) false (n / 65536 + 2) s ((v.base + off) % 2 ^ 56) n with
      | (.ok segs _, _) => segs
      | _ => []

/-- Bytes through a view. -/
def State.rd (s : State) (v : View) (off n : Nat) : List Byte := readSegs s.mem (s.segs v off n)
/-- Bytes stored through a view. -/
def State.wr (s : State) (v : View) (off : Nat) (bs : List Byte) : State :=
  { s with mem := writeSegs s.mem (s.segs v off bs.length) bs }
/-- `w` bits at bit `bit` past BASE. -/
def State.rdBits (s : State) (v : View) (bit w : Nat) : Nat :=
  leNat (s.rd v (bit / 8) ((bit % 8 + w + 7) / 8)) / 2 ^ (bit % 8) % 2 ^ w
/-- `w` bits stored at bit `bit` past BASE, other bits kept (R170, R348). -/
def State.wrBits (s : State) (v : View) (bit w x : Nat) : State :=
  let n := (bit % 8 + w + 7) / 8
  let old := leNat (s.rd v (bit / 8) n)
  let k := 2 ^ (bit % 8)
  s.wr v (bit / 8) (leBytes n (old % k + (x % 2 ^ w) * k + old / (k * 2 ^ w) * (k * 2 ^ w)))

/-- Bits of element `i` of type width `w` of a handle's window: bit address past BASE (R198, R219). -/
def Handle.elemBit (h : Handle) (w : Nat) (i : Int) : Int :=
  if elemUnit h.type then (h.wstart + i) * w else h.wstart * 8 + i * w

/-! ## The ply-block layout (R84 to R86) -/

/-- The group count of a PB handle (R84, R338). -/
def Handle.groups (h : Handle) : Nat :=
  let e (k v : Nat) : Nat := if k < h.rank then v else 1
  (e 3 h.e3 * e 2 h.e2 * e 1 h.e1 * e 0 h.e0 + 767) / 768
/-- S0, the size of the scale slab (R85). -/
def scaleSlab (g : Nat) : Nat := 64 * ((16 * g + 63) / 64)

/-- A ply group: the sixteen scale bytes, and for each ply sixteen 96-bit block records. -/
structure Group where
  scales : List Nat
  plies : List (List Nat)
  deriving DecidableEq, Repr

/-- The byte ranges of the leading `p` plies of group `g` (offset past BASE, length). -/
def groupRanges (G g p : Nat) : List (Nat × Nat) :=
  (16 * g, 16) :: (List.range p).map (fun k => (scaleSlab G + 192 * G * k + 192 * g, 192))

/-- Records of 12 bytes as numbers. -/
def recs12 : Nat → List Byte → List Nat
  | 0, _ => []
  | n + 1, bs => leNat (bs.take 12) :: recs12 n (bs.drop 12)

/-- The leading `p` plies of group `g`, read whole (R192). -/
def State.readGroup (s : State) (v : View) (G g p : Nat) : Group :=
  { scales := (s.rd v (16 * g) 16).map BitVec.toNat
    plies := (List.range p).map (fun k => recs12 16 (s.rd v (scaleSlab G + 192 * G * k + 192 * g) 192)) }

/-- Granules that segments cover whole lose their poison (R347). -/
def State.clearPoison (s : State) (segs : List (Nat × Nat)) : State :=
  { s with poison := s.poison.filter (fun g => !segs.any (fun e => decide (e.1 ≤ 64 * g) && decide (64 * g + 64 ≤ e.1 + e.2))) }

/-- A group written as one unit: its scale bytes and its plies from 0 (R192, R347). -/
def State.writeGroup (s : State) (v : View) (G g : Nat) (gr : Group) : State :=
  let s1 := s.wr v (16 * g) (gr.scales.map (fun x => BitVec.ofNat 8 x))
  (gr.plies.zipIdx).foldl (fun s (r, k) =>
    let o := scaleSlab G + 192 * G * k + 192 * g
    (s.wr v o (r.flatMap (fun n => leBytes 12 n))).clearPoison (s.segs v o 192)) s1

/-- Element `j`'s two bits of a 96-bit record (R85). -/
def plyBits (n j : Nat) : Nat := n / 4 ^ j % 4
/-- The mantissas of block `b` at the plies a group holds: m_p (R80, R81). -/
def Group.mants (gr : Group) (b : Nat) : List Int :=
  (List.range 48).map (fun j =>
    let raw := gr.plies.foldl (fun acc r => acc * 4 + plyBits (r.getD b 0) j) 0
    sext (2 * gr.plies.length) raw)
/-- The scale byte of block `b`. -/
def Group.scale (gr : Group) (b : Nat) : Nat := gr.scales.getD b 0

/-- A group from sixteen blocks of scale and 48 mantissas of 2q bits. -/
def Group.ofBlocks (q : Nat) (bl : List (Nat × List Int)) : Group :=
  { scales := bl.map (·.1)
    plies := (List.range q).map (fun k =>
      bl.map (fun b => (b.2.zipIdx).foldl (fun acc (m, j) => acc + (wrapU (2 * q) m / 4 ^ (q - 1 - k) % 4) * 4 ^ j) 0)) }

/-- Plies a read of p of q fetches under a mode (R82): 0 TRN, 1 RHU, others RNE. -/
def pliesFetched (mode p q : Nat) : Nat := if p = q then q else match mode with | 0 => p | 1 => p + 1 | _ => q

/-- RoundNE of m / 4^d. -/
def rne4 (m : Int) (d : Nat) : Int :=
  (roundInt 0 0 (decide (m < 0)) m.natAbs (-(2 * (d : Int)))).1

/-- The mantissa delivered at p plies from the one fetched, and whether it was clamped (R82, R83). -/
def deliver (mode p q : Nat) (m : Int) : Int × Bool :=
  if p = q then (m, false)
  else match mode with
    | 0 => (m, false)
    | 1 => let n := (m + 2).fdiv 4; (satS n (2 * p), decide (satS n (2 * p) ≠ n))
    | _ => let n := rne4 m (q - p); (satS n (2 * p), decide (satS n (2 * p) ≠ n))

/-- The value of a mantissa of 2p bits under scale X (R79, R81). -/
def pbValue (X p : Nat) (m : Int) : Num :=
  if X = 255 then .nan else Num.dy m ((X : Int) - 127 - (2 * (p : Int) - 1))

/-- The position of unit u of a PB window (R199): its index in the region. -/
def Handle.region (h : Handle) (u : Nat) : Nat := h.wstart + u

end Sys2Proof.Machine
end

