-- ==== Sys2Proof/Machine/Array.lean ====
section
/-!
DEFINITION. Accumulator tiles, operand blocks of 48, and the rows of a matrix pass (R27, R88 to R93, R241,
R271, R275, R279).
-/
namespace Sys2Proof.Machine

/-! ## Accumulator tiles (R27) -/

/-- Byte `off` of row `row` of accumulator tile `a` of a core. -/
def accAddr (core a row off : Nat) : Nat := sram kAccum core (a * 2 ^ 19 + row * 2048 + off)
def Core.accum (c : Core) (a : Nat) : Accum := Tab.get {} a c.accums
def Core.setAccum (c : Core) (a : Nat) (v : Accum) : Core := { c with accums := Tab.set {} a v c.accums }
/-- Lanes of a tile by its declared type (R27). -/
def lanesOf (type : Nat) : Nat := 16384 / max 1 (typeWidth type)
/-- The lanes of a row, as encodings of width `w`. -/
def State.getRow (s : State) (core a row w : Nat) : List Nat :=
  let bs := s.mem.readBytes (accAddr core a row 0) 2048
  (List.range (16384 / w)).map (fun i => leNat ((bs.drop (i * (w / 8))).take (w / 8)))
/-- A row written from lane 0: lanes past the list keep their values. -/
def State.setRow (s : State) (core a row w : Nat) (ls : List Nat) : State :=
  { s with mem := s.mem.writeBytes (accAddr core a row 0) (ls.flatMap (fun v => leBytes (w / 8) v)) }
def State.getLane (s : State) (core a row w i : Nat) : Nat := s.mem.readNat (accAddr core a row (i * (w / 8))) (w / 8)
def State.setLane (s : State) (core a row w i v : Nat) : State :=
  { s with mem := s.mem.writeNat (accAddr core a row (i * (w / 8))) (w / 8) v }

/-! ## Operand blocks (R88, R271, R275) -/

/-- The implied scale of an integer type of width 2q (R271). -/
def impliedX (type : Nat) : Nat := 127 + typeWidth type - 1
/-- Plies of a matrix operand type. -/
def opPlies (type : Nat) : Nat := if isPB type then pbPlies type else typeWidth type / 2
/-- The types a matrix operand may have (R271). -/
def matrixType (type : Nat) : Bool :=
  isPB type || decide (type = 0) || decide (type = 1) || decide (type = 0x10) || decide (type = 0x12)

/-- `n` blocks of 48 integer elements of width `w`, from bit `r` of the bytes, at the leading `p` plies (R271). -/
def intBlocks (w p r : Nat) : Nat → List Byte → List (Nat × List Int)
  | 0, _ => []
  | n + 1, bs =>
    let raw := leNat (bs.take (6 * w + 1)) / 2 ^ r
    (126 + w, (List.range 48).map (fun j => (sext w (raw / 2 ^ (w * j) % 2 ^ w)).fdiv (2 ^ (w - 2 * p) : Nat))) ::
      intBlocks w p r n (bs.drop (6 * w))

/-- First block, and number of blocks, of `cnt` elements of a PB operand from element `e` past offset `off`. -/
def Handle.firstBlock (h : Handle) (off : Int) (e : Nat) : Nat := (h.wstart + off + e).toNat / 48
/-- First bit of an integer operand's element `e` past offset `off`, past BASE. -/
def Handle.intBit (h : Handle) (off : Int) (e : Nat) : Nat :=
  let w := typeWidth h.type
  ((h.wstart + off) * (if elemUnit h.type then w else 8 : Nat)).toNat + e * w

/-- The blocks of 48 of `cnt` elements from element `e` past offset `off` of an operand: scale byte and
mantissas at the leading `p` plies, TRN. -/
def State.blocks48 (s : State) (v : View) (h : Handle) (off : Int) (e cnt p : Nat) : List (Nat × List Int) :=
  let nb := cnt / 48
  if isPB h.type then
    let b0 := h.firstBlock off e
    let gs := (List.range ((b0 % 16 + nb + 15) / 16)).flatMap (fun i =>
      let g := s.readGroup v h.groups (b0 / 16 + i) p
      (List.range 16).map (fun b => (g.scale b, g.mants b)))
    (gs.drop (b0 % 16)).take nb
  else
    let w := typeWidth h.type
    let bit := h.intBit off e
    intBlocks w p (bit % 8) nb (s.rd v (bit / 8) ((bit % 8 + cnt * w + 7) / 8))

/-- The dot product of two blocks (R89). -/
def dot48 (a b : List Int) : Int := ((a.zip b).map (fun (x, y) => x * y)).foldl (· + ·) 0

/-- The scaled product of two blocks (R90): NaN when either scale is 255. -/
def blockProduct (xa xw pa pw : Nat) (d : Int) : Num :=
  if xa = 255 ∨ xw = 255 then .nan
  else Num.dy d ((xa : Int) + xw - 254 - (2 * (pa : Int) - 1) - (2 * (pw : Int) - 1))

/-! ## Weight buffers (R29, R275) -/

/-- Stacking of a buffer: 4 for 2-bit, 2 for 4-bit, else 1 (R274). -/
def WBuf.stack (b : WBuf) : Nat := if b.pw = 1 then 4 else if b.pw = 2 then 2 else 1
/-- Effective depth (R274). -/
def WBuf.depth (b : WBuf) : Nat := 384 * b.stack
/-- Bit address of weight (c, k) in the buffer's bytes (log 6: 384 bytes a column, 8/s bits a weight). -/
def wbAddr (core : Nat) (second : Bool) : Nat := sram kWeight (2 * core + (if second then 1 else 0)) 0
/-- pw as R90 takes it: 8 for the low pass of a 16-bit weight. -/
def WBuf.pwE (b : WBuf) : Nat := if b.mode = 2 then 8 else b.pw
/-- Scale byte of block `blk` of column `c`. -/
def WBuf.scale (b : WBuf) (c blk : Nat) : Nat :=
  if isPB b.type then Tab.get 0 (c * 32 + blk) b.scales else if c < b.nc then impliedX b.type else 0
/-- The 48 mantissas of block `blk` of column `c`. -/
def State.weights (s : State) (core : Nat) (second : Bool) (b : WBuf) (c blk : Nat) : List Int :=
  let w := 8 / b.stack
  let raw := s.mem.readNat (wbAddr core second + c * 384 + blk * 6 * w) (6 * w)
  (List.range 48).map (fun j =>
    let v := raw / 2 ^ (w * j) % 2 ^ w
    if b.mode = 2 then (v : Int) else sext w v)

def Matrix.activeBuf (m : Matrix) : WBuf := if m.active then m.wb1 else m.wb0
def Matrix.idleBuf (m : Matrix) : WBuf := if m.active then m.wb0 else m.wb1

/-- One accumulation (R91, R279): tile type I32 wraps, WF32 rounds once. -/
def accumulate (i32 : Bool) (first : Bool) (acc : Nat) (p : Num) : Nat :=
  if i32 then
    let v : Int := match p with | .fin neg m e => finAt neg m e 0 | _ => 0
    wrapU 32 (if first then v else acc + v)
  else if first then (roundTo wf32 0 (p, false)).1 else addWF acc p

/-- One row of a pass: the new lanes 0 to NC − 1. -/
def State.passRow (s : State) (p : Place) (ps : Pass) (i : Nat) : State :=
  let core := p.coreK
  let mx := (s.core core).matrix
  let b := mx.activeBuf
  let i32 := decide (((s.core core).accum ps.tile).type = 2)
  let v := ps.h.view p ps.hidx
  let acts := s.blocks48 v ps.h ps.off (i * b.depth) b.depth ps.pa
  let old := s.getRow core ps.tile (ps.row + i) 32
  let new := (List.range b.nc).map (fun c =>
    (acts.zipIdx).foldl (fun acc (a, k) =>
      accumulate i32 (ps.zero && decide (k = 0)) acc
        (blockProduct a.1 (b.scale c k) ps.pa b.pwE (dot48 a.2 (s.weights core mx.active b c k)))) (old.getD c 0))
  s.setRow core ps.tile (ps.row + i) 32 new

/-- Rows `k` to `k + cnt − 1` of a pass (R279). -/
def State.passRows (s : State) (p : Place) (ps : Pass) (k cnt : Nat) : State :=
  (List.range cnt).foldl (fun s i => s.passRow p ps (k + i)) s

end Sys2Proof.Machine
end

