-- ==== Sys2Proof/Machine/Ops.lean ====
section
/-!
DEFINITION. The named operations over the state: tacks, asynchronous events and their routing, completing
an instruction, interrupting a matrix pass, taking an exception, and `issue`, which every instruction's
meaning goes through (W pop, EXT, program counter, P push, trap). ERET, the return, is in System.lean.
-/
namespace Sys2Proof.Machine

/-! ## Tacks (R22, R119, R121, R144) -/

/-- Peer `j` of stream `f`: the other streams in order, `f` left out (R119). -/
def peer (f j : Nat) : Nat := if j < f then j else j + 1
/-- The index of `g` as seen from `f`. -/
def peerIndex (f g : Nat) : Nat := if g < f then g else g - 1
/-- The channel from `pusher` to `receiver` (R22). -/
def channel (pusher receiver : Nat) : Nat := 4 * pusher + peerIndex pusher receiver
def Slot.tackCount (k : Slot) (c : Nat) : Nat := Tab.get 0 c k.tack
def Slot.addTack (k : Slot) (c n : Nat) : Slot := { k with tack := Tab.set 0 c (k.tackCount c + n) k.tack }
def Slot.takeTack (k : Slot) (c n : Nat) : Slot := { k with tack := Tab.set 0 c (k.tackCount c - n) k.tack }
/-- Pending pushes performed in order while their channels have room (R119, R135): those left, and the slot. -/
def Slot.pushAll : List Nat → Slot → List Nat × Slot
  | [], k => ([], k)
  | c :: r, k => if k.tackCount c < 16 then Slot.pushAll r (k.addTack c 1) else (c :: r, k)
/-- The channel a W bit pops: from WPEER of the block to the stream (R119). -/
def wChannel (f : Nat) (st : Stream) : Nat := channel (peer f ((st.block.map (·.wpeer)).getD 0)) f
/-- The channel a P bit pushes. -/
def pChannel (f : Nat) (st : Stream) : Nat := channel f (peer f ((st.block.map (·.ppeer)).getD 0))

/-- A slot's place from its key. -/
def placeOfSlot (k f : Nat) : Place := ⟨k / 32, k / 4 % 8, k % 4, f⟩

/-! ## Semaphores and lending (R24, R145, R148, R361) -/

/-- A semaphore's home: core `core` of `tile` for 0 to 63, the tile for 256 to 511. -/
def State.sem (s : State) (tile core sel : Nat) : Sem :=
  if sel < 64 then Tab.get {} sel (s.core (coreKey tile core)).sems else Tab.get {} (sel - 256) (s.tile tile).sems
def State.setSem (s : State) (tile core sel : Nat) (v : Sem) : State :=
  if sel < 64 then
    let c := s.core (coreKey tile core)
    s.setCore (coreKey tile core) { c with sems := Tab.set {} sel v c.sems }
  else
    let t := s.tile tile
    s.setTile tile { t with sems := Tab.set {} (sel - 256) v t.sems }

/-- R148's comparison: SExt(WrapU(V − t, 32), 32) ≥ 0. -/
def semPasses (v t : BitVec 32) : Bool := !(v - t).msb

/-- The slots of a tile that the tables list. -/
def State.slotsOf (s : State) (tile : Nat) : List Nat := (s.slots.map (·.1)).filter (fun k => decide (k / 32 = tile))

/-- The semaphores a stream's armed wait names, as selectors. -/
def Wait.sels : Wait → List Nat
  | .semw sel _ _ _ => [sel]
  | .semwa win mask _ _ _ =>
    ((List.range 64).filter (fun k => mask.getLsbD k)).map (fun k => if win < 4 then k else 256 + 64 * (win - 4) + k)
  | _ => []

/-- Lending pairs of a tile (R361): a slot with a stream waiting on a semaphore whose valid signaller record
names another slot. -/
def State.lenders (s : State) (tile : Nat) : List (Nat × Nat) :=
  (s.slotsOf tile).flatMap (fun k =>
    (List.range 5).flatMap (fun f =>
      match (s.at (placeOfSlot k f)).wait with
      | some w => w.sels.filterMap (fun sel => (s.sem tile (k / 4 % 8) sel).sig.map (fun (c, n) => (k, slotKey tile c n)))
      | none => []))

/-- One relaxation of EFF along a lending pair. -/
def lendOnce (eff : Tab Nat) (e : Nat × Nat) : Tab Nat := Tab.set 0 e.2 (max (Tab.get 0 e.2 eff) (Tab.get 0 e.1 eff)) eff

/-- SPRIO.EFF of every slot of a tile: the fixed point of R361. -/
def State.relend (s : State) (tile : Nat) : State :=
  let l := s.lenders tile
  let base := (s.slotsOf tile).foldl (fun t k => Tab.set 0 k (s.slot k).regs.base t) []
  let eff := l.foldl (fun e _ => l.foldl lendOnce e) base
  (s.slotsOf tile).foldl (fun s k => s.setSlot k { s.slot k with regs := { (s.slot k).regs with eff := Tab.get 0 k eff } }) s

/-! ## Events and their routing (R364 to R368) -/

/-- FRT resets (R366). -/
def frtReset (code : Nat) : Nat :=
  let dest :=
    if 1 ≤ code ∧ code ≤ 0x10 then 0 else if code = 0x11 then 5
    else if code = 0x12 ∨ code = 0x13 then 0
    else if code = 0x20 ∨ code = 0x21 then 4 else 2
  8 + dest

/-- The routing byte of a cause at a tile (R367). -/
def State.frt (s : State) (tile code : Nat) : Nat := Tab.get (frtReset code) code (s.tile tile).frt
/-- Its destination: 0 SLOT, 1 SUPER, 2 THIMBLE, 3 HOST, 4 SEQ, 5 NONE (6, 7 as THIMBLE); SEQ only for
0x20 to 0x22. -/
def State.frtDest (s : State) (tile code : Nat) : Nat :=
  let d := s.frt tile code % 8
  if d ≥ 6 then 2 else if d = 4 ∧ ¬ (0x20 ≤ code ∧ code ≤ 0x22) then 2 else d

def State.report (s : State) (d : Dest) (e : Event) (tile slot : Nat) : State :=
  { s with reports := s.reports ++ [⟨d, e, tile, slot⟩] }

/-- The thimble core's log, for a cause whose LOG bit is set (R367). -/
def State.logRouted (s : State) (tile : Nat) (e : Event) : State :=
  if s.frt tile e.code / 8 % 2 = 1 then { s with hub := { s.hub with routed := (tile, e) :: s.hub.routed } } else s

/-- A due event put at the front of the schedule. -/
def State.soon (s : State) (d : Due) : State := { s with turns := .due d :: s.turns }
/-- A due event put at the end of the schedule. -/
def State.later (s : State) (d : Due) : State := { s with turns := s.turns ++ [.due d] }

/-- Whether a due event stands in the schedule. -/
def State.isDue (s : State) (d : Due) : Bool := s.turns.any (fun t => match t with | .due e => decide (e = d) | _ => false)
/-- A due event that cannot happen yet: it stands behind a turn of the engine that moved last. -/
def State.again (s : State) (d : Due) : State :=
  if s.isDue d then s else { s with turns := s.turns ++ [.engine s.cur 1, .due d] }
/-- A due event put at the end of the schedule unless it stands there. -/
def State.once (s : State) (d : Due) : State := if s.isDue d then s else s.later d

/-- An event into a slot's FIFO; a full one drops it with a machine check to the thimble core (R364). -/
def State.postSlot (s : State) (k : Nat) (e : Event) : State :=
  let sl := s.slot k
  if sl.fifo.length < 8 then
    (s.setSlot k { sl with fifo := sl.fifo ++ [e] }).soon (.asyncTrapDelivery (k / 32) (k / 4 % 8) (k % 4))
  else s.report .thimble { code := 0x30, info1 := BitVec.ofNat 64 (e.code * 2 ^ 32) } (k / 32) k

/-- Whether what stands on a tile's compute die may act: it has power, and no flush runs (R381). -/
def State.dieOn (s : State) (tile : Nat) : Bool := decide (tile = 16) || ((s.tile tile).powered && !(s.tile tile).flushing)

/-- The slot that holds a task: running, trapped, or pre-empted with its save not complete. -/
def State.findTask (s : State) (id : Nat) : Option Nat :=
  (s.slots.find? (fun e => match e.2.task with
    | some t => decide (t.id = id) && decide (e.2.mode ≠ .free) && !(decide (e.2.mode = .preempted) && e.2.psave)
    | none => false)).map (·.1)

/-- The supervisor slot of a tile when it holds a task (R352, R364). -/
def State.superSlot (s : State) (tile : Nat) : Option Nat :=
  let t := s.tile tile
  if !t.supV then none
  else
    let key := slotKey tile t.supCore t.supSlot
    if (s.slot key).task.isSome && decide ((s.slot key).mode ≠ .free) && !(decide ((s.slot key).mode = .preempted) && (s.slot key).psave)
    then some key else none

/-- An event for the supervisor slot, else the thimble core (R364, R367). -/
def State.postSuper (s : State) (tile slot : Nat) (e : Event) : State :=
  match s.superSlot tile with
  | some k => s.postSlot k e
  | none => s.report .thimble e tile slot

/-- Runs of a context area, each at an offset, written through the tile's tables without a handle (R374): a page that
is unmapped or not writable, or one that migrates (R350), stops the writing there. -/
def State.areaWrite (tile base : Nat) : List (Nat × List Byte) → State → Xlat × State
  | [], s => (.ok [] 0, s)
  | (o, bs) :: r, s =>
    match State.xlate tile (2 ^ 21) .write (decide (tile < 16)) (bs.length / 65536 + 2) s (base + o) bs.length with
    | (.ok segs _, s1) => State.areaWrite tile base r { s1 with mem := writeSegs s1.mem segs bs }
    | q => q
/-- Bytes read without a handle through a tile's tables. -/
def State.ctxRead (s : State) (tile va n : Nat) : Option (List Byte) :=
  match State.xlate tile (2 ^ 21) .read (decide (tile < 16)) (n / 65536 + 2) s va n with
  | (.ok segs _, s1) => some (readSegs s1.mem segs)
  | _ => none

/-- The defined bits of TINFO1 (R14, R39). -/
def tinfo1Bits (v : Word) : Word := v &&& 0xFFFFFFFF0000F1BF

/-- An entry of a context's event list, 48 bytes (R373: TCAUSE, stream, TINFO0 to TINFO3; 8 bytes each, log 10). -/
def eventBytes (e : Event) : List Byte :=
  leBytes 8 (e.code + 2 ^ 31) ++ leBytes 8 e.stream ++ leBytes 8 e.info0.toNat ++ leBytes 8 e.info1.toNat ++
    leBytes 8 e.info2.toNat ++ leBytes 8 e.info3.toNat
def eventOfBytes (bs : List Byte) : Event :=
  let w (i n : Nat) : Nat := leNat ((bs.drop i).take n)
  { code := w 0 1, stream := w 8 8, info0 := BitVec.ofNat 64 (w 16 8), info1 := tinfo1Bits (BitVec.ofNat 64 (w 24 8))
    info2 := BitVec.ofNat 64 (w 32 8), info3 := BitVec.ofNat 64 (w 40 8) }

/-- An event of a task (R364, R372): its slot's FIFO, its context's event list, or the supervisor. -/
def State.postTask (s : State) (tile id : Nat) (e : Event) : State :=
  match s.findTask id with
  | some k => s.postSlot k e
  | none =>
    match s.held.find? (fun h => decide (h.task = id)) with
    | some h =>
      let n := leNat ((s.ctxRead h.tile (h.area.toNat + 12) 4).getD [])
      let drop := s.report .thimble { code := 0x30, info1 := BitVec.ofNat 64 (e.code * 2 ^ 32) } h.tile 0
      if n < 8 then
        match State.areaWrite h.tile h.area.toNat [(0xC80 + 48 * n, eventBytes e), (12, leBytes 4 (n + 1))] s with
        | (.ok _ _, s1) => s1
        | (.hold, _) => s.again (.taskEvent tile id e)
        | (.fault _ _, _) => drop
      else drop
    | none => s.postSuper tile 0 e

/-- An event routed to the host: an interrupt of the module's vector (R367, R423). -/
def State.toHost (s0 : State) (e : Event) (tile slot : Nat) : State :=
  let s := s0.report .host e tile slot
  { s with hub := { s.hub with msix := s.module :: s.hub.msix } }

/-- Route an asynchronous event of a task at a tile by its FRT byte (R367). -/
def State.route (s0 : State) (tile task : Nat) (e : Event) : State :=
  let s := s0.logRouted tile e
  match s.frtDest tile e.code with
  | 0 => s.postTask tile task e
  | 1 => s.postSuper tile 0 e
  | 3 => s.toHost e tile 0
  | 4 => s.report .seq e tile 0
  | 5 => s
  | _ => s.report .thimble e tile 0

/-- Its event of a task that has ended; the thimble core consults no FRT (R369). -/
def State.routeTask (s : State) (tile task : Nat) (e : Event) : State :=
  if tile = 16 then s.report .thimble e 16 512 else s.route tile task e

/-- Send an event of a slot that has stopped where FRT says (R55, R367, R368): a machine check's DEST SLOT is the
FIFO of the frozen slot. -/
def State.routeFrozen (s0 : State) (p : Place) (e : Event) : State :=
  let s := s0.logRouted p.tile e
  match s.frtDest p.tile e.code with
  | 0 => s.postSlot p.slotK e
  | 1 => s.postSuper p.tile p.slotK e
  | 3 => s.toHost e p.tile p.slotK
  | 4 => s.report .seq e p.tile p.slotK
  | 5 => s
  | _ => s.report .thimble e p.tile p.slotK

/-! ## Errors of memory (R336, R346) -/

/-- A saturating count. -/
def sat32 (n : BitVec 32) : BitVec 32 := if n = 0xFFFFFFFF#32 then n else n + 1

/-- The tile whose own memory holds an address: its HBM, a core's slice memory and scratchpad, its shared memory and
base scratchpad; none for the second tier, the host and the hub. -/
def tileOfAddr (a : Nat) : Option Nat :=
  if a < 2 ^ 40 then some (a / 2 ^ 36)
  else if a < 2 ^ 52 then none
  else
    let u := a % 2 ^ 52 / 2 ^ 32
    let k := a / 2 ^ 52 - 1
    let t := if k = kSlice ∨ k = kScratch then u / 8 else u
    if k ≤ kBase ∧ t < 16 then some t else none

/-- What a granule's code holds when it is read (R346): a corrected error is counted; an uncorrectable one poisons the
granule, is counted, and is recorded with the thimble core. Poison of a second-tier device or the host only marks
the granule. -/
def State.granuleError (s : State) (g : Nat) (kind : EccKind) : State :=
  match kind, tileOfAddr (64 * g) with
  | .clean, _ => s
  | .corrected, some t => s.setTile t { s.tile t with cor := sat32 (s.tile t).cor }
  | .corrected, none => s
  | .uncorrectable, some t =>
    ({ s.setTile t { s.tile t with unc := sat32 (s.tile t).unc } with poison := setInsert g s.poison }).report .thimble
      { code := 0, info0 := BitVec.ofNat 64 (64 * g) } t 0
  | .uncorrectable, none => { s with poison := setInsert g s.poison }

/-- The slot that owns where an error stands (R30, R346). -/
def State.ownerAt (s : State) : ErrorSite → Nat
  | .granule _ => 512
  | .accum t c a => slotKey t c ((s.core (coreKey t c)).corecfg.toNat / 4 ^ a % 4)
  | .weights t c => slotKey t c ((s.core (coreKey t c)).corecfg.toNat / 4 ^ 8 % 4)
  | .registers t c k => slotKey t c k
  | .tag t c k => slotKey t c k

/-- An error found outside the patrol scrub (R346). -/
def State.errorFound (s : State) (site : ErrorSite) (kind : EccKind) : State :=
  match site, kind with
  | .granule g, _ => s.granuleError g kind
  | _, .uncorrectable => s.routeFrozen (placeOfSlot (s.ownerAt site) 0) { code := 0x30 }
  | _, _ => s

/-! ## Completing an instruction (R113, R119, R121) -/

/-- The program counter after a word of `size` bytes: block repetition at the body's end (R113). -/
def Stream.advance (st : Stream) (size : Nat) : Stream :=
  let pc := (st.pc + BitVec.ofNat 64 size) &&& 0x00FFFFFFFFFFFFFF
  match st.block with
  | some b =>
    if pc = b.stop then
      if 1 < b.remaining then { st with pc := b.start, block := some { b with remaining := b.remaining - 1 } }
      else { st with pc := b.stop, block := none }
    else { st with pc := pc }
  | none => { st with pc := pc }

/-- A tack push of one token to a channel with room, else the push stays pending (R119, R135). -/
def State.pushTack (s : State) (p : Place) (c : Nat) : State :=
  let sl := s.slot p.slotK
  if sl.tackCount c < 16 then s.setSlot p.slotK (sl.addTack c 1)
  else (s.setAt p { s.at p with push := (s.at p).push ++ [c], stalled := some s.clock }).later (.pendingTackPush p)

/-- What every completed instruction does last: its stream is unblocked, its issue is stamped, and its P bit
pushes on the channel `c` of the block it stands in (R119, R360, R365). -/
def State.complete (s : State) (p : Place) (t : Tack) (c : Nat) : State :=
  let st := s.at p
  let s1 := s.setAt p { st with ext := none, blocked := false, stalled := none, ready := none, issued := s.clock, wait := none }
  if t.p then s1.pushTack p c else s1

/-- An instruction of `size` bytes of the stream at `p` completes in sequence. -/
def State.retireAt (s : State) (p : Place) (size : Nat) (t : Tack) : State :=
  let c := pChannel p.stream (s.at p)
  (s.setAt p ((s.at p).advance size)).complete p t c
def State.retire (s : State) (size : Nat) (t : Tack) : State := s.retireAt s.cur size t

/-- The stream's turn found it stalled: on a tack or REND when `stall` (R365). -/
def State.blocked (s : State) (p : Place) (stall : Bool) : State :=
  let st := s.at p
  s.setAt p { st with
    blocked := true, ready := none
    stalled := if stall then some (st.stalled.getD s.clock) else none }

/-! ## Interrupting a matrix pass (R280) -/

/-- The rows that have entered the array at a time, row i at pa × i cycles after the start (R280). -/
def Pass.rowsAt (ps : Pass) (start now : Nat) : Nat := min ps.n (ps.k + (now - start) / max 1 ps.pa + 1)

/-- The M stream of a slot. -/
def mPlace (slot : Nat) : Place := placeOfSlot slot 1

/-- The pass in a core's array ends with every row done: its instruction completes, and a W bit's token, kept in its
channel while the pop was provisional (R121), leaves it. It issued when the pass began (R360). -/
def State.finishPass (s : State) (core : Nat) (ps : Pass) : State :=
  let p := mPlace ps.slot
  let s1 := s.passRows p ps ps.k (ps.n - ps.k)
  let s2 := if ps.tack.w then s1.setSlot ps.slot ((s1.slot ps.slot).takeTack (wChannel 1 (s1.at p)) 1) else s1
  let c := s2.core core
  let s3 := (s2.setCore core { c with matrix := { c.matrix with running := none } }).retireAt p 4 ps.tack
  s3.setAt p { s3.at p with issued := (s2.at p).issued }

/-- An interruption of the slot's pass at a row boundary: rows in the array complete, and a progress record
is written unless every row is done (R280). -/
def State.interruptPass (s : State) (slot : Nat) : State :=
  let core := slot / 4
  match (s.core core).matrix.running with
  | none => s
  | some (ps, start) =>
    if ps.slot ≠ slot then s
    else
      let k := ps.rowsAt start s.clock
      if k = ps.n then s.finishPass core ps
      else
        let s1 := s.passRows (mPlace slot) ps ps.k (k - ps.k)
        let c := s1.core core
        s1.setCore core { c with matrix := { c.matrix with running := none, record := some { ps with k := k } } }

/-! ## Taking an exception and returning (R38, R55, R117, R162, R362 to R368) -/

/-- A program counter `n` bytes back (R18). -/
def pcBack (pc : Word) (n : Nat) : Word := (pc - BitVec.ofNat 64 n) &&& 0x00FFFFFFFFFFFFFF

/-- A stream stopped at an instruction boundary: waits abandoned, an EXT rejoined to its instruction
(R105, R135, R148); also where the word after the EXT does not fetch (DESIGN CHOICE, log 26). -/
def Stream.halt (st : Stream) : Stream :=
  { st with pc := if st.ext.isSome then pcBack st.pc 4 else st.pc, ext := none, wait := none, stalled := none,
            ready := none, blocked := false }

/-- Every stream of a slot stopped; the waits that end lend no more (R361). -/
def State.haltStreams (s : State) (k : Nat) : State :=
  ((List.range 5).foldl (fun s f => s.setStream (5 * k + f) (s.stream (5 * k + f)).halt) s).relend (k / 32)

/-- A copy engine (R227, R481). -/
def State.engine (s : State) (e : Eng) : Engine :=
  match e with
  | .core t c => Tab.get {} (coreKey t c) s.engines
  | .tile t => (s.tile t).copy
def State.setEngine (s : State) (e : Eng) (v : Engine) : State :=
  match e with
  | .core t c => { s with engines := Tab.set {} (coreKey t c) v s.engines }
  | .tile t => s.setTile t { s.tile t with copy := v }

/-- Bits of TINFO1 (R39). -/
def tinfo1 (caux space : Nat) (wr hv : Bool) (hidx : Nat) : Word :=
  BitVec.ofNat 64 ((caux % 2 ^ 32) * 2 ^ 32 + space * 2 ^ 12 + (if wr then 256 else 0) + (if hv then 128 else 0) + hidx % 64)

/-- A slot frozen: TRAPPED with nothing running (R368). -/
def State.freeze (s : State) (k : Nat) : State :=
  s.setSlot k { s.slot k with mode := .trapped, frozen := true }

/-- Step 4 of R362: the C stream enters the handler at TVEC, or a machine check under R38. -/
def State.enterHandler (s : State) (p : Place) : State :=
  let k := p.slotK
  let tv := (s.slot k).regs.tvec
  let bad (s : State) (why : Nat) : State :=
    (s.freeze k).routeFrozen p { code := 0x30, stream := p.stream, info2 := BitVec.ofNat 64 why }
  match s.fetchWord p.tile 0 tv.toNat with
  | (.fault c, s1) => bad s1 c
  | (.ok bs, s1) =>
    if !isHeader bs then bad s1 6
    else
      let sl := s1.slot k
      s1.setSlot k { sl with
        mode := .trapped, frozen := false, regs := { sl.regs with super := true }
        sup := { sl.sup with pc := tv, block := none, ext := none, wait := none, push := [], ended := false
                             moved := false, stalled := none, ready := none, blocked := false } }

/-- The trap registers at a delivery (step 3 of R362). -/
def TrapRegs.load (r : TrapRegs) (async : Bool) (f : Nat) (e : Event) : TrapRegs :=
  { r with
    cause := BitVec.ofNat 32 (e.code + (if async then 2 ^ 31 else 0)), fstrm := f, pmode := false, pcc := none
    info0 := e.info0, info1 := e.info1, info2 := e.info2, info3 := e.info3 }

/-- A slot's streams stop and its trap registers are set (steps 1 to 3 of R362). -/
def State.stopForTrap (s : State) (p : Place) (async : Bool) (e : Event) : State :=
  let s1 := (s.interruptPass p.slotK).haltStreams p.slotK
  let s2 := (List.range 5).foldl (fun s f =>
    s.setStream (5 * p.slotK + f) { s.stream (5 * p.slotK + f) with moved := false }) s1
  s2.setSlot p.slotK { s2.slot p.slotK with mode := .trapped, regs := ((s2.slot p.slotK).regs).load async p.stream e }

/-- A trap of the thimble core enters its firmware at its own TVEC, the FRT apart (R449); the firmware, which no rule
gives, then ends the procedure with a result or returns to it (log 81). -/
def State.thimbleEnter (s : State) (async : Bool) (e : Event) (result : Option Nat) : State :=
  let p : Place := ⟨16, 0, 0, 0⟩
  let s1 := s.stopForTrap p async e
  let sl := s1.slot 512
  (s1.setSlot 512 { sl with
    frozen := false, regs := { sl.regs with super := true }
    sup := { sl.sup with pc := sl.regs.tvec, block := none, ext := none, wait := none, push := [], ended := false
                         moved := false, stalled := none, ready := none, blocked := false } }).soon (.firmware result)

/-- A synchronous fault of the thimble core (R449), in its runtime log with TEPC: in user mode its procedure fails with
result 0x100 + code; in supervisor mode the module resets. -/
def State.thimbleFault (s : State) (e : Event) (pc : Word) : State :=
  let s1 := { s with hub := { s.hub with log := (e.code, pc) :: s.hub.log } }
  if (s.slot 512).regs.super then s1.soon .moduleReset else s1.thimbleEnter false e (some (0x100 + e.code))

/-- A synchronous fault of the stream at `p` (R55, R362, R367, R368, R449). -/
def State.syncFault (s : State) (p : Place) (e : Event) : State :=
  if p.thimble then
    let s1 := s.setAt p (s.at p).halt
    s1.thimbleFault e (s1.at p).pc
  else if s.superAt p then
    let s1 := s.setAt p (s.at p).halt
    (s1.freeze p.slotK).routeFrozen p { code := 0x30, stream := p.stream, info2 := if e.code = 0x30 then e.info2 else BitVec.ofNat 64 e.code }
  else
    let s1 := s.stopForTrap p false e
    if s1.frtDest p.tile e.code = 0 then (s1.logRouted p.tile { e with stream := p.stream }).enterHandler p
    else (s1.freeze p.slotK).routeFrozen p { e with stream := p.stream }

/-- The oldest waiting asynchronous event of a slot delivered (R364): the stream it names, or C. -/
def State.deliverAsync (s : State) (k : Nat) : State :=
  let sl := s.slot k
  match sl.fifo with
  | [] => s
  | e :: rest =>
    if sl.regs.super || sl.frozen || !decide (sl.mode = .running) || !s.dieOn (k / 32) then s
    else
      let f := if e.stream < 5 then e.stream else 0
      let p := placeOfSlot k f
      if k = 512 then (s.setSlot k { sl with fifo := rest }).thimbleEnter true e none
      else ((s.setSlot k { sl with fifo := rest }).stopForTrap p true e).enterHandler p

/-- A slot returns to RUNNING: stall counts start from zero, and pending pushes are tried again (R365). -/
def State.toRunning (s : State) (k : Nat) : State :=
  let s1 := s.setSlot k { s.slot k with mode := .running, frozen := false }
  (List.range 5).foldl (fun s f =>
    let s2 := s.setStream (5 * k + f) { s.stream (5 * k + f) with stalled := none, blocked := false, moved := false }
    if (s2.stream (5 * k + f)).push = [] then s2 else s2.once (.pendingTackPush (placeOfSlot k f))) s1

/-- Pending-fault entries a slot took are released (R345). -/
def State.releasePend (s : State) (k : Nat) : State :=
  let t := s.tile (k / 32)
  s.setTile (k / 32) { t with pend := t.pend.filter (fun e => e.2.2 ≠ k) }

/-! ## Issue -/

/-- What an instruction's body answers: it completes in sequence, transfers control, waits (on a tack or REND
when `stall`), or raises a precise fault. -/
inductive Eff where
  | done (s : State)
  | goto (target : Word) (s : State)
  | held (s : State)
  | wait (stall : Bool) (s : State)
  | trap (e : Event) (s : State)
  deriving DecidableEq, Repr

/-- The pending pushes of the stream at `p` performed as far as there is room. -/
def State.flushPush (s : State) (p : Place) : State :=
  let q := Slot.pushAll (s.at p).push (s.slot p.slotK)
  let s1 := s.setSlot p.slotK q.2
  s1.setAt p { s1.at p with push := q.1 }

/-- Issue of an instruction of `size` bytes whose EXT is its own (R105, R119, R121): a pending push first,
then the W pop, the body, and the completion. A wait or fault leaves the token in its channel. -/
def issueX (size : Nat) (t : Tack) (body : State → Eff) (s : State) : Out :=
  let p := s.cur
  let st := s.me
  let s0 := match st.push with
    | [] => s
    | _ :: _ => s.flushPush p
  if (s0.at p).push ≠ [] then .next (s0.blocked p true)
  else
    let wc := wChannel p.stream st
    if t.w && decide ((s0.slot p.slotK).tackCount wc = 0) then .next (s0.blocked p true)
    else
      let s1 := if t.w then s0.setSlot p.slotK ((s0.slot p.slotK).takeTack wc 1) else s0
      let back (s2 : State) : State := if t.w then s2.setSlot p.slotK ((s2.slot p.slotK).addTack wc 1) else s2
      match body s1 with
      | .done s2 => .next (s2.retireAt p size t)
      | .goto target s2 =>
        let c := pChannel p.stream (s2.at p)
        .next ((s2.setAt p { s2.at p with pc := target, block := none }).complete p t c)
      | .held s2 => .next s2
      | .wait stall s2 => .next ((back s2).blocked p stall)
      | .trap e s2 => .next ((back s2).syncFault p e)

/-- Issue of an instruction that takes no EXT: one before it is discarded (R105). -/
def issue (size : Nat) (t : Tack) (body : State → Eff) (s : State) : Out :=
  issueX size t body (s.setMe { s.me with ext := none })

/-- A precise fault with TINFO0, TINFO1 and TINFO2. -/
def Event.mk' (code : Nat) (i0 i1 i2 : Word) : Event := { code := code, info0 := i0, info1 := i1, info2 := i2 }

/-- The privilege fault 0x0D (R54). -/
def privFault : Event := { code := 0x0D }

end Sys2Proof.Machine
end

