-- ==== Sys2Proof/Machine/Buffer.lean ====
section
/-!
DEFINITION. Store buffers and L1 data caches (R151, R171, R177 to R179, R193 to R195, R202; log 8).

A scalar store to spaces 2 to 4 is visible on its core when it completes and waits in the core's store
buffer until it is performed at its home. The L1 holds lines by physical address and may be stale towards
other cores' writes (R178). DESIGN CHOICE (log 8): the sizes of both, and when an entry is performed.
-/
namespace Sys2Proof.Machine

/-- Bits of an entry laid over a run of bytes at flat address `a`. -/
def overlay (a : Nat) (bs : List Byte) (e : StoreEntry) : List Byte :=
  if e.bit + e.width ≤ 8 * a ∨ 8 * (a + bs.length) ≤ e.bit then bs
  else
    (bs.zipIdx).map (fun (b, i) =>
      let lo := 8 * (a + i)
      (List.range 8).foldl (fun (b : Byte) k =>
        if e.bit ≤ lo + k ∧ lo + k < e.bit + e.width then
          (if bitN e.value (lo + k - e.bit) then b ||| BitVec.ofNat 8 (2 ^ k) else b &&& ~~~(BitVec.ofNat 8 (2 ^ k)))
        else b) b)

/-- Bytes as the core's own agents see them at the home: memory with the store buffer laid over it (R171). -/
def State.coreView (s : State) (core a n : Nat) : List Byte :=
  (s.auxOf core).stores.foldl (overlay a) (s.mem.readBytes a n)

/-- The L1 line holding flat address `a`. -/
def State.line (s : State) (core a : Nat) : Option Line := (s.auxOf core).l1.find? (fun l => decide (l.num = a / 64))
/-- A line filled from the home (R202); the oldest line leaves a full cache (4,096 lines of 64 bytes). -/
def State.fillLine (s : State) (core a : Nat) : State :=
  let x := s.auxOf core
  s.setAux core { x with
    l1 := (⟨a / 64, s.coreView core (a / 64 * 64) 64⟩ :: x.l1.filter (fun l => l.num ≠ a / 64)).take 4096 }
/-- Bits written by an agent of the core into a line it holds (R178). -/
def State.updateLine (s : State) (core : Nat) (e : StoreEntry) : State :=
  let x := s.auxOf core
  s.setAux core { x with l1 := x.l1.map (fun l => { l with bytes := overlay (64 * l.num) l.bytes e }) }
/-- Lines of a run dropped (R152, R179). -/
def State.dropLines (s : State) (core a n : Nat) : State :=
  let x := s.auxOf core
  s.setAux core { x with l1 := x.l1.filter (fun l => !(decide (l.num * 64 < a + n) && decide (a < l.num * 64 + 64))) }
/-- The whole L1 invalidated (R152). -/
def State.dropL1 (s : State) (core : Nat) : State := s.setAux core { s.auxOf core with l1 := [] }

/-- A store performed at its home. -/
def State.performEntry (s : State) (e : StoreEntry) : State :=
  { s with mem := s.mem.writeBits e.bit e.width e.value }

/-- Two entries write a common bit. -/
def StoreEntry.meets (x y : StoreEntry) : Bool := decide (x.bit < y.bit + y.width) && decide (y.bit < x.bit + x.width)

/-- Whether entry `e` after the entries `before` may be performed: no earlier entry writes to one of its locations
(R171). -/
def mayPerform (before : List StoreEntry) (e : StoreEntry) : Bool := !before.any (fun x => x.meets e)

/-- Every buffered store of a core performed at its home in order. -/
def State.drainCore (s : State) (core : Nat) : State :=
  let x := s.auxOf core
  let s1 := x.stores.foldl State.performEntry s
  s1.setAux core { s1.auxOf core with stores := [] }

/-- The stream still has stores on their way (R151). -/
def State.storesPending (s : State) (core f : Nat) : Bool :=
  (s.auxOf core).stores.any (fun e => decide (e.stream = f))

end Sys2Proof.Machine
end

