-- ==== Sys2Proof/Machine/Flags.lean ====
section
/-!
DEFINITION. FPFLAGS (R45, R68) and the arithmetic results of R156, R157 and R159.
-/
namespace Sys2Proof.Machine

/-- Sticky FPFLAGS bits set in the executing stream (R45). -/
def State.raise (s : State) (f : Nat) : State :=
  if f = 0 then s else s.setMe { s.me with fpflags := s.me.fpflags ||| BitVec.ofNat 32 (f % 64) }

/-! ## Integer results (R156, R157, R159): each is the value WriteX stores -/

def aluMulh (a b : Word) : Word := BitVec.ofInt 64 ((a.toInt * b.toInt) / (2 ^ 64 : Nat))
def aluMulhu (a b : Word) : Word := BitVec.ofNat 64 (a.toNat * b.toNat / 2 ^ 64)
def aluDiv (a b : Word) : Word := BitVec.ofInt 64 (divT a.toInt b.toInt 64 true)
def aluDivu (a b : Word) : Word := BitVec.ofInt 64 (divT a.toNat b.toNat 64 false)
def aluRem (a b : Word) : Word := BitVec.ofInt 64 (remT a.toInt b.toInt 64 true)
def aluRemu (a b : Word) : Word := BitVec.ofInt 64 (remT a.toNat b.toNat 64 false)
def aluShl (a : Word) (n : Nat) : Word := a <<< (n % 64)
def aluShrl (a : Word) (n : Nat) : Word := a >>> (n % 64)
def aluShra (a : Word) (n : Nat) : Word := a.sshiftRight (n % 64)
def aluMin (a b : Word) : Word := if a.toInt ≤ b.toInt then a else b
def aluMax (a b : Word) : Word := if a.toInt ≤ b.toInt then b else a
def aluMinu (a b : Word) : Word := if a.toNat ≤ b.toNat then a else b
def aluMaxu (a b : Word) : Word := if a.toNat ≤ b.toNat then b else a
def aluBool (b : Bool) : Word := if b then 1 else 0
/-- Leading zero bits; 64 for 0. -/
def aluClz (a : Word) : Word := if a = 0 then 64 else BitVec.ofNat 64 (63 - Nat.log2 a.toNat)
/-- Number of one bits. -/
def aluPopc (a : Word) : Word :=
  BitVec.ofNat 64 ((List.range 64).foldl (fun n i => n + (if a.getLsbD i then 1 else 0)) 0)
/-- Field width of b[13:8], 0 meaning 64 (R159). -/
def fieldW (b : Word) : Nat := if bits b 8 6 = 0 then 64 else bits b 8 6
/-- BFX: bits lsb to lsb + w − 1 of a (R159). -/
def aluBfx (a b : Word) (signed : Bool) : Word :=
  let f := a.toNat / 2 ^ bits b 0 6 % 2 ^ fieldW b
  if signed then BitVec.ofInt 64 (sext (fieldW b) f) else BitVec.ofNat 64 f
/-- BFI: bits lsb to top − 1 of d replaced from a (R159). -/
def aluBfi (d a b : Word) : Word :=
  let lsb := bits b 0 6
  let n := min (lsb + fieldW b) 64 - lsb
  let m := (BitVec.ofNat 64 (2 ^ n - 1)) <<< lsb
  (d &&& ~~~m) ||| ((a <<< lsb) &&& m)
/-- CLAMP: Sat(d, a, b) (R64, R159). -/
def aluClamp (d a b : Word) (uns : Bool) : Word :=
  if uns then BitVec.ofInt 64 (sat d.toNat a.toNat b.toNat) else BitVec.ofInt 64 (sat d.toInt a.toInt b.toInt)

end Sys2Proof.Machine
end

