-- ==== Sys2Proof/Machine/Handles.lean ====
section
/-!
DEFINITION. Handle registers and their entries (R20, R21, R87, R199, R202, R207, R337, R338, R344).
-/
namespace Sys2Proof.Machine

/-- The fields of a 64-byte entry (R337, R338), or the code HLD rejects it with (R206). -/
def handleOfBytes (bs : List Byte) : Except Nat Handle :=
  let q (o n : Nat) : Nat := leNat ((bs.drop o).take n)
  let type := q 24 1 % 32
  let space := q 25 1 % 16
  let fl := q 26 1
  let rank := q 27 1 % 8
  let pb := isPB type
  let ext (k v : Nat) : Nat := if pb && decide (rank ≤ k) then 1 else v
  let e0 := q 32 8
  if 10 ≤ space then .error 0x04
  else if 0x14 ≤ type ∧ type ≤ 0x17 then .error 0x0B
  else if pb && (decide (rank = 0) || decide (4 < rank) || decide (e0 = 0) || decide (e0 % 48 ≠ 0)) then .error 0x0B
  else .ok {
    base := q 0 8 % 2 ^ 56, bound := q 8 8, wstart := q 16 8, type := type, space := space
    ceil := min (fl % 4) 2, pr := bitN fl 2, pw := bitN fl 3, pa := bitN fl 4, rank := rank
    e0 := e0, e1 := ext 1 (q 28 4), e2 := ext 2 (q 40 4), e3 := ext 3 (q 44 4)
    peer := q 48 1 % 64, ptile := q 49 1 % 16, ridx := q 50 1 % 64 }

/-- An entry's bytes (R337). -/
def Handle.toBytes (h : Handle) : List Byte :=
  let b (v : Bool) (n : Nat) : Nat := if v then n else 0
  leBytes 8 h.base ++ leBytes 8 h.bound ++ leBytes 8 h.wstart ++ leBytes 1 h.type ++ leBytes 1 h.space ++
    leBytes 1 (h.ceil + b h.pr 4 + b h.pw 8 + b h.pa 16) ++ leBytes 1 h.rank ++ leBytes 4 h.e1 ++ leBytes 8 h.e0 ++
    leBytes 4 h.e2 ++ leBytes 4 h.e3 ++ leBytes 1 h.peer ++ leBytes 1 h.ptile ++ leBytes 1 h.ridx ++ leBytes 13 0

/-- The views of HINFO (R207). -/
def Handle.info (h : Handle) (f : Nat) : Word :=
  let b (v : Bool) (n : Nat) : Nat := if v then 2 ^ n else 0
  BitVec.ofNat 64 (match f with
    | 0 => h.base
    | 1 => h.bound
    | 2 => h.type + h.space * 2 ^ 5 + h.ceil * 2 ^ 9 + b h.pr 11 + b h.pw 12 + b h.pa 13 +
        (if isPB h.type then h.rank * 2 ^ 14 else 0)
    | 3 => h.wstart
    | 4 => h.e0
    | 5 => h.e1 + h.e2 * 2 ^ 32
    | 6 => h.e3
    | _ => h.peer + h.ptile * 2 ^ 8 + h.ridx * 2 ^ 16)

/-- A handle register of a slot written as a whole (R21); its translation-cache entries are dropped (R344). -/
def State.setHandleOf (s : State) (k : Nat) (r : Nat) (h : Handle) : State :=
  let sl := s.slot k
  let s1 := s.setSlot k { sl with handles := Tab.set {} r h sl.handles }
  let t := s1.tile (k / 32)
  s1.setTile (k / 32) { t with tcache := t.tcache.filter (fun e => e.key ≠ handleKey k r) }
def State.setHandle (s : State) (d : Reg) (h : Handle) : State := s.setHandleOf s.cur.slotK d.toNat h

/-- The effective cache policy: 0 UC, 1 WT, 2 C (R202, R342). -/
def Handle.policy (h : Handle) (f : BitVec 3) (leaf : Word) : Nat :=
  min (min (match f.toNat % 4 with | 1 => 0 | 2 => 1 | _ => 2) h.ceil) (leafCeil leaf)

/-- R87's rule for a PB operand at offset `off`: its tensor begins on 64 bytes, `off` is a multiple of 768 (R231,
R275, R292), and the access starts on a group, which a window that itself starts off a group boundary does not
(DEDUCED, log 30). -/
def Handle.layoutOk (h : Handle) (off : Int) : Bool :=
  !isPB h.type || (decide (h.base % 64 = 0) && decide (off % 768 = 0) && decide (h.wstart % 768 = 0))

/-- The first flat address of checked segments. -/
def firstAddr (segs : List (List (Nat × Nat))) : Nat := ((segs.headD []).headD (0, 0)).1

end Sys2Proof.Machine
end

