-- ==== Sys2Proof/Machine/Operands.lean ====
section
/-!
DEFINITION. Operand forms: immediates with and without EXT (R104), memory operands and the checks of an
access in their order (R198 to R201), semaphore selectors (R145).
-/
namespace Sys2Proof.Machine

/-! ## Immediates (R104) -/

/-- I-form: SExt of 9 bits, or of 32 with EXT. -/
def State.immI (s : State) (i : BitVec 9) : Int :=
  match s.me.ext with
  | none => sext 9 i.toNat
  | some e => sext 32 (e.toNat * 2 ^ 9 + i.toNat)
/-- U-form read as unsigned: 15 bits, or 38 with EXT. -/
def State.immU (s : State) (i : BitVec 15) : Nat :=
  match s.me.ext with
  | none => i.toNat
  | some e => e.toNat * 2 ^ 15 + i.toNat
/-- U-form read as signed. -/
def State.immUS (s : State) (i : BitVec 15) : Int :=
  match s.me.ext with
  | none => sext 15 i.toNat
  | some e => sext 38 (e.toNat * 2 ^ 15 + i.toNat)
/-- J-form: halfwords. -/
def State.immJ (s : State) (i : BitVec 15) : Int := s.immUS i
/-- The immediate of a memory operand: 0, or SExt(E, 23) (R198). -/
def State.immM (s : State) : Int :=
  match s.me.ext with
  | none => 0
  | some e => sext 23 e.toNat

/-- off of a memory operand: SExt(x[B], 64) + imm (R198). -/
def State.offM (s : State) (m : MemOp) : Int := (s.x m.x).toInt + s.immM

/-! ## Memory operands (R198 to R201) -/

/-- The byte past BASE at which unit `u` of a window begins (R199). -/
def Handle.unitByte (h : Handle) (u : Int) : Int :=
  if isPB h.type then 16 * ((h.wstart + u) / 768)
  else if elemUnit h.type then (h.wstart + u) * typeWidth h.type / 8
  else h.wstart + u

/-- What an instruction asks of an access: the kind, accepted spaces, type accepted, layout rules met (R87),
alignment in bytes, unit count, and the byte ranges past BASE it covers. -/
structure Want where
  acc : Access
  spaces : List Nat
  pr : Bool
  pw : Bool
  pa : Bool := false
  typeOk : Bool
  layoutOk : Bool := true
  align : Nat := 1
  /-- What `off` itself must be a multiple of (R231). -/
  offAlign : Nat := 1
  n : Nat
  ranges : List (Nat × Nat)
  near : Bool := true
  /-- Poison is checked with the rest (R200); ply instructions check it group by group (R232). -/
  poison : Bool := true
  deriving DecidableEq, Repr

/-- The answer of the checks: the segments of each range with the first leaf, a fault, or a wait (R345). -/
inductive Chk where
  | ok (segs : List (List (Nat × Nat))) (leaf : Word) (s : State)
  | bad (e : Event) (s : State)
  | hold (s : State)
  deriving DecidableEq, Repr

/-- Translate ranges in order. -/
def State.xlateAll (v : View) (a : Access) (near : Bool) :
    State → List (Nat × Nat) → (Xlat × List (List (Nat × Nat))) × State
  | s, [] => ((.ok [] 0, []), s)
  | s, (o, n) :: r =>
    let x := State.xlate v.place.tile v.key a near (n / 65536 + 2) s ((v.base + o) % 2 ^ 56) n
    let q := State.xlateAll v a near x.2 r
    let here : List (Nat × Nat) := match x.1 with | .ok segs _ => segs | _ => []
    ((x.1.join q.1.1, here :: q.1.2), q.2)

/-- TINFO0 to TINFO2 of a failed access (R200). -/
def accessEvent (code : Nat) (h : Handle) (hidx : Nat) (off : Int) (w : Want) : Event :=
  { code := code
    info0 := BitVec.ofNat 64 (((h.base : Int) + h.unitByte off) % (2 ^ 56 : Nat)).toNat
    info1 := tinfo1 w.n h.space w.acc.writes true hidx
    info2 := word off }

/-- Checks 0 to 7 of R200 in their order, for handle fields `h` named as register `hidx`: the fault of each that
fails. -/
def State.preChecks (s : State) (h : Handle) (hidx : Nat) (off : Int) (w : Want) : List (Option Event) :=
  let p := s.cur
  let on (b : Bool) (c : Nat) : Option Event := if b then some (accessEvent c h hidx off w) else none
  [on (decide (h.bound = 0) && decide (1 ≤ w.n)) 0x01,
    on (decide (h.space = 9) && !p.thimble) 0x0D,
    on (!w.spaces.contains h.space) 0x04,
    on ((w.pr && !h.pr) || (w.pw && !h.pw) || (w.pa && !h.pa)) 0x04,
    on (!w.typeOk) 0x0B,
    on (!w.layoutOk) 0x0C,
    on (decide (((h.base : Int) + h.unitByte off) % (max 1 w.align : Nat) ≠ 0) || decide (off % (max 1 w.offAlign : Nat) ≠ 0)) 0x02,
    on (decide (off < 0) || decide (off + w.n > h.bound) || (direct h.space &&
      w.ranges.any (fun r => decide (spaceSize s (h.view p hidx).place.tile h.space < h.base + r.1 + r.2)))) 0x01]

/-- The first check of R200's 0 to 7 that fails. -/
def State.preCheck (s : State) (h : Handle) (hidx : Nat) (off : Int) (w : Want) : Option Event :=
  (s.preChecks h hidx off w).findSome? id

/-- Checks 8 to 10: translation, page permissions and, for a read, poison. The thimble core's access to a tile whose die has
no power waits (R195; log 34). -/
def State.postCheck (s : State) (h : Handle) (hidx : Nat) (off : Int) (w : Want) : Chk :=
  let p := s.cur
  let v := h.view p hidx
  if direct h.space then
    let segs := w.ranges.map (fun r => [(spaceAddr v.place h.space (h.base + r.1), r.2)])
    if p.thimble && !s.dieOn v.place.tile then .hold s
    else if w.acc.reads && w.poison && (poisonIn s segs.flatten).isSome then .bad (accessEvent 0x05 h hidx off w) s else .ok segs 0 s
  else
    match s.xlateAll v w.acc (w.near && !p.thimble) w.ranges with
    | ((.ok _ leaf, segs), s1) =>
      if w.acc.reads && w.poison && (poisonIn s1 segs.flatten).isSome then .bad (accessEvent 0x05 h hidx off w) s1
      else .ok segs leaf s1
    | ((.hold, _), s1) => .hold s1
    | ((.fault c va, _), s1) =>
      let r := s1.streamFault p va
      if r.1 then .bad (accessEvent c h hidx off w) r.2 else .hold r.2

/-- The checks of R200. -/
def State.checkMem (s : State) (h : Handle) (hidx : Nat) (off : Int) (w : Want) : Chk :=
  match s.preCheck h hidx off w with
  | some e => .bad e s
  | none => s.postCheck h hidx off w

/-- A check's faults and waits as an instruction's answer. -/
def Chk.andThen (c : Chk) (k : List (List (Nat × Nat)) → Word → State → Eff) : Eff :=
  match c with
  | .ok segs leaf s => k segs leaf s
  | .bad e s => .trap e s
  | .hold s => .wait false s

/-! ## Semaphore selectors (R145) -/

/-- A selector that names no semaphore. -/
def selBad (sel : Nat) : Bool := decide (64 ≤ sel) && decide (sel ≤ 255)
/-- The fault of one (R145, R366): TINFO0 = 0, CAUX and TINFO2 the selector. -/
def selFault (sel : Nat) : Event :=
  { code := 0x01, info1 := tinfo1 sel 0 false false 0, info2 := BitVec.ofNat 64 sel }

end Sys2Proof.Machine
end

