-- ==== Sys2Proof/Machine/Reduction.lean ====
section
/-!
DEFINITION. Reductions at memory: their homes, their numbers and their performance (R180, R182, R211, R212, R223,
R382); what a release and an access at a home perform first (R173, R176, R183).
-/
namespace Sys2Proof.Machine

/-! ## Homes (R167, R328, R332, R382) -/

/-- The tile of a flat address's home (16: the hub tile's ports). -/
def homeTile (a : Nat) : Nat :=
  if a < 2 ^ 52 then min (a / 2 ^ 36) 16
  else
    let u := a % 2 ^ 52 / 2 ^ 32
    if a / 2 ^ 52 - 1 = kHub then 16
    else if a / 2 ^ 52 - 1 = kShared ∨ a / 2 ^ 52 - 1 = kBase then u else u / 8
/-- The home of a flat address: an L2 slice, a bank, or a base die. -/
def homeOf (a : Nat) : Nat :=
  if a < 2 ^ 52 then a / 2 ^ 36 * 64 + Nat.xor (a / 64 % 32) (a / 2048 % 32)
  else
    let kind := a / 2 ^ 52 - 1
    let bank := if kind = kShared then a / 64 % 64 else if kind = kScratch then a / 64 % 32 else 0
    2 ^ 30 + (kind * 2 ^ 20 + a % 2 ^ 52 / 2 ^ 32) * 64 + bank

/-! ## Combining (R96, R210, R223) -/

/-- A minimum or maximum of two elements of a type (R96, R223). -/
def minMaxOf (type : Nat) (isMax : Bool) (a b : Nat) : Nat :=
  match fmtOf type with
  | some f => if isMax then fMax f a b else fMin f a b
  | none =>
    let x := intOf type a
    let y := intOf type b
    if isMax then (if x < y then b else a) else (if y < x then b else a)
/-- The new value of a reduction: rop 1 ADD, 2 MIN, 3 MAX; others write the operand. -/
def combine (type rop old v : Nat) : Nat :=
  match rop with
  | 0 => v
  | 1 =>
    if type = 0x0B then addWF old (wf32.decode v)
    else match fmtOf type with
      | some f => (fAdd f 0 old v).1
      | none => (old + v) % 2 ^ typeWidth type
  | n => minMaxOf type (decide (n = 3)) old v

/-! ## Reductions (R211, R212, R382) -/

/-- The key of a source's count at a home. -/
def redKey (source home : Nat) : Nat := source * 2 ^ 40 + home

/-- Number `n` is newer than the kept one (R382), modulo 2^32. -/
def newer (n kept : BitVec 32) : Bool := n ≠ kept && semPasses n kept

/-- A reduction sent by a source of core `core` and accepted at its home (R211, R382). -/
def State.sendReduction (s : State) (core source : Nat) (p : Place) (addr bit type rop value task : Nat) (va : Word)
    (space : Nat) : State :=
  let c := s.core core
  let home := homeOf addr
  let n := Tab.get 0 (redKey source home) c.redSent + 1
  let s1 := s.setCore core { c with redSent := Tab.set 0 (redKey source home) n c.redSent }
  let t := s1.tile (homeTile addr)
  (s1.setTile (homeTile addr) { t with
    reds := t.reds ++ [{ source := source, home := home, number := n, addr := addr, bit := bit, type := type, rop := rop
                         value := value, task := task, place := p, va := va, space := space }] }).later
    (.reductionPerform (homeTile addr) 0)

/-- A reduction applied at its home, or dropped (R212, R382); its core's L1 keeps no line of it (R178, R179). -/
def State.applyReduction (s : State) (tile : Nat) (r : Reduction) : State :=
  let t := s.tile tile
  let k := redKey r.source r.home
  if !newer r.number (Tab.get 0 k t.applied) then s.setTile tile { t with rdrop := sat32 t.rdrop }
  else
    let s1 := s.setTile tile { t with applied := Tab.set 0 k r.number t.applied }
    let w := typeWidth r.type
    let n := (r.bit % 8 + w + 7) / 8
    if (poisonIn s1 [(r.addr, n)]).isSome then
      s1.route r.place.tile r.task { code := 0x05, stream := r.place.stream, info0 := r.va
                                     info1 := tinfo1 0 r.space true false 0 }
    else
      let bit := 8 * r.addr + r.bit
      State.dropLines { s1 with mem := s1.mem.writeBits bit w (combine r.type r.rop (s1.mem.readBits bit w) r.value) }
        r.place.coreK r.addr n

/-- The pending reduction at place `i` of a tile's homes is performed, unless an earlier one of its source to
its home is still pending (R382). -/
def State.performRed (s : State) (tile i : Nat) : State :=
  let t := s.tile tile
  match t.reds[i]? with
  | none => s
  | some r =>
    if (t.reds.take i).any (fun q => decide (q.source = r.source) && decide (q.home = r.home)) then s
    else (s.setTile tile { t with reds := t.reds.take i ++ t.reds.drop (i + 1) }).applyReduction tile r

/-- REDUCTION_PERFORM (R382). -/
def execReductionPerform (tile i : Nat) (s : State) : Out := .next (s.performRed tile i)

/-- A tile's pending reductions that `mine` selects, performed in order. -/
def State.performWhere (mine : Reduction → Bool) (s : State) (tile : Nat) : State :=
  let l := (s.tile tile).reds
  (l.filter mine).foldl (fun s r => s.applyReduction tile r)
    (s.setTile tile { s.tile tile with reds := l.filter (fun r => !mine r) })

/-- Every pending reduction of a core's streams performed (R120, R173, R177). Stream keys are below 2^12. -/
def State.performCore (s : State) (core : Nat) : State :=
  (s.tiles.map (·.1)).foldl (State.performWhere (fun r => decide (r.source / 20 = core))) s

/-- Everything the agents of a core have completed performed at its home: what a release of tile scope or wider by
one of them covers, directly or through what it acquired (R173, R176). -/
def State.settleCore (s : State) (core : Nat) : State := (s.drainCore core).performCore core

/-- The executing core's accesses performed at their homes, so that one which is performed there follows them
(R171, R183). -/
def State.settle (s : State) : State := s.settleCore s.cur.coreK

end Sys2Proof.Machine
end

