-- ==== Sys2Proof/Machine/Sync.lean ====
section
/-!
DEFINITION. Tacks, semaphores, fences, time, identity and priority (R144 to R155). SEMS_DISARM is in
Transform.lean, after the records it cancels.
-/
namespace Sys2Proof.Machine

/-! ## A semaphore's operations and the waits they satisfy (R24, R147 to R149, R163, R229) -/

/-- A waiting SEMW or SEMWA of the stream at `q` completes with `v` in its destination (R148, R149). -/
def State.completeWait (s : State) (q : Place) (d : Reg) (t : Tack) (v : Word) : State :=
  let wc := wChannel q.stream (s.at q)
  let s1 := if t.w then s.setSlot q.slotK ((s.slot q.slotK).takeTack wc 1) else s
  (s1.setAt q ((s1.at q).setX d v)).retireAt q 4 t

/-- Window entry `k` of SEMWA as a selector (R149). -/
def windowSel (win k : Nat) : Nat := if win < 4 then k else 256 + 64 * (win - 4) + k
/-- The least masked entry of a window that passes now. -/
def State.windowPass (s : State) (tile core win : Nat) (mask : Word) (t : BitVec 32) : Option Nat :=
  (List.range 64).find? (fun k => mask.getLsbD k && semPasses (s.sem tile core (windowSel win k)).v t)

/-- The wait of the stream at `q` after an operation on semaphore `sel` of `tile` (core `core` for an s). -/
def State.wake1 (tile core sel : Nat) (s : State) (q : Place) : State :=
  match (s.at q).wait with
  | some (.semw w thr d t) =>
    if w = sel ∧ semPasses (s.sem tile core sel).v thr then s.completeWait q d t 0 else s
  | some (.semwa win mask thr d t) =>
    match (List.range 64).find? (fun k => mask.getLsbD k && decide (windowSel win k = sel) && semPasses (s.sem tile core sel).v thr) with
    | some k => s.completeWait q d t (BitVec.ofNat 64 k)
    | none => s
  | some (.wfi mask _) =>
    if sel < 64 ∧ mask.getLsbD sel then s.setAt q { s.at q with wait := some (.wfi mask true) } else s
  | _ => s

/-- The places whose streams may wait on a semaphore. -/
def State.waiters (s : State) (tile core sel : Nat) : List Place :=
  ((s.slotsOf tile).filter (fun k => decide (256 ≤ sel) || decide (k / 4 % 8 = core))).flatMap
    (fun k => (List.range 5).map (placeOfSlot k))

/-- Copies armed on a semaphore that passes are started, as an acquire (R229). -/
def State.wakeCopies (s : State) (e : Eng) (tile core sel : Nat) : State :=
  let g := s.engine e
  let hit (o : CopyOp) : Bool := match o.armed with
    | some (n, thr) => decide (n = sel) && (decide (256 ≤ sel) || decide (o.place.core = core)) &&
        semPasses (s.sem tile core sel).v thr
    | none => false
  let ids := (g.ops.filter hit).map (·.id)
  let s0 := (g.ops.filter hit).foldl (fun s o => s.settleCore o.place.coreK) s
  let s1 := s0.setEngine e { g with ops := g.ops.map (fun o => if hit o then { o with armed := none } else o) }
  ids.foldl (fun s i => s.later (.copyStart e i (2 ^ 64))) s1

/-- A transform engine whose oldest record has not started. -/
def Xfm.idle (g : Xfm) : Bool := match g.queue with | o :: _ => !o.started | [] => false
/-- The units that may now start: a transform record (R326) and the walker's next iterations (R356). -/
def State.nudge (s : State) (tile : Nat) : State :=
  let t := s.tile tile
  let s1 := if t.xfm0.idle then s.once (.xfmRecordStart tile 0) else s
  let s2 := if t.xfm1.idle then s1.once (.xfmRecordStart tile 1) else s1
  if t.walker.run then s2.once (.walkerIterationStart tile) else s2

/-- Transform records that wait for a semaphore that passes have met their first place (R326). -/
def State.passRecords (s : State) (tile core sel : Nat) : State :=
  let hit (o : XfmOp) : Bool := bitN o.wsel 15 && decide (o.wsel % 512 = sel) && (decide (256 ≤ sel) || decide (o.place.core = core)) &&
    semPasses (s.sem tile core sel).v o.wthr
  let mark (g : Xfm) : Xfm := { g with queue := g.queue.map (fun o => if hit o then { o with passed := true } else o) }
  let t := s.tile tile
  s.setTile tile { t with xfm0 := mark t.xfm0, xfm1 := mark t.xfm1 }

/-- Every armed wait, record and copy on a semaphore re-evaluated after an operation on it (R148, R229, R326). -/
def State.semWake (s0 : State) (tile core sel : Nat) : State :=
  let s := s0.passRecords tile core sel
  let s1 := (s.waiters tile core sel).foldl (State.wake1 tile core sel) (s.nudge tile)
  let engs := Eng.tile tile :: (if sel < 64 then [Eng.core tile core] else (List.range 8).map (Eng.core tile))
  (engs.foldl (fun s e => s.wakeCopies e tile core sel) s1).relend tile

/-- A semaphore set to a value at its next place in the order (R147). -/
def State.semSet (s : State) (tile core sel : Nat) (v : BitVec 32) : State :=
  (s.setSem tile core sel { s.sem tile core sel with v := v }).semWake tile core sel
/-- A semaphore incremented (R147). -/
def State.semAdd (s : State) (tile core sel : Nat) (a : BitVec 32) : State :=
  s.semSet tile core sel ((s.sem tile core sel).v + a)

/-- What a release by the executing stream makes visible (R147, R173, R176): at core scope everything completed is
visible already; at tile scope and wider its core's accesses are performed at their homes. -/
def State.release (s : State) (scope : Nat) : State := if 2 ≤ scope then s.settle else s

/-! ## Tacks (R144) -/

/-- Take `n` tokens from peer `j`, or wait. -/
def tkwBody (j n : Nat) (s : State) : Eff :=
  let c := channel (peer s.cur.stream j) s.cur.stream
  if s.mySlot.tackCount c < n then .wait true s else .done (s.setMySlot (s.mySlot.takeTack c n))
/-- Push `n` tokens to peer `j`, or wait for room. -/
def tkpBody (j n : Nat) (s : State) : Eff :=
  let c := channel s.cur.stream (peer s.cur.stream j)
  if 16 < s.mySlot.tackCount c + n then .wait true s else .done (s.setMySlot (s.mySlot.addTack c n))

def execTkw (j : BitVec 2) (n1 : BitVec 3) (t : Tack) (s : State) : Out :=
  issueX 4 t (tkwBody j.toNat (n1.toNat + 1)) s
def execTkp (j : BitVec 2) (n1 : BitVec 3) (t : Tack) (s : State) : Out :=
  issueX 4 t (tkpBody j.toNat (n1.toNat + 1)) s

/-! ## Semaphores (R146 to R149) -/

/-- The scope of a semaphore (R145): core, or tile. -/
def selScope (sel : Nat) : Nat := if sel < 64 then 1 else 2
/-- The low half of a register. -/
def State.x32 (s : State) (r : Reg) : BitVec 32 := (s.x r).setWidth 32

/-- SEMW (R148): complete at once when it passes, else arm. -/
def execSemw (d a : Reg) (sel : BitVec 9) (t : Tack) (s : State) : Out :=
  issueX 4 t (fun s =>
    let n := sel.toNat
    if selBad n then .trap (selFault n) s
    else if semPasses (s.sem s.cur.tile s.cur.core n).v (s.x32 a) then .done (s.setX d 0)
    else .wait false ((s.setMe { s.me with wait := some (.semw n (s.x32 a) d t) }).relend s.cur.tile)) s

/-- SEMA (R147): the old value to xD, then the sum, as a release. -/
def execSema (d a : Reg) (sel : BitVec 9) (t : Tack) (s : State) : Out :=
  issueX 4 t (fun s =>
    let n := sel.toNat
    if selBad n then .trap (selFault n) s
    else
      let s1 := s.release (selScope n)
      let old := (s1.sem s.cur.tile s.cur.core n).v
      let v := s.x32 a
      .done ((s1.setX d (old.setWidth 64)).semAdd s.cur.tile s.cur.core n v)) s

/-- SEMS (R147). -/
def execSems (a : Reg) (sel : BitVec 9) (t : Tack) (s : State) : Out :=
  issueX 4 t (fun s =>
    let n := sel.toNat
    if selBad n then .trap (selFault n) s
    else .done ((s.release (selScope n)).semSet s.cur.tile s.cur.core n (s.x32 a))) s

/-- SEMO (R147): the signaller record; an operation on the semaphore (R163). -/
def execSemo (sel : BitVec 9) (t : Tack) (s : State) : Out :=
  issueX 4 t (fun s =>
    let n := sel.toNat
    if selBad n then .trap (selFault n) s
    else .done ((s.setSem s.cur.tile s.cur.core n
      { s.sem s.cur.tile s.cur.core n with sig := some (s.cur.core, s.cur.slot) }).semWake s.cur.tile s.cur.core n)) s

/-- SEMRD (R147). -/
def execSemrd (d : Reg) (sel : BitVec 9) (t : Tack) (s : State) : Out :=
  issueX 4 t (fun s =>
    let n := sel.toNat
    if selBad n then .trap (selFault n) s
    else .done (s.setX d ((s.sem s.cur.tile s.cur.core n).v.setWidth 64))) s

/-- SEMWA (R149): all ones for an empty mask, the least satisfied entry, else arm on every masked entry. -/
def execSemwa (d a b : Reg) (f : BitVec 3) (t : Tack) (s : State) : Out :=
  issue 4 t (fun s =>
    let mask := s.x b
    if mask = 0 then .done (s.setX d (BitVec.allOnes 64))
    else match s.windowPass s.cur.tile s.cur.core f.toNat mask (s.x32 a) with
      | some k => .done (s.setX d (BitVec.ofNat 64 k))
      | none => .wait false ((s.setMe { s.me with wait := some (.semwa f.toNat mask (s.x32 a) d t) }).relend s.cur.tile)) s

/-! ## Fences, acquires, persistence points (R150 to R154) -/

/-- The stream has reductions at memory that are accepted and not performed (R211). -/
def State.reductionsPending (s : State) (stream : Nat) : Bool :=
  s.tiles.any (fun e => e.2.reds.any (fun r => decide (r.source = stream)))

/-- What a FENCE of a scope waits for (R151, R211): the stream's reductions, and at tile scope and wider its
stores. -/
def State.fencePending (s : State) (scope : Nat) : Bool :=
  s.reductionsPending s.cur.streamK || (decide (2 ≤ scope) && s.storesPending s.cur.coreK s.cur.lane)

/-- FENCE (R151). -/
def execFence (scope : BitVec 3) (t : Tack) (s : State) : Out :=
  issueX 4 t (fun s => if s.fencePending scope.toNat then .wait false s else .done s) s

/-- REL (R151, R176): everything the core has completed is performed, at tile scope and wider, before any later write
or signal of the stream (DESIGN CHOICE, log 8: at the REL itself). -/
def execRel (scope : BitVec 3) (t : Tack) (s : State) : Out :=
  issueX 4 t (fun s => .done (s.release scope.toNat)) s

/-- ACQ (R152): the whole L1. -/
def execAcq (t : Tack) (s : State) : Out := issue 4 t (fun s => .done (s.dropL1 s.cur.coreK)) s

/-- The byte ranges past BASE that `d` units of a window from unit `off` occupy, clipped to it (R152). -/
def Handle.unitRanges (h : Handle) (off : Int) (d : Nat) : List (Nat × Nat) :=
  let lo := max off 0
  let hi := min (off + d) h.bound
  if hi ≤ lo then []
  else
    let a := h.wstart + lo.toNat
    let n := (hi - lo).toNat
    if isPB h.type then
      (List.range ((a + n - 1) / 768 - a / 768 + 1)).flatMap (fun i => groupRanges h.groups (a / 768 + i) (pbPlies h.type))
    else if elemUnit h.type then
      let w := typeWidth h.type
      [(a * w / 8, ((a + n) * w + 7) / 8 - a * w / 8)]
    else [(a, n)]

/-- The flat runs of `n` bytes from a virtual address, page by page, unmapped pages left out (R209). -/
def State.mappedRuns (s : State) (v : View) : Nat → Nat → Nat → List (Nat × Nat)
  | 0, _, _ => []
  | fuel + 1, va, n =>
    if n = 0 then []
    else
      let len := min n (65536 - va % 65536)
      (match (s.translate v.place.tile v.key va).1 with
        | some (e, sh) => [(leafPa e sh va, len)]
        | none => []) ++ State.mappedRuns s v fuel ((va + len) % 2 ^ 56) (n - len)

/-- The flat runs of the ranges of a view. -/
def State.flatRanges (s : State) (v : View) (rs : List (Nat × Nat)) : List (Nat × Nat) :=
  rs.flatMap (fun r =>
    if direct v.space then [(spaceAddr v.place v.space (v.base + r.1), r.2)]
    else s.mappedRuns v (r.2 / 65536 + 2) ((v.base + r.1) % 2 ^ 56) r.2)

/-- Lines of the runs dropped from a core's L1. -/
def State.dropRuns (s : State) (core : Nat) (rs : List (Nat × Nat)) : State :=
  rs.foldl (fun s r => s.dropLines core r.1 r.2) s

/-- ACQ.R (R152): the lines of `d` units of a window. -/
def execAcqR (d : Reg) (m : MemOp) (t : Tack) (s : State) : Out :=
  issueX 4 t (fun s =>
    let h := s.h m.h
    let v := h.view s.cur m.h.toNat
    .done (s.dropRuns s.cur.coreK (s.flatRanges v (h.unitRanges (s.offM m) (s.x d).toNat)))) s

/-- Retained memory (R153): near memory and the base scratchpad. -/
def retainedHome (a : Nat) : Bool := decide (a < 2 ^ 52) || decide (a / 2 ^ 52 = 1 + kBase)
/-- What PFEN.RETAIN waits for: the stream's stores and reductions to retained memory. -/
def State.retainPending (s : State) : Bool :=
  (s.auxOf s.cur.coreK).stores.any (fun e => decide (e.stream = s.cur.lane) && retainedHome (e.bit / 8)) ||
    s.tiles.any (fun e => e.2.reds.any (fun r => decide (r.source = s.cur.streamK) && retainedHome r.addr))

/-- PFEN.RETAIN (R153). -/
def execPfenRetain (t : Tack) (s : State) : Out :=
  issueX 4 t (fun s => if s.retainPending then .wait false s else .done s) s

/-- A lining point requested for a core (R154, R380): the number its commit will carry. -/
def State.askLining (s : State) (tile core : Nat) : BitVec 32 × State :=
  let k := coreKey tile core
  let x := s.auxOf k
  let draining := ((Tab.get {} k s.linings).drain).isSome
  let n := (s.core k).lpseq + (if draining then 2 else 1)
  if x.liningAsked then (n, s)
  else (n, (s.setAux k { x with liningAsked := true }).later (.liningCapture tile core))

/-- PFEN.LINING (R153): requests a point, then waits for the commit that captured it. -/
def execPfenLining (t : Tack) (s : State) : Out :=
  issueX 4 t (fun s =>
    match s.me.wait with
    | some (.lining n _) =>
      if semPasses s.myCore.lpseq (BitVec.ofNat 32 n) then .done s else .wait false s
    | _ =>
      let r := s.askLining s.cur.tile s.cur.core
      .wait false (r.2.setMe { r.2.me with wait := some (.lining r.1.toNat t) })) s

/-- LINEPT (R154). -/
def execLinept (d : Reg) (t : Tack) (s : State) : Out :=
  issueX 4 t (fun s =>
    let r := s.askLining s.cur.tile s.cur.core
    .done (r.2.setX d (r.1.setWidth 64))) s

/-! ## Time, identity, priority (R155) -/

/-- SELFID of a place (R47). -/
def selfId (module : Nat) (p : Place) : Word :=
  BitVec.ofNat 64 (module % 64 * 2 ^ 12 + p.tile % 16 * 2 ^ 8 + p.core * 2 ^ 5 + p.slot * 2 ^ 3 + p.stream)

def execRdcyc (d : Reg) (t : Tack) (s : State) : Out :=
  issue 4 t (fun s => .done (s.setX d (BitVec.ofNat 64 (s.cycle s.cur.coreK)))) s
def execRdcycS (d : Reg) (t : Tack) (s : State) : Out :=
  issue 4 t (fun s => .done (s.setX d (BitVec.ofNat 64 s.stitch))) s
def execRdid (d : Reg) (t : Tack) (s : State) : Out :=
  issue 4 t (fun s => .done (s.setX d (selfId s.module s.cur))) s
/-- PRIO (R155): min(a, CAP) on all 64 bits; EFF recomputed at once (R51). -/
def execPrio (d a : Reg) (t : Tack) (s : State) : Out :=
  issue 4 t (fun s =>
    let r := s.mySlot.regs
    .done (((s.setRegs s.cur.slotK { r with base := min (s.x a).toNat r.cap }).setX d (BitVec.ofNat 64 r.base)).relend s.cur.tile)) s

end Sys2Proof.Machine
end

