-- ==== Sys2Proof/Machine/Atomic.lean ====
section
/-!
DEFINITION. Atomics and the reductions of streams (R179 to R182, R210 to R212).
-/
namespace Sys2Proof.Machine

/-! ## Atomics (R210) -/

/-- Types of the integer atomics. -/
def atomicInts : List Nat := [0x02, 0x03, 0x06, 0x07]
/-- The operand width of an atomic's type. -/
def atomicW (type : Nat) : Nat := if type = 3 ∨ type = 7 then 64 else 32

/-- What an atomic or a reduction asks of its operand. -/
def Handle.atomicWant (h : Handle) (off : Int) (types : List Nat) (red : Bool) : Want :=
  let n := atomicW h.type / 8
  { acc := if red then .reduce else .atomic, spaces := [1, 2, 3, 4], pr := !red, pw := false, pa := true
    typeOk := types.contains h.type, align := n, n := n, ranges := [((h.wstart + off).toNat, n)] }

/-- The old value as xD receives it: SExt for the I types. -/
def oldWord (type old : Nat) : Word := if type = 2 ∨ type = 3 then word (sext (atomicW type) old) else BitVec.ofNat 64 old

/-- An atomic: `f` gives the new value (none: no write) and flags, from the type, the old value and the two
register operands. -/
def atomicBody (types : List Nat) (f : Nat → Nat → Nat → Nat → Option Nat × Nat) (d : Reg) (m : MemOp) (s : State) : Eff :=
  let h := s.h m.h
  let off := s.offM m
  (s.checkMem h m.h.toNat off (h.atomicWant off types false)).andThen fun segs _ s =>
    let s1 := s.settle
    let a := firstAddr segs
    let w := atomicW h.type
    let old := s1.mem.readNat a (w / 8)
    let r := f h.type old ((s.x d).toNat % 2 ^ w) ((s.x (d + 1)).toNat % 2 ^ w)
    let s2 := match r.1 with
      | some v => { s1 with mem := s1.mem.writeNat a (w / 8) v }
      | none => s1
    .done (((s2.dropLines s.cur.coreK a (w / 8)).setX d (oldWord h.type old)).raise r.2)

/-- An integer atomic: no flag, always writes. -/
def atomicInt (f : Nat → Nat → Nat → Nat) : Nat → Nat → Nat → Nat → Option Nat × Nat :=
  fun type old v _ => (some (f type old v % 2 ^ atomicW type), 0)
/-- A signed or unsigned minimum or maximum of the operand width (R210). -/
def pickW (signed isMax : Bool) (type a b : Nat) : Nat :=
  let x : Int := if signed then sext (atomicW type) a else a
  let y : Int := if signed then sext (atomicW type) b else b
  if isMax then (if x < y then b else a) else (if y < x then b else a)

def execAadd (d : Reg) (m : MemOp) (_f : BitVec 3) (t : Tack) (s : State) : Out :=
  issueX 4 t (atomicBody atomicInts (atomicInt (fun _ o v => o + v)) d m) s
def execAmin (d : Reg) (m : MemOp) (_f : BitVec 3) (t : Tack) (s : State) : Out :=
  issueX 4 t (atomicBody atomicInts (atomicInt (pickW true false)) d m) s
def execAmax (d : Reg) (m : MemOp) (_f : BitVec 3) (t : Tack) (s : State) : Out :=
  issueX 4 t (atomicBody atomicInts (atomicInt (pickW true true)) d m) s
def execAminu (d : Reg) (m : MemOp) (_f : BitVec 3) (t : Tack) (s : State) : Out :=
  issueX 4 t (atomicBody atomicInts (atomicInt (pickW false false)) d m) s
def execAmaxu (d : Reg) (m : MemOp) (_f : BitVec 3) (t : Tack) (s : State) : Out :=
  issueX 4 t (atomicBody atomicInts (atomicInt (pickW false true)) d m) s
def execAand (d : Reg) (m : MemOp) (_f : BitVec 3) (t : Tack) (s : State) : Out :=
  issueX 4 t (atomicBody atomicInts (atomicInt (fun _ o v => Nat.land o v)) d m) s
def execAor (d : Reg) (m : MemOp) (_f : BitVec 3) (t : Tack) (s : State) : Out :=
  issueX 4 t (atomicBody atomicInts (atomicInt (fun _ o v => Nat.lor o v)) d m) s
def execAxor (d : Reg) (m : MemOp) (_f : BitVec 3) (t : Tack) (s : State) : Out :=
  issueX 4 t (atomicBody atomicInts (atomicInt (fun _ o v => Nat.xor o v)) d m) s
def execAxch (d : Reg) (m : MemOp) (_f : BitVec 3) (t : Tack) (s : State) : Out :=
  issueX 4 t (atomicBody (0x0A :: atomicInts) (atomicInt (fun _ _ v => v)) d m) s
/-- ACAS compares bitwise and, when it fails, writes nothing (R210). -/
def execAcas (d : Reg) (m : MemOp) (_f : BitVec 3) (t : Tack) (s : State) : Out :=
  issueX 4 t (atomicBody (0x0A :: atomicInts) (fun _ o v w => (if o = v then some w else none, 0)) d m) s
def execAfadd (d : Reg) (m : MemOp) (_f : BitVec 3) (t : Tack) (s : State) : Out :=
  issueX 4 t (atomicBody [0x0A] (fun _ o v _ => let r := fAdd fp32 0 o v; (some r.1, r.2)) d m) s
def execAinc (d : Reg) (m : MemOp) (_f : BitVec 3) (t : Tack) (s : State) : Out :=
  issueX 4 t (atomicBody atomicInts (atomicInt (fun _ o v => if v ≤ o then 0 else o + 1)) d m) s

/-- A reduction: accepted at its home, performed later (R211). -/
def reductionBody (types : List Nat) (rop : Nat) (d : Reg) (m : MemOp) (s : State) : Eff :=
  let h := s.h m.h
  let off := s.offM m
  (s.checkMem h m.h.toNat off (h.atomicWant off types true)).andThen fun segs _ s =>
    let a := firstAddr segs
    let w := atomicW h.type
    let s1 := (s.drainCore s.cur.coreK).dropLines s.cur.coreK a (w / 8)
    .done (s1.sendReduction s.cur.coreK s.cur.streamK s.cur a 0 h.type rop ((s.x d).toNat % 2 ^ w)
      ((s.mySlot.task.map (·.id)).getD 0) (BitVec.ofNat 64 ((h.base + (h.wstart + off).toNat) % 2 ^ 56)) h.space)

def execRedadd (d : Reg) (m : MemOp) (_f : BitVec 3) (t : Tack) (s : State) : Out :=
  issueX 4 t (reductionBody atomicInts 1 d m) s
def execRedfadd (d : Reg) (m : MemOp) (_f : BitVec 3) (t : Tack) (s : State) : Out :=
  issueX 4 t (reductionBody [0x0A] 1 d m) s
def execRedmin (d : Reg) (m : MemOp) (_f : BitVec 3) (t : Tack) (s : State) : Out :=
  issueX 4 t (reductionBody (0x0A :: atomicInts) 2 d m) s
def execRedmax (d : Reg) (m : MemOp) (_f : BitVec 3) (t : Tack) (s : State) : Out :=
  issueX 4 t (reductionBody (0x0A :: atomicInts) 3 d m) s

end Sys2Proof.Machine
end

