-- ==== Sys2Proof/Machine/Bobbin.lean ====
section
/-!
DEFINITION. Bobbins (R25, R26, R213 to R217, R479).
-/
namespace Sys2Proof.Machine

/-- A bobbin of a core; the thimble core has none (R447), and each of its sixteen reads as one with no slots (DEDUCED,
log 82). -/
def State.bobbin (s : State) (core b : Nat) : Bobbin :=
  if core < 128 then Tab.get {} b (s.core core).bobbins else { ssize := 0, scount := 0 }
def State.setBobbin (s : State) (core b : Nat) (v : Bobbin) : State :=
  let c := s.core core
  s.setCore core { c with bobbins := Tab.set {} b v c.bobbins }

/-- used, ready and Slot(c) of R216. -/
def Bobbin.used (b : Bobbin) : Nat := (b.claim - b.head).toNat
def Bobbin.ready (b : Bobbin) : Nat := (b.fill - b.head).toNat
def Bobbin.slot (b : Bobbin) (c : BitVec 32) : Nat := b.base + b.ssize * (c.toNat % b.scount)

/-- A claim: the slot and the bobbin after it; none when the ring is full (R216). -/
def Bobbin.claimSlot (b : Bobbin) : Option (Nat × Bobbin) :=
  if b.used < b.scount then some (b.slot b.claim, { b with claim := b.claim + 1 }) else none

/-- FILL moved over the published slots in claim order (R216). -/
def Bobbin.advanceFill : Nat → Bobbin → Bobbin
  | 0, b => b
  | n + 1, b =>
    if b.fill ≠ b.claim ∧ b.pubv.getLsbD (b.fill.toNat % b.scount) then Bobbin.advanceFill n { b with fill := b.fill + 1 }
    else b
/-- Slot `k` published. -/
def Bobbin.publish (b : Bobbin) (k : Nat) : Bobbin :=
  Bobbin.advanceFill 256 { b with pubv := b.pubv ||| BitVec.ofNat 256 (2 ^ k) }
/-- BBPUB's requirement on slot `k`: claimed, not yet filled, not yet published. -/
def Bobbin.mayPublish (b : Bobbin) (k : Nat) : Bool :=
  !b.pubv.getLsbD k &&
    (List.range (min (b.claim - b.fill).toNat 256)).any (fun i => decide ((b.fill + BitVec.ofNat 32 i).toNat % b.scount = k))
/-- `n` slots released from HEAD. -/
def Bobbin.release (b : Bobbin) (n : Nat) : Bobbin :=
  { b with
    pubv := (List.range n).foldl (fun v i => v &&& ~~~(BitVec.ofNat 256 (2 ^ ((b.head + BitVec.ofNat 32 i).toNat % b.scount)))) b.pubv
    head := b.head + BitVec.ofNat 32 n }

/-- BBINIT's configuration word: BASE, SSIZE, SCOUNT (R215). -/
def bobConfig (w : Word) : Nat × Nat × Nat :=
  (bits w 0 23, if bits w 23 16 = 0 then 65536 else bits w 23 16, bits w 39 9)
/-- The bobbin's configuration in that layout (R217). -/
def Bobbin.config (b : Bobbin) : Nat := b.scount * 2 ^ 39 + b.ssize % 65536 * 2 ^ 23 + b.base
/-- BBQRY's views (R217). -/
def Bobbin.view (b : Bobbin) (f : Nat) : Word :=
  match f with
  | 0 => BitVec.ofNat 64 b.config
  | 1 => b.head.setWidth 64
  | 2 => b.claim.setWidth 64
  | 3 => b.fill.setWidth 64
  | n => BitVec.ofNat 64 (b.pubv.toNat / 2 ^ (64 * (n - 4)))

/-- A failed requirement: bounds, TINFO2 = b (R216). -/
def bobBad (b : Word) : Event := Event.mk' 0x01 0 0 b

def execBbclm (d : Reg) (bob : BitVec 4) (nw : Bool) (t : Tack) (s : State) : Out :=
  issue 4 t (fun s =>
    match (s.bobbin s.cur.coreK bob.toNat).claimSlot with
    | some (a, b) => .done ((s.setBobbin s.cur.coreK bob.toNat b).setX d (BitVec.ofNat 64 a))
    | none => if nw then .done (s.setX d (BitVec.allOnes 64)) else .wait false s) s

def execBbwe (d : Reg) (bob : BitVec 4) (nw : Bool) (t : Tack) (s : State) : Out :=
  issue 4 t (fun s =>
    let b := s.bobbin s.cur.coreK bob.toNat
    if b.used < b.scount ∨ nw then .done (s.setX d (BitVec.ofNat 64 (b.scount - b.used))) else .wait false s) s

def execBbpub (bob : BitVec 4) (b : Reg) (t : Tack) (s : State) : Out :=
  issue 4 t (fun s =>
    let q := s.bobbin s.cur.coreK bob.toNat
    let v := (s.x b).toNat
    let k := (v - q.base) / q.ssize
    if v < q.base ∨ (v - q.base) % q.ssize ≠ 0 ∨ q.scount ≤ k ∨ !q.mayPublish k then .trap (bobBad (s.x b)) s
    else .done (s.setBobbin s.cur.coreK bob.toNat (q.publish k))) s

/-- BBWF; with .NW and b at or above SCOUNT stepping B1 writes all ones (R479). -/
def execBbwf (d : Reg) (bob : BitVec 4) (b : Reg) (nw : Bool) (t : Tack) (s : State) : Out :=
  issue 4 t (fun s =>
    let q := s.bobbin s.cur.coreK bob.toNat
    let v := (s.x b).toNat
    if q.scount ≤ v then
      if nw then .done (s.setX d (BitVec.allOnes 64)) else .trap (bobBad (s.x b)) s
    else if v < q.ready then .done (s.setX d (BitVec.ofNat 64 (q.slot (q.head + BitVec.ofNat 32 v))))
    else if nw then .done (s.setX d (BitVec.allOnes 64)) else .wait false s) s

def execBbrel (bob : BitVec 4) (b : Reg) (t : Tack) (s : State) : Out :=
  issue 4 t (fun s =>
    let q := s.bobbin s.cur.coreK bob.toNat
    let v := (s.x b).toNat
    if q.ready < v then .trap (bobBad (s.x b)) s
    else .done (s.setBobbin s.cur.coreK bob.toNat (q.release v))) s

/-- BBINIT (R215, R26). The thimble core has no bobbins (R447): none there can be initialised, since no ring lies in a
scratchpad it has (DEDUCED, log 82). -/
def execBbinit (bob : BitVec 4) (b : Reg) (t : Tack) (s : State) : Out :=
  issue 4 t (fun s =>
    let (base, ssize, scount) := bobConfig (s.x b)
    if base % 64 ≠ 0 ∨ ssize % 64 ≠ 0 then .trap (Event.mk' 0x02 0 0 0) s
    else if scount = 0 ∨ 256 < scount ∨ 2 ^ 23 < base + ssize * scount ∨ s.cur.thimble then .trap (Event.mk' 0x01 0 0 0) s
    else .done (s.setBobbin s.cur.coreK bob.toNat
      { base := base, ssize := ssize, scount := scount, gen := (s.bobbin s.cur.coreK bob.toNat).gen + 1 })) s

def execBbqry (d : Reg) (bob : BitVec 4) (f : BitVec 3) (t : Tack) (s : State) : Out :=
  issue 4 t (fun s => .done (s.setX d ((s.bobbin s.cur.coreK bob.toNat).view f.toNat))) s

end Sys2Proof.Machine
end

