-- ==== Sys2Proof/Machine/Control.lean ====
section
/-!
DEFINITION. Blocks, control transfer, stream lifetime and task retirement (R59, R111 to R118, R137 to R143).
-/
namespace Sys2Proof.Machine

/-- NOP and hints: only the tack operations (R109, R137). -/
def execNop (t : Tack) (s : State) : Out := issue 4 t (fun s => .done s) s
def execHint (_n : BitVec 5) (_imm : BitVec 21) (t : Tack) (s : State) : Out := issue 4 t (fun s => .done s) s

/-! ## Headers and EXT (R105, R113) -/

/-- A header at the stream's program counter entered with a number of runs (R113). -/
def enterBlock (runs : Nat) (len : BitVec 9) (pp wp : BitVec 2) (s : State) : Out :=
  let st := { s.me with ext := none, block := none, blocked := false, stalled := none, ready := none, issued := s.clock }
  let start := (st.pc + 4) &&& 0x00FFFFFFFFFFFFFF
  let stop := (start + BitVec.ofNat 64 (2 * len.toNat)) &&& 0x00FFFFFFFFFFFFFF
  if runs = 0 then .next (s.setMe { st with pc := stop })
  else .next (s.setMe { st with
    pc := start, block := some ⟨st.pc, start, stop, runs, wp.toNat, pp.toNat⟩ })

/-- A pending push is done before a stream issues anything (R119); a full channel holds it. -/
def afterPush (k : State → Out) (s : State) : Out :=
  match s.me.push with
  | [] => k s
  | _ :: _ =>
    let s1 := s.flushPush s.cur
    if s1.me.push ≠ [] then .next (s1.blocked s.cur true) else k s1

def execBlk (rep : BitVec 6) (len : BitVec 9) (pp wp : BitVec 2) (s : State) : Out :=
  afterPush (enterBlock (rep.toNat + 1) len pp wp) s
/-- BLKX reads its count once, here (R113). -/
def execBlkx (creg : Reg) (len : BitVec 9) (pp wp : BitVec 2) (s : State) : Out :=
  afterPush (fun s => enterBlock (s.x creg).toNat len pp wp s) s

/-- EXT (R105): held for the next word of the body; dropped when it is the body's last word. -/
def execExt (imm : BitVec 23) (s : State) : Out :=
  afterPush (fun s =>
    let st := s.me
    let st' := { st.advance 4 with ext := none, blocked := false, stalled := none, ready := none, issued := s.clock }
    let last := match st.block with | some b => decide ((st.pc + 4) &&& 0x00FFFFFFFFFFFFFF = b.stop) | none => false
    .next (s.setMe (if last then st' else { st' with ext := some imm }))) s

/-! ## Branches (R115, R138) -/

/-- A transfer's landing: the landing word is fetched and must be a header (R115). -/
def land (target : Word) (k : State → State) (s : State) : Eff :=
  match s.fetchWord s.cur.tile s.cur.stream target.toNat with
  | (.fault c, s1) =>
    if c = 5 then .trap { code := 5, info0 := target } s1
    else
      let r := s1.streamFault s.cur target.toNat
      if r.1 then .trap { code := c, info0 := target } r.2 else .wait false r.2
  | (.ok bs, s1) => if isHeader bs then .goto target (k s1) else .trap { code := 6, info0 := target } s1

/-- A relative target: PC + 2 × imm, within 56 bits (R18, R138). -/
def State.relTarget (s : State) (off : Int) : Word := (s.me.pc + word (2 * off)) &&& 0x00FFFFFFFFFFFFFF

/-- BRX and RET check their target before its landing word is fetched (R138). -/
def landReg (target : Word) (s : State) : Eff :=
  if target.getLsbD 0 then .trap { code := 2, info0 := target } s
  else if target >>> 56 ≠ 0 then .trap { code := 3, info0 := target } s
  else land target id s

def execBr (off : BitVec 15) (t : Tack) (s : State) : Out :=
  issueX 4 t (fun s => land (s.relTarget (s.immJ off)) id s) s
def execBz (a : Reg) (off : BitVec 15) (t : Tack) (s : State) : Out :=
  issueX 4 t (fun s => if s.x a = 0 then land (s.relTarget (s.immJ off)) id s else .done s) s
def execBnz (a : Reg) (off : BitVec 15) (t : Tack) (s : State) : Out :=
  issueX 4 t (fun s => if s.x a ≠ 0 then land (s.relTarget (s.immJ off)) id s else .done s) s
def execBrx (a : Reg) (t : Tack) (s : State) : Out := issue 4 t (fun s => landReg (s.x a) s) s
/-- The address of the block after the present one (R116). -/
def Stream.bodyEnd (st : Stream) : Word := match st.block with | some b => b.stop | none => st.pc + 4
/-- CALL writes x63 := bodyEnd only when its landing is good (R115, R116). -/
def execCall (off : BitVec 15) (t : Tack) (s : State) : Out :=
  issueX 4 t (fun s => land (s.relTarget (s.immJ off)) (fun s => s.setX 63 s.me.bodyEnd) s) s
def execRetB (t : Tack) (s : State) : Out := issue 4 t (fun s => landReg (s.x 63) s) s

/-! ## Ending (R59, R139, R358) -/

/-- The walker's account of a retired iteration; DONE when every record has retired all (R358). -/
def WalkRec.total (r : WalkRec) : Nat := r.ext.foldl (· * ·) 1
def Walker.allRetired (w : Walker) : Bool :=
  w.recs.all (fun r => !r.bad && decide (r.next = r.total) && decide (r.retired = r.total))
def State.noteRetired (s : State) (t : Task) : State :=
  let tl := s.tile t.tile
  let recs := tl.walker.recs.map (fun r => if r.index = t.recIdx ∧ t.gen = tl.walker.gen then { r with retired := r.retired + 1 } else r)
  let w := { tl.walker with recs := recs }
  if w.allRetired && !w.done then
    (s.setTile t.tile { tl with walker := { w with done := true } }).report .thimble { code := 0 } t.tile 0
  else s.setTile t.tile { tl with walker := w }

/-- The bytes of a copy record's STATUS, ZCOUNT and DONE written into the issuing core's scratchpad (R218). -/
def State.writeStatus (s : State) (o : CopyOp) (status : Nat) : State :=
  match o.recOff with
  | none => s
  | some r =>
    let a := spaceAddr o.place 1 r
    { s with mem := ((s.mem.writeNat (a + 108) 4 status).writeNat (a + 112) 4 o.zeroed.length).writeNat (a + 120) 8 o.done }

def Pattern.sfv (p : Pattern) : Bool := bitN p.flags 3
def Pattern.dvv (p : Pattern) : Bool := bitN p.flags 4

/-- An engine operation ends (R224, R225): STATUS, the increments still to be made, and its place freed. -/
def State.closeCopy (s : State) (e : Eng) (o : CopyOp) (status : Nat) : State :=
  let g := s.engine e
  let s1 := s.setEngine e { g with ops := g.ops.filter (fun x => x.id ≠ o.id) }
  let s2 := s1.writeStatus o status
  let s3 := if o.pat.sfv && !o.freed then s2.semAdd o.place.tile o.place.core o.pat.sfsel o.pat.sfinc else s2
  if o.pat.dvv then s3.semAdd o.place.tile o.place.core o.pat.dvsel o.pat.dvinc else s3

/-- The paused operations of a task: their engines and numbers (R221, R372). -/
def State.pausedOf (s : State) (tile task : Nat) : List (Eng × Nat) :=
  (Eng.tile tile :: (List.range 8).map (Eng.core tile)).flatMap (fun e =>
    ((s.engine e).ops.filter (fun o => decide (o.task = task) && o.paused.isSome)).map (fun o => (e, o.id)))

/-- The paused copies of a task that ends (R221): status 0x07, both increments, an asynchronous 0x0E. -/
def State.closeFaulted (s : State) (k : Nat) (f : Eng × Nat) : State :=
  match (s.engine f.1).ops.find? (fun o => o.id = f.2) with
  | none => s
  | some o =>
    let s1 := s.closeCopy f.1 o 0x07
    match o.paused with
    | some e => s1.routeTask (k / 32) o.task e
    | none => s1

/-- The slot's task ends: its paused copies end, its pending-fault entries are released (R221, R345), its waiting
events go to the supervisor slot (R364), and the slot holds no task (R59, R368). -/
def State.dropTask (s : State) (k : Nat) : State :=
  let sl := s.slot k
  let s1 := s.releasePend k
  let s2 := s1.setSlot k { s1.slot k with
    mode := .free, frozen := false, task := none, faults := [], delivered := none, fifo := []
    regs := { (s1.slot k).regs with super := false, preq := false } }
  let s2 := { s2 with hub := { s2.hub with preempts := Tab.erase k s2.hub.preempts } }
  let s2 := sl.fifo.foldl (fun s e => s.postSuper (k / 32) k e) s2
  let l := (match sl.delivered with | some d => [d] | none => []) ++ sl.faults
  let rest := (s.pausedOf (k / 32) ((sl.task.map (·.id)).getD 0)).filter (fun f => !l.contains f)
  ((l ++ rest).foldl (fun s f => s.closeFaulted k f) s2).nudge (k / 32)

/-- A management procedure ends with a result (R448, R449): its task's paused copies and pending-fault entries end with
it (R221, R345), and the thimble core's slot is free. -/
def State.endProcedure (s : State) (result : Nat) : State :=
  let s1 := (s.setStream 2560 { s.stream 2560 with ended := true, wait := none, blocked := false }).dropTask 512
  { s1 with hub := { s1.hub with results := result :: s1.hub.results } }

/-- Retirement (R59): the done increment, as a release, then the slot is FREE. A management procedure's end
hands x2 to the firmware dispatcher (R448). -/
def State.retireTask (s : State) (k : Nat) : State :=
  let s1 := (List.range 5).foldl (fun s f => s.setStream (5 * k + f) { s.stream (5 * k + f) with ended := true, wait := none }) s
  if k = 512 then s1.endProcedure ((s1.stream 2560).getX 2#6).toNat
  else
    match (s1.slot k).task with
    | none => s1.dropTask k
    | some t =>
      let s2 := match t.done with
        | some (sel, core, inc) =>
          (if 256 ≤ sel then s1.settleCore (k / 4) else s1).semAdd (k / 32) core sel inc
        | none => s1
      (s2.noteRetired t).dropTask k

/-- Streams of the slot that must end before the task retires: the thimble core's task has only C (R448). -/
def State.allEnded (s : State) (k : Nat) : Bool :=
  (if k = 512 then [0] else [0, 1, 2, 3, 4]).all (fun f => (s.stream (5 * k + f)).ended)

/-! ## Rendezvous (R140) -/

/-- Whether stream `f` of the slot is at the rendezvous or has ended. -/
def State.atRend (s : State) (k mask id f : Nat) : Bool :=
  (s.stream (5 * k + f)).ended ||
    (match (s.stream (5 * k + f)).wait with
      | some (.rend m i _) => decide (m = mask) && decide (i = id)
      | _ => false)

/-- Every other stream named by the mask is present. -/
def State.rendForms (s : State) (k f mask id : Nat) : Bool :=
  (List.range 5).all (fun g => decide (g = f) || !bitN mask g || s.atRend k mask id g)

/-- A waiting participant completes (R140): its W token is taken and its P bit pushes. -/
def State.rendDone (s : State) (q : Place) : State :=
  match (s.at q).wait with
  | some (.rend _ _ t) =>
    let s1 := if t.w then s.setSlot q.slotK ((s.slot q.slotK).takeTack (wChannel q.stream (s.at q)) 1) else s
    s1.retireAt q 4 t
  | _ => s

/-- Every waiting participant of a rendezvous completes in the same cycle. -/
def State.formRend (s : State) (k f mask id : Nat) : State :=
  ((List.range 5).filter (fun g => g ≠ f && bitN mask g && s.atRend k mask id g && !(s.stream (5 * k + g)).ended)).foldl
    (fun s g => s.rendDone (placeOfSlot k g)) s

/-- A stream of the slot waiting at a rendezvous that now forms, because another has ended. -/
def State.rendAfterEnd (s : State) (k : Nat) : State :=
  (List.range 5).foldl (fun s g =>
    match (s.stream (5 * k + g)).wait with
    | some (.rend m i _) =>
      if !(s.stream (5 * k + g)).ended && s.rendForms k g m i then
        (s.formRend k g m i).rendDone (placeOfSlot k g)
      else s
    | _ => s) s

/-- REND (R140). -/
def execRend (mask : BitVec 5) (id : BitVec 3) (t : Tack) (s : State) : Out :=
  issueX 4 t (fun s =>
    let k := s.cur.slotK
    let f := s.cur.stream
    let m := (mask ||| BitVec.ofNat 5 (2 ^ f)).toNat
    if s.rendForms k f m id.toNat then .done (s.formRend k f m id.toNat)
    else .wait true (s.setMe { s.me with wait := some (.rend m id.toNat t) })) s

/-- A stream ends; the C stream's END in supervisor mode ends every stream of the task (R139). -/
def endStream (s : State) : State :=
  let k := s.cur.slotK
  if s.super then
    (List.range 5).foldl (fun s f => s.setStream (5 * k + f) { s.stream (5 * k + f) with ended := true, wait := none }) s
  else s.setMe { s.me with ended := true }

/-- After an END has completed: rendezvous it lets form, and the task's retirement (R59, R140). -/
def afterEnd (k : Nat) (o : Out) : Out :=
  match o with
  | .next s =>
    if decide ((s.slot k).mode ≠ .free) && s.allEnded k then .next (s.retireTask k) else .next (s.rendAfterEnd k)
  | r => r

/-- END (R139). -/
def execEndS (t : Tack) (s : State) : Out :=
  afterEnd s.cur.slotK (issue 4 t (fun s => .done (endStream s)) s)

/-! ## YIELD, WAITC, TRAP, SYSC (R141 to R143) -/

/-- YIELD (R141, R360): the slot has now issued last, which is the last place in round robin at the next
arbitration. -/
def execYield (t : Tack) (s : State) : Out := issue 4 t (fun s => .done s) s

/-- The count WAITC looks at: CYCLE, or STITCH (R142). -/
def State.waitCount (s : State) (p : Place) (stitch : Bool) : Nat := if stitch then s.stitch else s.cycle p.coreK
/-- WAITC (R142): done when the count has reached d + n, else armed on that target. -/
def waitcBody (stitch : Bool) (d : Reg) (n : BitVec 14) (t : Tack) (s : State) : Eff :=
  let target := (s.x d + n.setWidth 64).toNat
  if target ≤ s.waitCount s.cur stitch then .done s
  else .wait false (s.setMe { s.me with wait := some (.until stitch target t) })
def execWaitc (d : Reg) (n : BitVec 14) (t : Tack) (s : State) : Out := issueX 4 t (waitcBody false d n t) s
def execWaitcS (d : Reg) (n : BitVec 14) (t : Tack) (s : State) : Out := issueX 4 t (waitcBody true d n t) s

/-- An armed WAITC completes once its target is reached (R142, R399). -/
def State.waitcReached (s : State) (q : Place) : State :=
  match (s.at q).wait with
  | some (.until stitch target t) =>
    if target ≤ s.waitCount q stitch then
      let s1 := if t.w then s.setSlot q.slotK ((s.slot q.slotK).takeTack (wChannel q.stream (s.at q)) 1) else s
      s1.retireAt q 4 t
    else s
  | _ => s
/-- WAITC_TARGET_REACHED (R142). -/
def execWaitcTargetReached (p : Place) (s : State) : Out := .next (s.waitcReached p)

/-- The event of TRAP or SYSC (R143): CAUX = imm[31:0], TINFO2 = d. -/
def softEvent (code imm : Nat) (d : Word) (f : Nat) : Event :=
  { code := code, stream := f, info1 := tinfo1 (imm % 2 ^ 32) 0 false false 0, info2 := d }

/-- TRAP and SYSC (R143; imm read as unsigned: DESIGN CHOICE, log 27) complete, then their event is routed and, at SLOT, delivered at once. In supervisor
mode either is a synchronous fault (R55); on the thimble core it ends the procedure (R449). -/
def softTrap (code : Nat) (d : Reg) (imm : BitVec 15) (t : Tack) (s : State) : Out :=
  let e := softEvent code (s.immU imm) (s.x d) s.cur.stream
  if s.super || s.cur.thimble then issueX 4 t (fun s => .trap e s) s
  else
    match issueX 4 t (fun s => .done s) s with
    | .next s1 =>
      if (s1.at s.cur).blocked then .next s1
      else
        let k := s.cur.slotK
        if s1.frtDest s.cur.tile code = 0 then
          .next (({ (s1.logRouted s.cur.tile e).setSlot k { s1.slot k with fifo := (s1.slot k).fifo ++ [e] } with turns := s1.turns }).deliverAsync k)
        else
          .next (s1.route s.cur.tile ((s1.slot k).task.map (·.id) |>.getD 0) e)
    | r => r

def execTrap (d : Reg) (imm : BitVec 15) (t : Tack) (s : State) : Out := softTrap 0x12 d imm t s
def execSysc (d : Reg) (imm : BitVec 15) (t : Tack) (s : State) : Out := softTrap 0x13 d imm t s

end Sys2Proof.Machine
end

