-- ==== Sys2Proof/Machine/Blocks.lean ====
section
/-!
DEFINITION. The lining's blocks: commit records and their places, what is dirty, and the writer with its budget (R10,
R377 to R379).
-/
namespace Sys2Proof.Machine

/-! ## What is lined (R56) -/

/-- The windows of a core's lined memories: slice, scratchpad, accumulator tiles, weight buffers. -/
def coreWindows (k : Nat) : List Nat :=
  [sram kSlice k 0, sram kScratch k 0, sram kAccum k 0, sram kWeight (2 * k) 0, sram kWeight (2 * k + 1) 0]
/-- The window of a tile's shared memory. -/
def tileWindows (t : Nat) : List Nat := [sram kShared t 0]
/-- Whether an address lies in one of the windows. -/
def inWindows (ws : List Nat) (a : Nat) : Bool := ws.any (fun w => decide (w ≤ a) && decide (a < w + 2 ^ 32))
/-- The bytes of some windows. -/
def Memory.within (m : Memory) (ws : List Nat) : Memory := m.filter (fun c => inWindows ws c.1)

def State.lining (s : State) (k : Nat) : Lining := Tab.get {} k s.linings
def State.setLining (s : State) (k : Nat) (v : Lining) : State := { s with linings := Tab.set {} k v s.linings }
def State.tileLining (s : State) (t : Nat) : TileLining := Tab.get {} t s.tileLinings
def State.setTileLining (s : State) (t : Nat) (v : TileLining) : State := { s with tileLinings := Tab.set {} t v s.tileLinings }

/-! ## Commit records (R377, R378) -/

/-- CRC-32C of bytes: the reflected polynomial 0x82F63B78, ones before and after. -/
def crcBit (c : Nat) : Nat := if c % 2 = 1 then (c / 2) ^^^ 0x82F63B78 else c / 2
def crcByte (c : Nat) (b : Byte) : Nat := (List.range 8).foldl (fun c _ => crcBit c) (c ^^^ b.toNat)
def crc32c (bs : List Byte) : Nat := bs.foldl crcByte 0xFFFFFFFF ^^^ 0xFFFFFFFF

/-- A commit record's 64 bytes; no rule gives the block map's form. -/
def CommitRecord.bytes (r : CommitRecord) : List Byte :=
  let b := leBytes 4 r.seq.toNat ++ leBytes 8 r.stitch ++ leBytes 4 r.mapAt.toNat ++ leBytes 44 0
  let crc := crc32c (b ++ Config.blockMap r.map)
  b ++ leBytes 4 (if r.good then crc else crc ^^^ 0xFFFFFFFF)
/-- A tile commit record's 64 bytes. -/
def TileRecord.bytes (r : TileRecord) : List Byte :=
  let b := r.lpseqs.flatMap (fun n => leBytes 4 n.toNat) ++ leBytes 4 r.tseq.toNat ++ leBytes 8 r.stitch ++ leBytes 16 0
  b ++ leBytes 4 (if r.good then crc32c b else crc32c b ^^^ 0xFFFFFFFF)

/-- The commit of a place, when its record is valid. -/
def validCommit {α : Type} (c : Option (Commit α)) : Option (Commit α) := c.filter (fun x => x.record.good)
/-- The first place holds the current commit: the valid record with the greater sequence number, compared as R148
compares. -/
def Places.firstCurrent {α : Type} (p : Places α) : Bool :=
  match validCommit p.first, validCommit p.second with
  | some a, some b => !semPasses b.record.seq a.record.seq
  | some _, none => true
  | none, _ => false
/-- The current commit. -/
def Places.current {α : Type} (p : Places α) : Option (Commit α) := if p.firstCurrent then p.first else validCommit p.second
/-- A commit written into the place that does not hold the current one. -/
def Places.put {α : Type} (p : Places α) (c : Commit α) : Places α :=
  if p.firstCurrent then { p with second := some c } else { p with first := some c }
def Lining.committed (l : Lining) : Option CoreSnap := l.places.current.map (·.snap)
def TileLining.committed (l : TileLining) : Option TileSnap := l.places.current.map (·.snap)

/-! ## Blocks (R377, R379) -/

/-- The 4 KiB block of an address; block 0 is the packed register-type state. -/
def blockOf (a : Nat) : Nat := a / 4096 + 1
/-- A block put in front of the rising list of those after it, unless it stands there. -/
def consBlock (b : Nat) (l : List Nat) : List Nat := if l.head? = some b then l else b :: l
/-- The blocks of the cells in which two memories differ, rising; `fuel` bounds their cells. -/
def cellsApart : Nat → Memory → Memory → List Nat
  | 0, _, _ => []
  | _ + 1, [], [] => []
  | f + 1, a :: r, [] => consBlock (blockOf a.1) (cellsApart f r [])
  | f + 1, [], b :: t => consBlock (blockOf b.1) (cellsApart f [] t)
  | f + 1, a :: r, b :: t =>
    if a.1 < b.1 then consBlock (blockOf a.1) (cellsApart f r (b :: t))
    else if b.1 < a.1 then consBlock (blockOf b.1) (cellsApart f (a :: r) t)
    else if a.2 = b.2 then cellsApart f r t else consBlock (blockOf a.1) (cellsApart f r t)
/-- The blocks in which two memories differ, rising. -/
def blocksApart (m n : Memory) : List Nat := cellsApart (m.length + n.length) m n
/-- A memory with one block's bytes from another. -/
def spliceBlock (src m : Memory) (b : Nat) : Memory :=
  m.filter (fun c => decide (blockOf c.1 < b)) ++ src.filter (fun c => decide (blockOf c.1 = b)) ++ m.filter (fun c => decide (b < blockOf c.1))
/-- The block map of the next commit: the blocks written since the current one are in their other copies. -/
def nextMap (old : List Nat) (written : List Nat) : List Nat :=
  old.filter (fun b => !written.contains b) ++ written.filter (fun b => !old.contains b)

/-- A commit of a core's capture (R377). -/
def Lining.commit (l : Lining) (k : Nat) (p : CoreSnap) : Lining :=
  let old := l.places.current
  let written := 0 :: blocksApart ((old.map (·.snap.mem)).getD []) p.mem
  { l with
    places := l.places.put ⟨{ seq := p.seq, stitch := p.stitch, mapAt := Config.mapAt k p.seq, map := nextMap ((old.map (·.record.map)).getD []) written }, p⟩
    work := p.mem }
/-- A commit of a tile's shared memory under the next TSEQ (R378). -/
def TileLining.commit (l : TileLining) (t : Nat) (tseq : BitVec 32) (p : TileSnap) : TileLining :=
  let old := l.places.current
  let written := 0 :: blocksApart ((old.map (·.snap.mem)).getD []) p.mem
  { l with
    places := l.places.put ⟨{ seq := tseq, stitch := p.stitch, mapAt := Config.mapAt (128 + t) tseq, map := nextMap ((old.map (·.record.map)).getD []) written }, p⟩
    work := p.mem }

/-- The contents of copy 0 or 1 of a block: what the latest commit whose map names that copy committed there. -/
def Places.blockCopy {α : Type} (mem : α → Memory) (p : Places α) (second : Bool) (b : Nat) : Memory :=
  let names (c : Option (Commit α)) : Option (Commit α) := c.filter (fun x => x.record.map.contains b == second)
  let c := if p.firstCurrent then (names p.first).or (names p.second) else (names p.second).or (names p.first)
  (c.map (fun x => (mem x.snap).filter (fun e => decide (blockOf e.1 = b)))).getD []

/-! ## The writer and the dirty budget (R379) -/

/-- The dirty blocks of a core's lined memories, and of a tile's shared memory. -/
def State.dirtyCore (s : State) (k : Nat) : List Nat := blocksApart (s.lining k).work (s.mem.within (coreWindows k))
def State.dirtyTile (s : State) (t : Nat) : List Nat := blocksApart (s.tileLining t).work (s.mem.within (tileWindows t))
/-- More than 2 MiB of a core, or more than 4 MiB of shared memory, is dirty. -/
def State.coreFull (s : State) (k : Nat) : Bool := decide (512 < (s.dirtyCore k).length)
def State.tileFull (s : State) (t : Nat) : Bool := decide (1024 < (s.dirtyTile t).length)
/-- Whether a block is of a tile's shared memory. -/
def blockShared (b : Nat) : Bool := decide ((b - 1) * 4096 / 2 ^ 52 = kShared + 1)
/-- The cores whose points may hold a lined block: its own, or every core of its tile for shared memory. -/
def blockCores (b : Nat) : List Nat :=
  let a := (b - 1) * 4096
  let u := a % 2 ^ 52 / 2 ^ 32
  if a < 2 ^ 52 then []
  else
    let k := a / 2 ^ 52 - 1
    if k = kShared then (if u < 16 then (List.range 8).map (8 * u + ·) else [])
    else if k = kSlice ∨ k = kScratch ∨ k = kAccum then (if u < 128 then [u] else [])
    else if k = kWeight then (if u < 256 then [u / 2] else []) else []
/-- A write to a block stalls: it was dirty at a capture and is not written yet (R380), or its memory is over its dirty
budget (R379). -/
def State.blockStalls (s : State) (b : Nat) : Bool :=
  (blockCores b).any (fun k => (s.lining k).left.contains b || (if blockShared b then s.tileFull (k / 8) else s.coreFull k))
/-- The blocks of some flat segments. -/
def segBlocks (segs : List (Nat × Nat)) : List Nat :=
  segs.flatMap (fun x => (List.range ((x.1 % 4096 + x.2 + 4095) / 4096)).map (blockOf x.1 + ·))
/-- A write to some flat segments stalls. -/
def State.writeStalls (s : State) (segs : List (Nat × Nat)) : Bool := (segBlocks segs).any s.blockStalls
/-- An engine's write to a directly addressed space of its place stalls on the budget. -/
def State.engineStalls (s : State) (p : Place) (space : Nat) : Bool :=
  (decide (space ≤ 1) && !p.thimble && s.coreFull p.coreK) || (decide (space = 2) && s.tileFull p.tile)
/-- An engine's event waits for the writer. -/
def State.awaitWriter (s : State) (p : Place) (d : Due) : State := (s.once (.writerDrain p.tile p.core)).again d

/-- A block that was dirty at a core's capture is written as captured (R380). -/
def State.writeCaptured (s : State) (k b : Nat) : State :=
  let l := s.lining k
  let s1 := s.setLining k { l with
    left := l.left.filter (· ≠ b)
    work := if blockShared b then l.work else spliceBlock ((l.drain.map (·.mem)).getD []) l.work b }
  if blockShared b then
    let x := s1.tileLining (k / 8)
    s1.setTileLining (k / 8) { x with work := spliceBlock ((l.shared.map (·.mem)).getD []) x.work b }
  else s1

/-- LINING_WRITER_DRAIN (R379): `n` blocks written, of the point being drained, or else dirty blocks of the core and then
of its tile's shared memory; the writer keeps power through a flush. -/
def State.writerDrain (s : State) (tile core n : Nat) : State :=
  let k := 8 * tile + core
  let l := s.lining k
  if !(s.tile tile).powered then s
  else if l.drain.isSome then (l.left.take n).foldl (fun s b => s.writeCaptured k b) s
  else
    let d := s.dirtyCore k
    let s1 := s.setLining k { l with work := (d.take n).foldl (spliceBlock (s.mem.within (coreWindows k))) l.work }
    let m := n - d.length
    if m = 0 then s1
    else
      let x := s1.tileLining tile
      s1.setTileLining tile { x with work := ((s1.dirtyTile tile).take m).foldl (spliceBlock (s1.mem.within (tileWindows tile))) x.work }
/-- The block a write waits for is the writer's next (R380): every point that holds it writes it; over a budget a dirty
block is drained (R379). -/
def State.writeBlock (s : State) (b : Nat) : State :=
  let held := (blockCores b).filter (fun k => (s.lining k).left.contains b)
  if held = [] then (blockCores b).head?.elim s (fun k => s.writerDrain (k / 8) (k % 8) 1)
  else held.foldl (fun s k => s.writeCaptured k b) s
/-- The writer goes on to the first block that a write to some flat segments waits for. -/
def State.unstall (s : State) (segs : List (Nat × Nat)) : State :=
  ((segBlocks segs).find? s.blockStalls).elim s s.writeBlock
def execLiningWriterDrain (tile core n : Nat) (s : State) : Out := .next (s.writerDrain tile core n)

end Sys2Proof.Machine
end

