-- ==== Sys2Proof/Machine/Copy.lean ====
section
/-!
DEFINITION. Copy patterns, copy instructions and the copy engines (R183 to R186, R218 to R229, R304, R370,
R481).
-/
namespace Sys2Proof.Machine

/-! ## Patterns (R218, R219) -/

/-- A pattern's fields from its 128 bytes. -/
def patternOf (bs : List Byte) : Pattern :=
  let q (o n : Nat) : Nat := leNat ((bs.drop o).take n)
  { cnt := (List.range 6).map (fun k => q (12 * k) 4)
    sstr := (List.range 6).map (fun k => sext 32 (q (12 * k + 4) 4))
    dstr := (List.range 6).map (fun k => sext 32 (q (12 * k + 8) 4))
    type := q 72 1 % 32, flags := q 73 1 % 32, rop := q 74 1 % 8, bob := q 75 1 % 16
    sh := q 76 1 % 64, dh := q 77 1 % 64, circ := q 78 1
    soff := sext 64 (q 80 8), doff := sext 64 (q 88 8)
    sfsel := q 96 2 % 512, dvsel := q 98 2 % 512
    sfinc := BitVec.ofNat 32 (q 100 4), dvinc := BitVec.ofNat 32 (q 104 4) }

def Pattern.zpois (p : Pattern) : Bool := bitN p.flags 0
def Pattern.bobt (p : Pattern) : Bool := bitN p.flags 1
def Pattern.circF (p : Pattern) : Bool := bitN p.flags 2
/-- Number of iterations. -/
def Pattern.total (p : Pattern) : Nat := p.cnt.foldl (· * ·) 1
def Pattern.width (p : Pattern) : Nat := typeWidth p.type

/-- The indices i0 to i5 of iteration `k`, i0 fastest. -/
def indices : List Nat → Nat → List Nat
  | [], _ => []
  | c :: r, k => k % c :: indices r (k / c)
/-- Σ ik × stride k. -/
def dotStr (is : List Nat) (str : List Int) : Int := ((is.zip str).map (fun (i, s) => (i : Int) * s)).foldl (· + ·) 0

/-- The least and greatest position over all iterations (R220). -/
def extremes (base : Int) (cnt : List Nat) (str : List Int) : Int × Int :=
  (cnt.zip str).foldl (fun (lo, hi) (c, s) => (lo + min 0 (((c : Int) - 1) * s), hi + max 0 (((c : Int) - 1) * s))) (base, base)

/-- Positions s and t of iteration `k` (R219, R228: an index array replaces levels 1 to 5 of one side). -/
def State.copyPos (s : State) (o : CopyOp) (k : Nat) : Int × Int :=
  let p := o.pat
  let is := indices p.cnt k
  let idx : Int := s.mem.readNat (spaceAddr o.place 1 (o.arg + 4 * (k / p.cnt.headD 1))) 4
  let i0 : Int := is.headD 0
  let sp := if o.kind = .gath then p.soff + idx * p.sstr.getD 1 0 + i0 * p.sstr.getD 0 0 else p.soff + dotStr is p.sstr
  let tp := if o.kind = .scat then p.doff + idx * p.dstr.getD 1 0 + i0 * p.dstr.getD 0 0 else p.doff + dotStr is p.dstr
  (sp, tp)

/-- A position of `n` elements of width `w` lies in the handle's window (R219). -/
def Handle.inWindow (h : Handle) (w : Nat) (pos : Int) : Bool :=
  decide (0 ≤ pos) &&
    (if elemUnit h.type then decide (pos + 1 ≤ h.bound) else decide ((((pos + 1) * w).toNat + 7) / 8 ≤ h.bound))

/-! ## Where an element stands (R219, R304, R330) -/

/-- Segments holding an element and the bit it begins at in them; a fault code at an address; a wait. -/
inductive Loc where
  | ok (segs : List (Nat × Nat)) (shift : Nat)
  | bad (code va : Nat)
  | hold
  deriving DecidableEq, Repr

/-- The permissions a far entry needs for an access (R201, R304). -/
def farAllows (e : Handle) (a : Access) : Bool :=
  (decide (e.space = 2) || decide (e.space = 3) || decide (e.space = 4)) && (!a.reads || e.pr) && (!a.writes || e.pw) &&
    (match a with | .copyWrite true => e.pa | _ => true)

/-- The bit of a far window's memory at which its BASE and WSTART place bit `fbit` (R304). -/
def Handle.farBit (e : Handle) (fbit : Nat) : Nat := e.wstart * (if elemUnit e.type then max 1 (typeWidth e.type) else 8) + fbit

/-- `w` bits at bit `fbit` of far window `ridx` of a tile (R304). `near`: its page must be in the tile's own HBM (R335). -/
def State.farLoc (s : State) (tile ridx : Nat) (a : Access) (near : Bool) (fbit w : Nat) : Loc × State :=
  let e := Tab.get {} ridx (s.tile tile).windows
  let unit := if elemUnit e.type then max 1 (typeWidth e.type) else 8
  let bit := e.farBit fbit
  let o := e.base + bit / 8
  let n := (bit % 8 + w + 7) / 8
  let v : View := ⟨⟨tile, 0, 0, 0⟩, 2 ^ 22 + ridx, e.space, e.base⟩
  if !farAllows e a then (.bad 0x04 (fbit / 8), s)
  else if e.bound * unit < fbit + w then (.bad 0x01 (fbit / 8), s)
  else if e.space = 4 then
    match State.xlate tile v.key a near (n / 65536 + 2) s (o % 2 ^ 56) n with
    | (.ok segs _, s1) => (.ok segs (bit % 8), s1)
    | (.hold, s1) => (.hold, s1)
    | (.fault _ va, s1) => (.bad 0x04 va, s1)
  else if spaceSize s tile e.space < o + n then (.bad 0x01 (fbit / 8), s)
  else (.ok [(spaceAddr v.place e.space o, n)] (bit % 8), s)

/-- Element `pos` of width `w` of a handle's window, inside its memory (R329; log 9 for a far handle's own BASE and WSTART).
A tile whose die has no power holds it (R195; log 34). -/
def State.locate (s : State) (p : Place) (h : Handle) (hidx : Nat) (a : Access) (w : Nat) (pos : Int) : Loc × State :=
  let bit := (h.elemBit w pos).toNat
  let n := (bit % 8 + w + 7) / 8
  let o := h.base + bit / 8
  if h.space = 5 ∨ h.space = 6 then
    (if s.dieOn h.ptile then s.farLoc h.ptile h.ridx a false (8 * h.base + bit) w else (.hold, s))
  else if direct h.space && !s.dieOn (h.view p hidx).place.tile then (.hold, s)
  else if direct h.space && decide (spaceSize s (h.view p hidx).place.tile h.space < o + n) then (.bad 0x01 (o % 2 ^ 56), s)
  else if direct h.space then (.ok [(spaceAddr (h.view p hidx).place h.space o, n)] (bit % 8), s)
  else match State.xlate p.tile (handleKey p.slotK hidx) a false (n / 65536 + 2) s (o % 2 ^ 56) n with
    | (.ok segs _, s1) => (.ok segs (bit % 8), s1)
    | (.hold, s1) => (.hold, s1)
    | (.fault c va, s1) => (.bad c va, s1)

/-- The `w` bits at bit `shift` of segments. -/
def bitsAt (m : Memory) (segs : List (Nat × Nat)) (shift w : Nat) : Nat := leNat (readSegs m segs) / 2 ^ shift % 2 ^ w
/-- `w` bits stored at bit `shift` of segments, other bits kept (R348). -/
def putBits (m : Memory) (segs : List (Nat × Nat)) (shift w v : Nat) : Memory :=
  let bs := readSegs m segs
  let old := leNat bs
  let k := 2 ^ shift
  writeSegs m segs (leBytes bs.length (old % k + (v % 2 ^ w) * k + old / (k * 2 ^ w) * (k * 2 ^ w)))

/-- The virtual address of element `pos` (TINFO0). -/
def Handle.elemVa (h : Handle) (w : Nat) (pos : Int) : Word :=
  BitVec.ofNat 64 (((h.base : Int) + (h.elemBit w pos).fdiv 8) % (2 ^ 56 : Nat)).toNat

/-! ## Iterations -/

/-- What one iteration of an engine answers. -/
inductive Iter where
  | ok (o : CopyOp) (s : State)
  | fault (o : CopyOp) (e : Event) (s : State)
  | hold (o : CopyOp) (s : State)
  deriving DecidableEq, Repr

/-- Number of an engine's operation as a source of reductions (R382). -/
def engSource (e : Eng) (id : Nat) : Nat :=
  id * 2 ^ 16 + 4096 + (match e with | .core t c => coreKey t c | .tile t => 256 + t)
/-- The tile an engine belongs to. -/
def engTile : Eng → Nat
  | .core t _ => t
  | .tile t => t
def State.putOp (s : State) (e : Eng) (o : CopyOp) : State :=
  let g := s.engine e
  s.setEngine e { g with ops := g.ops.map (fun x => if x.id = o.id then o else x) }
def State.findOp (s : State) (e : Eng) (id : Nat) : Option CopyOp := (s.engine e).ops.find? (fun o => o.id = id)

/-- The 0x0E of an operation's iteration `k` (R221). -/
def copyEvent (e : Eng) (o : CopyOp) (h : Handle) (hidx : Option Nat) (wr : Bool) (code : Nat) (va : Word) (k : Nat) : Event :=
  { code := 0x0E, stream := o.place.stream, info0 := va
    info1 := tinfo1 code h.space wr hidx.isSome (hidx.getD 0)
    info2 := BitVec.ofNat 64 k
    info3 := BitVec.ofNat 64 ((o.recOff.getD 0) % 2 ^ 23 + (match e with | .tile _ => 2 ^ 32 | _ => 0) +
      (if o.recOff.isNone then 2 ^ 33 else 0)) }

/-- A walk's fault of an engine: a copy fault, or a wait on the page's pending entry (R345). -/
def engineFault (e : Eng) (o : CopyOp) (h : Handle) (hidx : Option Nat) (wr : Bool) (c va k : Nat) (s : State) : Iter :=
  let q := match s.findTask o.task with
    | some k => placeOfSlot k o.place.stream
    | none => o.place
  if c = 3 ∨ c = 4 then
    let r := s.pageFault q va
    if r.1 then .fault o (copyEvent e o h hidx wr c (BitVec.ofNat 64 va) k) r.2 else .hold { o with page := some va } r.2
  else .fault o (copyEvent e o h hidx wr c (BitVec.ofNat 64 va) k) s

/-- The source element of the next unread iteration read, its index and destination position with it (R221, R222, R228). Where
the row an index names lies only partly outside the window, the elements before the first outside one are copied (DESIGN
CHOICE, log 88). -/
def readOne (e : Eng) (o : CopyOp) (s : State) : Iter :=
  let k := o.done + o.held.length
  let h := o.src
  let w := o.pat.width
  let dest := (s.copyPos o k).2
  if o.kind = .fill then .ok { o with held := o.held ++ [some (o.arg, dest)] } s
  else
    let pos := (s.copyPos o k).1
    if o.kind = .gath && !h.inWindow w pos then
      .fault o (copyEvent e o h (some o.pat.sh) false 0x01 (h.elemVa w pos) k) s
    else match s.locate o.place h o.pat.sh .read w pos with
      | (.hold, s1) => .hold o s1
      | (.bad c va, s1) => engineFault e o h (some o.pat.sh) false c va k s1
      | (.ok segs sh, s1) =>
        let bad := s1.poison.filter (fun g => segs.any (fun x => decide (x.1 / 64 ≤ g) && decide (g * 64 < x.1 + x.2)))
        if bad = [] then .ok { o with held := o.held ++ [some (bitsAt s1.mem segs sh w, dest)] } s1
        else if o.pat.zpois || decide (o.kind = .fcpy) || decide (o.kind = .fred) then
          .ok { o with held := o.held ++ [some (0, dest)], zeroed := bad.foldl (fun l g => setInsert g l) o.zeroed } s1
        else .fault o (copyEvent e o h (some o.pat.sh) false 0x05 (h.elemVa w pos) k) s1

/-- The poisoned granules an element's bits cover, added to the copy's cover; granules covered whole lose
their poison (R347). -/
def coverPoison (o : CopyOp) (segs : List (Nat × Nat)) (shift w : Nat) (s : State) : CopyOp × State :=
  match segs with
  | [] => (o, s)
  | (a, _) :: _ =>
    let bit := 8 * a + shift
    (s.poison.filter (fun g => decide (g * 512 < bit + w) && decide (bit < g * 512 + 512))).foldl (fun (o, s) g =>
      let lo := max bit (g * 512)
      let hi := min (bit + w) (g * 512 + 512)
      let m := Nat.lor (Tab.get 0 g o.cover) ((2 ^ (hi - lo) - 1) * 2 ^ (lo - g * 512))
      if m = 2 ^ 512 - 1 then ({ o with cover := Tab.erase g o.cover }, { s with poison := s.poison.filter (· ≠ g) })
      else ({ o with cover := Tab.set 0 g m o.cover }, s)) (o, s)

/-- A far write that fails its window check: dropped, counted, reported at the far tile (R304). -/
def State.dropFar (s : State) (tile code : Nat) (va : Word) (space : Nat) : State :=
  let t := s.tile tile
  (s.setTile tile { t with fdrop := sat32 t.fdrop }).route tile 0
    { code := code, info0 := va, info1 := tinfo1 0 space true false 0 }

/-- The oldest read element written to its destination (R219, R223). An index whose element lies in the local window of a
space-5 end and not in the far entry's makes a far write that is dropped there and counted, as R304 has it of every far write
(DEDUCED, log 88). -/
def writeOne (e : Eng) (o : CopyOp) (s : State) : Iter :=
  let k := o.done
  let h := o.dst
  let w := o.pat.width
  let o' := { o with held := o.held.drop 1, done := o.done + 1 }
  let hidx := if o.pat.bobt then none else some o.pat.dh
  match o.held.headD none with
  | none => .ok o' s
  | some (v, pos) =>
    if o.kind = .scat && !h.inWindow w pos then .fault o (copyEvent e o h hidx true 0x01 (h.elemVa w pos) k) s
    else match s.locate o.place h o.pat.dh (.copyWrite (decide (o.pat.rop ≠ 0))) w pos with
      | (.hold, s1) => .hold o s1
      | (.bad c va, s1) =>
        if h.space = 5 then .ok o' (s1.dropFar h.ptile c (BitVec.ofNat 64 va) 5)
        else engineFault e o h hidx true c va k s1
      | (.ok segs sh, s1) =>
        let a := (segs.headD (0, 0)).1
        if s1.writeStalls segs then .hold o (s1.unstall segs) else
        let s2 := match e with
          | .core t c => s1.dropLines (coreKey t c) a 8
          | .tile _ => s1
        if o.pat.rop ≠ 0 then
          let n := Tab.get 0 (homeOf a) o.sent + 1
          .ok { o' with sent := Tab.set 0 (homeOf a) n o.sent } (s2.applyReduction (homeTile a)
            { source := engSource e o.id, home := homeOf a, number := n, addr := a, bit := sh
              type := o.pat.type, rop := o.pat.rop, value := v, task := o.task, place := o.place
              va := h.elemVa w pos, space := h.space })
        else
          let r := coverPoison o' segs sh w { s2 with mem := putBits s2.mem segs sh w v }
          .ok r.1 r.2

/-- Up to `n` iterations run (R219). -/
def runIters (e : Eng) : Nat → CopyOp → State → Iter
  | 0, o, s => .ok o s
  | n + 1, o, s =>
    if o.pat.total ≤ o.done then .ok o s
    else
      match (if o.held = [] then readOne e o s else .ok o s) with
      | .ok o1 s1 =>
        match writeOne e o1 s1 with
        | .ok o2 s2 => runIters e n o2 s2
        | r => r
      | r => r

/-- Up to `n` source elements read ahead (R184). -/
def readAhead (e : Eng) : Nat → CopyOp → State → Iter
  | 0, o, s => .ok o s
  | n + 1, o, s =>
    if o.pat.total ≤ o.done + o.held.length then .ok o s
    else match readOne e o s with
      | .ok o1 s1 => readAhead e n o1 s1
      | r => r

/-! ## Faults and the end (R221, R224, R225, R370) -/

/-- The next thing waiting for a RUNNING slot in user mode: an event of its FIFO, else its oldest paused copy
(R364, R370). -/
def State.deliverNext (s : State) (k : Nat) : State :=
  let sl := s.slot k
  if sl.fifo ≠ [] then s.deliverAsync k
  else if sl.regs.super || sl.frozen || !decide (sl.mode = .running) || !s.dieOn (k / 32) then s
  else match sl.faults with
    | [] => s
    | (e, id) :: rest =>
      match s.findOp e id with
      | none => s.setSlot k { sl with faults := rest }
      | some o =>
        match o.paused with
        | none => s.setSlot k { sl with faults := rest }
        | some ev =>
          let p := placeOfSlot k (if ev.stream < 5 then ev.stream else 0)
          let s0 := s.setSlot k { sl with faults := rest, delivered := some (e, id) }
          let s1 := s0.stopForTrap p true ev
          if k = 512 then s0.thimbleEnter true ev none
          else if s1.frtDest p.tile 0x0E = 0 then (s1.logRouted p.tile ev).enterHandler p else (s1.freeze k).routeFrozen p ev

/-- An operation paused by a copy fault (R221, R370); one of a task that has ended closes with 0x07. -/
def State.pauseCopy (s : State) (e : Eng) (o : CopyOp) (ev : Event) : State :=
  match s.findTask o.task with
    | some k =>
      let s1 := s.putOp e { o with paused := some ev }
      let sl := s1.slot k
      (s1.setSlot k { sl with faults := sl.faults ++ [(e, o.id)] }).deliverNext k
    | none =>
      if s.held.any (fun h => decide (h.task = o.task)) then
        (s.putOp e { o with paused := some ev }).postTask (engTile e) o.task ev
      else ((s.putOp e o).closeCopy e o 0x07).routeTask o.place.tile o.task ev

/-- The status of a copy that ran to its end (R225), and its publish (R226). -/
def State.publishCopy (s : State) (o : CopyOp) : Nat × State :=
  let st := max (if o.zeroed = [] then 1 else 3) (if o.skipped then 5 else 1)
  match o.slot with
  | none => (st, s)
  | some (c, gen) =>
    let b := s.bobbin o.place.coreK o.pat.bob
    if b.gen = gen then (st, s.setBobbin o.place.coreK o.pat.bob (b.publish (c.toNat % b.scount))) else (max st 4, s)

/-- The source-free increment (R184, R224). -/
def State.freeSource (s : State) (e : Eng) (o : CopyOp) : State :=
  if o.freed then s
  else
    let s1 := s.putOp e { o with freed := true }
    if o.pat.sfv then s1.semAdd o.place.tile o.place.core o.pat.sfsel o.pat.sfinc else s1

/-- An iteration's answer put back: progress kept, a fault delivered, a wait tried again later. -/
def Iter.settle (i : Iter) (e : Eng) (k : CopyOp → State → State) : State :=
  match i with
  | .ok o s => k o (s.putOp e o)
  | .fault o ev s => s.pauseCopy e o ev
  | .hold o s => (s.putOp e o).again (.copyComplete e o.id)

/-- A copy's target slot claimed as BBCLM does (R226); none when the ring is full. -/
def State.claimTarget (s : State) (o : CopyOp) : Option (CopyOp × State) :=
  if !o.pat.bobt || o.slot.isSome then some (o, s)
  else
    let b := s.bobbin o.place.coreK o.pat.bob
    match b.claimSlot with
    | none => none
    | some (a, b') =>
      some ({ o with slot := some (b.claim, b.gen), dst := { base := a, bound := b.ssize, space := 1, pw := true } },
        s.setBobbin o.place.coreK o.pat.bob b')

/-- Whether an engine may act: its tile has power. -/
def State.engineOn (s : State) (e : Eng) : Bool := s.dieOn (engTile e)

/-- The operation's next iteration waits on a page's pending fault (R345). -/
def State.copyPageHeld (s : State) (e : Eng) (o : CopyOp) : Bool :=
  match o.page with | some va => s.pagePending (engTile e) va | none => false

/-- A copy whose start nothing holds back. -/
def CopyOp.mayRun (o : CopyOp) : Bool := o.armed.isNone && o.paused.isNone && !o.waiting

/-- An operation accepted earlier by the engine has still to start (R227); armed ones and fabric copies start on their own
signals (R229, R303). -/
def Engine.startsAfter (g : Engine) (id : Nat) : Bool :=
  (g.ops.takeWhile (fun x => x.id ≠ id)).any (fun x => !x.started && x.armed.isNone && !x.waiting)

/-- COPY_START: the operation starts in its turn, claims its bobbin slot, and runs up to `n` iterations (R226, R227). -/
def State.copyStart (s : State) (e : Eng) (id n : Nat) : State :=
  match s.findOp e id with
  | none => s
  | some o =>
    if !o.mayRun || !s.engineOn e then s
    else if (s.engine e).startsAfter id || s.copyPageHeld e o then s.again (.copyStart e id n)
    else match s.claimTarget { o with page := none } with
      | none => s.again (.copyStart e id n)
      | some (o1, s1) =>
        (runIters e (min n o1.pat.total) { o1 with started := true } s1).settle e
          (fun _ s => (s.later (.copySourceFree e id)).later (.copyComplete e id))

/-- COPY_SOURCE_FREE: every source read performed, then the increment (R184, R224). -/
def State.copySourceFree (s : State) (e : Eng) (id : Nat) : State :=
  match s.findOp e id with
  | none => s
  | some o =>
    if !o.mayRun || !o.started || !s.engineOn e then s
    else if s.copyPageHeld e o then s.again (.copySourceFree e id)
    else (readAhead e o.pat.total { o with page := none } s).settle e (fun o s => s.freeSource e o)

/-- COPY_COMPLETE: every write performed, STATUS, ZCOUNT and DONE written, the slot published, the increments
made (R185, R224 to R226). -/
def State.copyComplete (s : State) (e : Eng) (id : Nat) : State :=
  match s.findOp e id with
  | none => s
  | some o =>
    if !o.mayRun || !o.started || !s.engineOn e then s
    else if s.copyPageHeld e o then s.again (.copyComplete e id)
    else (runIters e o.pat.total { o with page := none } s).settle e (fun o s =>
      let r := s.publishCopy o
      r.2.closeCopy e o r.1)

/-- COPY_FAULT: the operation's next iteration meets its fault and pauses (R221); an iteration that meets none
leaves the state as it is. -/
def State.copyFault (s : State) (e : Eng) (id : Nat) : State :=
  match s.findOp e id with
  | none => s
  | some o =>
    if !o.mayRun || !o.started || !s.engineOn e || s.copyPageHeld e o then s
    else match runIters e 1 { o with page := none } s with
      | .fault o' ev s1 => s1.pauseCopy e o' ev
      | _ => s

def execCopyStart (e : Eng) (id n : Nat) (s : State) : Out := .next (s.copyStart e id n)
def execCopySourceFree (e : Eng) (id : Nat) (s : State) : Out := .next (s.copySourceFree e id)
def execCopyComplete (e : Eng) (id : Nat) (s : State) : Out := .next (s.copyComplete e id)
def execCopyFault (e : Eng) (id : Nat) (s : State) : Out := .next (s.copyFault e id)

/-- The directive in STATUS at ERET for the copy whose 0x0E was delivered (R221). A retried iteration whose element has been
read keeps that element and its index; one that has not reads both again (DESIGN CHOICE, log 89). -/
def State.copyDirective (s : State) (k : Nat) : State :=
  let sl := s.slot k
  match sl.delivered with
  | none => s
  | some (e, id) =>
    let s0 := s.setSlot k { sl with delivered := none }
    match s0.findOp e id with
    | none => s0
    | some o =>
      let st := match o.recOff with
        | some r => s0.mem.readNat (spaceAddr o.place 1 r + 108) 4
        | none => 0
      let o1 := { o with paused := none }
      let go (o : CopyOp) : State := (s0.putOp e o).later (.copyStart e id 0)
      if st = 0x82 then (s0.putOp e o1).closeCopy e o1 0x06
      else if st = 0x81 then
        if !o1.held.isEmpty && (match o.paused with | some ev => decide (ev.info2.toNat = o.done) | none => false) then
          go { o1 with held := o1.held.drop 1, done := o1.done + 1, skipped := true }
        else go { o1 with held := o1.held ++ [none], skipped := true }
      else go o1

/-! ## Acceptance (R220, R228, R302) -/

/-- The engine of a copy instruction; the hub has one (R227, R481). -/
def engineOf (p : Place) (tile : Bool) : Eng := if tile && !p.thimble then .tile p.tile else .core p.tile p.core
/-- Operations an engine holds (R227, R481). -/
def engineCap : Eng → Nat
  | .core _ _ => 16
  | .tile _ => 64

/-- A fault of acceptance that names handle register `hidx`. -/
def endFault (code : Nat) (h : Handle) (hidx : Nat) (wr : Bool) (w : Nat) (pos : Int) (n : Nat) : Event :=
  { code := code, info0 := h.elemVa w pos, info1 := tinfo1 n h.space wr true hidx, info2 := word pos }

/-- One end of a copy for the checks: handle, register, whether it is written, first position, strides. -/
structure CopyEnd where
  h : Handle
  r : Nat
  wr : Bool
  first : Int
  str : List Int
  /-- Its rows come from an index array (R228). -/
  indexed : Bool
  deriving DecidableEq, Repr

/-- Units and first unit of a range of positions lo to hi (R219). -/
def Handle.unitSpan (h : Handle) (w : Nat) (lo hi : Int) : Int × Nat :=
  if elemUnit h.type then (lo, (hi - lo + 1).toNat)
  else
    let u := (lo * w).fdiv 8
    (u, ((((hi + 1) * w).toNat + 7) / 8 - u).toNat)

/-- The extremes of an end lie in its window, in a directly addressed memory, and in its far entry (R220). -/
def State.endInside (s : State) (p : Place) (w : Nat) (cnt : List Nat) (rop : Bool) (e : CopyEnd) : Option Event :=
  let x := extremes e.first cnt e.str
  let u := e.h.unitSpan w x.1 x.2
  let bad : Event := { endFault 0x01 e.h e.r e.wr w x.1 u.2 with info2 := word u.1 }
  if x.1 < 0 ∨ u.1 + u.2 > e.h.bound then some bad
  else
    let lastBit := (e.h.elemBit w x.2).toNat + w
    if direct e.h.space && decide (spaceSize s (e.h.view p e.r).place.tile e.h.space < e.h.base + (lastBit + 7) / 8) then some bad
    else if e.h.space = 5 then
      match (s.farLoc e.h.ptile e.h.ridx (if e.wr then .copyWrite rop else .read) false (8 * e.h.base + (e.h.elemBit w x.1).toNat)
          (lastBit - (e.h.elemBit w x.1).toNat)).1 with
      | .bad 0x01 _ => some bad
      | _ => none
    else none

/-- The byte at which an end's first element begins: for a space-5 end in the memory of its far entry (R304). Element units
are placed at any bit. -/
def State.endByte (s : State) (w : Nat) (e : CopyEnd) : Int :=
  let far := if e.h.space = 5 then ((Tab.get {} e.h.ridx (s.tile e.h.ptile).windows).base : Int) +
    ((Tab.get {} e.h.ridx (s.tile e.h.ptile).windows).farBit 0 / 8 : Nat) else 0
  if elemUnit e.h.type then 0 else far + (e.h.base : Int) + (e.h.wstart : Int) + (e.first * (w : Int)).fdiv 8

/-- First failing check of a list. -/
def firstBad (l : List (Option Event)) : Option Event := l.findSome? id

/-- The spaces a copy's ends may name (R201). -/
def copySpaces : List Nat := [1, 2, 3, 4, 5, 7, 8]

/-- The checks of R220 after the operand's own, in order. `strict`: CPYQ compares widths whatever the units. The alignment
row looks at the first element also where the copy has no iterations (DESIGN CHOICE, log 78). -/
def State.copyChecks (s : State) (p : Place) (a : Nat) (pat : Pattern) (ends : List CopyEnd) (srcs dsts : List Nat) (strict : Bool) :
    Option Event :=
  let w := pat.width
  let n := pat.total
  let rop := decide (pat.rop ≠ 0)
  let elems := ends.any (fun e => elemUnit e.h.type)
  let ev (c : Nat) (e : CopyEnd) : Event := endFault c e.h e.r e.wr w e.first 0
  let selBadAt (on : Bool) (sel : Nat) : Option Event :=
    if on && selBad sel then some { code := 0x01, info1 := tinfo1 sel 0 false true a, info2 := BitVec.ofNat 64 sel } else none
  firstBad (
    ends.map (fun e => if n ≠ 0 ∧ e.h.bound = 0 then some (ev 0x01 e) else none) ++
    ends.map (fun e =>
      if e.h.space = 9 ∧ !p.thimble then some (ev 0x0D e)
      else if !(if e.wr then dsts else srcs).contains e.h.space then some (ev 0x04 e)
      else if (if e.wr then !e.h.pw || (rop && !e.h.pa) else !e.h.pr) then some (ev 0x04 e) else none) ++
    ends.map (fun e => if isPB e.h.type || ((elems || strict) && decide (typeWidth e.h.type ≠ w)) then some (ev 0x0B e) else none) ++
    ends.map (fun e =>
      if e.h.space = 5 && !farAllows (Tab.get {} e.h.ridx (s.tile e.h.ptile).windows) (if e.wr then .copyWrite rop else .read) then
        some (ev 0x04 e) else none) ++
    ends.map (fun e => if 8 ≤ w && decide (s.endByte w e % (min w 64 / 8 : Nat) ≠ 0) then some (ev 0x02 e) else none) ++
    ends.map (fun e => if n = 0 ∨ e.indexed then none else s.endInside p w pat.cnt rop e) ++
    [selBadAt pat.sfv pat.sfsel, selBadAt pat.dvv pat.dvsel])

/-- The types ROP takes (R220). -/
def ropTypes : List Nat := [0x02, 0x03, 0x06, 0x07, 0x0A, 0x09, 0x08, 0x0B]

/-- A pattern-level event: HIDX names A. -/
def patFault (code a : Nat) (i2 : Word) : Event := Event.mk' code 0 (tinfo1 0 0 false true a) i2

/-- The slot that issued a copy recorded as a semaphore's signaller (R24). -/
def State.signBy (s : State) (p : Place) (sel : Nat) : State :=
  (s.setSem p.tile p.core sel { s.sem p.tile p.core sel with sig := some (p.core, p.slot) }).relend p.tile

/-- An accepted operation put into its engine, the signaller of the semaphores its record names (R24, R224, R225). -/
def State.acceptCopy (s : State) (e : Eng) (o : CopyOp) : State :=
  let g := s.engine e
  let o := { o with id := g.next }
  let s0 := s.settle
  let s1 := s0.setEngine e { ops := g.ops ++ [o], next := g.next + 1 }
  let s2 := match o.recOff with
    | some r => { s1 with mem := s1.mem.writeNat (spaceAddr o.place 1 r + 108) 4 0 }
    | none => s1
  let s3 := if o.pat.sfv then s2.signBy o.place o.pat.sfsel else s2
  let s4 := if o.pat.dvv then s3.signBy o.place o.pat.dvsel else s3
  let s5 := if decide (o.pat.total = 0) || decide (o.kind = .fill) then s4.freeSource e o else s4
  if o.armed.isNone && !o.waiting then s5.later (.copyStart e o.id (2 ^ 64)) else s5

/-- A new operation of the executing stream. -/
def State.newCopy (s : State) (kind : CopyKind) (pat : Pattern) (recOff : Option Nat) (arg : Nat) : CopyOp :=
  { id := 0, place := s.cur, task := (s.mySlot.task.map (·.id)).getD 0, kind := kind, pat := pat
    src := s.h (BitVec.ofNat 6 pat.sh), dst := s.h (BitVec.ofNat 6 pat.dh), recOff := recOff, arg := arg }

/-- The two ends of an operation that its checks look at (R220, R226, R228). -/
def State.copyEnds (s : State) (kind : CopyKind) (pat : Pattern) : List CopyEnd :=
  (if kind = .fill then [] else
    [⟨s.h (BitVec.ofNat 6 pat.sh), pat.sh, false, pat.soff, pat.sstr, decide (kind = .gath)⟩]) ++
  (if pat.bobt then [] else
    [⟨s.h (BitVec.ofNat 6 pat.dh), pat.dh, true, pat.doff, pat.dstr, decide (kind = .scat)⟩])

/-- The pattern at the operand, read whole after its own checks (R218, R220). -/
def withPattern (m : MemOp) (k : Pattern → Nat → State → Eff) (s : State) : Eff :=
  let h := s.h m.h
  let off := s.offM m
  let sub := elemUnit h.type
  let n := if sub then 1024 / max 1 (typeWidth h.type) else 128
  let b := (h.base : Int) + h.unitByte off
  (s.checkMem h m.h.toNat off { acc := .read, spaces := [1], pr := true, pw := false, typeOk := !isPB h.type
                                align := 128, n := n, ranges := [((h.unitByte off).toNat, 128)] }).andThen fun segs _ s =>
    k (patternOf (readSegs s.settle.mem segs.flatten)) b.toNat s

/-- The format checks of R220's second row, FILL's and the hub's. -/
def Pattern.formatBad (p : Pattern) (kind : CopyKind) (thimble : Bool) : Bool :=
  decide (p.width = 0) || isPB p.type || decide (4 ≤ p.rop) || (decide (p.rop ≠ 0) && !ropTypes.contains p.type) ||
    (decide (kind = .fill) && decide (p.rop ≠ 0)) || (p.bobt && thimble)

/-- The least and greatest destination positions of a copy: SCAT's rows come from its index array at `arg` (R219, R228). -/
def State.destExtremes (s : State) (p : Place) (kind : CopyKind) (pat : Pattern) (arg : Nat) : Int × Int :=
  if kind = .scat then
    let row (n : Nat) : Int := (s.mem.readNat (spaceAddr p 1 (arg + 4 * n)) 4 : Nat) * pat.dstr.getD 1 0
    let rows := (List.range (pat.total / max 1 (pat.cnt.headD 1))).map row
    let x := extremes pat.doff (pat.cnt.take 1) (pat.dstr.take 1)
    (x.1 + rows.foldl min (rows.headD 0), x.2 + rows.foldl max (rows.headD 0))
  else extremes pat.doff pat.cnt pat.dstr
/-- BOBT's range check (R226). -/
def State.bobtBad (s : State) (p : Place) (kind : CopyKind) (pat : Pattern) (arg : Nat) : Bool :=
  pat.bobt && decide (pat.total ≠ 0) &&
    (let x := s.destExtremes p kind pat arg
     decide (x.1 < 0) || decide ((s.bobbin p.coreK pat.bob).ssize < (((x.2 + 1) * pat.width).toNat + 7) / 8))

/-- Acceptance of a copy instruction (R220, R227, R228). `arg` is FILL's value or the index array's offset;
`extra` the entry's own last check, which SCAT's range check follows: it reads the array (R226). -/
def acceptBody (a : Nat) (tile : Bool) (kind : CopyKind) (strict : Bool) (pat : Pattern) (recOff : Option Nat) (arg : Nat)
    (armed : Option (Nat × BitVec 32)) (extra : Option Event) (s : State) : Eff :=
  let e := engineOf s.cur tile
  if pat.formatBad kind s.cur.thimble then .trap (patFault 0x0B a 0) s
  else match s.copyChecks s.cur a pat (s.copyEnds kind pat) copySpaces copySpaces strict with
    | some ev => .trap ev s
    | none =>
      let bobt := if s.settle.bobtBad s.cur kind pat arg then some (patFault 0x01 a 0) else none
      match (if kind = .scat then extra.or bobt else bobt.or extra) with
      | some ev => .trap ev s
      | none => .done (s.acceptCopy e { s.newCopy kind pat recOff arg with armed := armed })

/-- A full engine holds the instruction (R227). -/
def roomIn (tile : Bool) (k : State → Eff) (s : State) : Eff :=
  let e := engineOf s.cur tile
  if engineCap e ≤ (s.engine e).ops.length then .wait false s else k s

/-- CPY (R227). -/
def execCpy (m : MemOp) (tile : Bool) (t : Tack) (s : State) : Out :=
  issueX 4 t (roomIn tile (withPattern m (fun pat r s =>
    acceptBody m.h.toNat tile .cpy false pat (some r) 0 none none s))) s

/-- CPYX (R228): offsets added to SOFF and DOFF. -/
def execCpyx (d : Reg) (m : MemOp) (tile : Bool) (t : Tack) (s : State) : Out :=
  issueX 4 t (roomIn tile (withPattern m (fun pat r s =>
    acceptBody m.h.toNat tile .cpy false
      { pat with soff := pat.soff + (s.x d).toInt, doff := pat.doff + (s.x (d + 1)).toInt } (some r) 0 none none s))) s

/-- CPYQ (R228). -/
def execCpyq (d a b : Reg) (tile : Bool) (t : Tack) (s : State) : Out :=
  issue 4 t (roomIn tile (fun s =>
    let c := s.x d
    let dv := c.getLsbD 41
    acceptBody a.toNat tile .cpyq true
      { cnt := [bits c 0 32, 1, 1, 1, 1, 1], sstr := [1, 0, 0, 0, 0, 0], dstr := [1, 0, 0, 0, 0, 0], type := (s.h a).type
        flags := if dv then 16 else 0, rop := 0, bob := 0, sh := a.toNat, dh := b.toNat, circ := 0, soff := 0, doff := 0
        sfsel := 0, dvsel := bits c 32 9, sfinc := 0, dvinc := 1 } none 0 none none s)) s

/-- The index array's own checks (R228). -/
def State.indexBad (s : State) (a : Nat) (pat : Pattern) (x : Word) : Option Event :=
  if x.toNat % 4 ≠ 0 then some (patFault 0x02 a x)
  else if spaceSize s s.cur.tile 1 < x.toNat + 4 * ((pat.cnt.drop 1).foldl (· * ·) 1) then some (patFault 0x01 a x)
  else none

def execGath (d : Reg) (m : MemOp) (tile : Bool) (t : Tack) (s : State) : Out :=
  issueX 4 t (roomIn tile (withPattern m (fun pat r s =>
    acceptBody m.h.toNat tile .gath false pat (some r) (s.x d).toNat none (s.indexBad m.h.toNat pat (s.x d)) s))) s
def execScat (d : Reg) (m : MemOp) (tile : Bool) (t : Tack) (s : State) : Out :=
  issueX 4 t (roomIn tile (withPattern m (fun pat r s =>
    acceptBody m.h.toNat tile .scat false pat (some r) (s.x d).toNat none (s.indexBad m.h.toNat pat (s.x d)) s))) s
/-- FILL (R228). -/
def execFill (d : Reg) (m : MemOp) (tile : Bool) (t : Tack) (s : State) : Out :=
  issueX 4 t (roomIn tile (withPattern m (fun pat r s =>
    acceptBody m.h.toNat tile .fill false pat (some r) ((s.x d).toNat % 2 ^ pat.width) none none s))) s
/-- CPYW (R229): armed unless the comparison holds at acceptance; it names its selector's semaphore (R24). -/
def execCpyw (d : Reg) (m : MemOp) (tile : Bool) (t : Tack) (s : State) : Out :=
  issueX 4 t (roomIn tile (withPattern m (fun pat r s =>
    let sel := bits (s.x d) 32 9
    let thr := s.x32 d
    let extra := if selBad sel then
      some { code := 0x01, info1 := tinfo1 sel 0 false true m.h.toNat, info2 := BitVec.ofNat 64 sel : Event } else none
    match acceptBody m.h.toNat tile .cpy false pat (some r) 0
        (if semPasses (s.sem s.cur.tile s.cur.core sel).v thr then none else some (sel, thr)) extra s with
    | .done s1 => .done (s1.signBy s1.cur sel)
    | e => e))) s

end Sys2Proof.Machine
end

