-- ==== Sys2Proof/Machine/Fabric.lean ====
section
/-!
DEFINITION. Circuits as instructions see them, messages, fabric copies, FSIG, and the flits that carry them
(R187, R296 to R308, R387, R388, R394, R419).
-/
namespace Sys2Proof.Machine

/-! ## Circuits (R296 to R298) -/

def State.circ (s : State) (c : Nat) : Circuit := Tab.get {} c s.circuits
def State.setCirc (s : State) (c : Nat) (v : Circuit) : State := { s with circuits := Tab.set {} c v s.circuits }

/-- The state code of CQRY (R316). -/
def CircState.code : CircState → Nat
  | .idle => 0
  | .making => 1
  | .live => 2
  | .breaking => 3
  | .failed => 4

def Circuit.rx (c : Circuit) : Bool := (c.word.map (·.rx)).getD false
/-- The owning tile (R296). -/
def Circuit.owner (c : Circuit) : Nat := (c.word.map (·.stile.toNat)).getD 0
/-- DMOD and DTILE together are a TREE word's LEAF (R317). -/
def leafOf (w : MakeWord) : Nat := w.dmod.toNat * 16 + w.dtile.toNat
/-- The ends a circuit's payload reaches: tile and module. -/
def State.circEnds (s : State) (c : Circuit) : List (Nat × Nat) :=
  match c.word with
  | none => []
  | some w =>
    if w.rx then [(w.stile.toNat, s.module)]
    else if c.tree then s.seq.leaves.getD (leafOf w) []
    else [(w.dtile.toNat, w.dmod.toNat)]
/-- Those of this module. -/
def State.nearEnds (s : State) (c : Circuit) : List Nat :=
  ((s.circEnds c).filter (fun e => decide (e.2 = s.module))).map (·.1)
/-- A circuit joins this module to another. -/
def State.circFar (s : State) (c : Circuit) : Bool :=
  match c.word with
  | none => false
  | some w => if c.tree then (s.circEnds c).any (fun e => decide (e.2 ≠ s.module)) else decide (w.dmod.toNat ≠ s.module)

/-- R297: the stream is not on the owning tile of a transmit end. -/
def State.circDenied (s : State) (c : Nat) : Bool :=
  let ci := s.circ c
  ci.word.isNone || ci.rx || decide (ci.owner ≠ s.cur.tile)
/-- The precise fault 0x08 (R298). -/
def State.notLive (s : State) (c : Nat) : Event :=
  Event.mk' 0x08 0 (tinfo1 c 0 false false 0) (BitVec.ofNat 64 (s.circ c).state.code)
/-- R297, then R298 for an instruction that needs one of `ok`. -/
def onCircuit (c : Nat) (ok : List CircState) (k : State → Eff) (s : State) : Eff :=
  if s.circDenied c then .trap (Event.mk' 0x04 0 0 0) s
  else if !ok.contains (s.circ c).state then .trap (s.notLive c) s
  else k s

/-! ## Events of the module (R364, R367, R419, R424, R463) -/

/-- An event no task owns: routed by the table of `tile`, DEST SLOT as SUPER (R424). -/
def State.raiseAt (s0 : State) (tile : Nat) (e : Event) : State :=
  let s := s0.logRouted tile e
  match s.frtDest tile e.code with
  | 0 | 1 => s.postSuper tile 0 e
  | 3 => { (s.report .host e tile 0) with hub := { s.hub with msix := s.module :: s.hub.msix } }
  | 4 => s.report .seq e tile 0
  | 5 => s
  | _ => s.report .thimble e tile 0

/-- The level of a sensor: a value of 0 acts as 1 (R464). -/
def Hub.level (h : Hub) (sensor : Nat) : Nat := max 1 (h.levels / 4 ^ sensor % 4)
/-- A sensor trips (R463): SEEN, MAXL and the event; levels 2 and 3 erase the session keys at once, and act at the next
stitch boundary. -/
def State.trip (s : State) (sensor : Nat) : State :=
  let l := s.hub.level sensor
  let h := s.hub
  let s0 := { s with links := if 2 ≤ l then s.links.foldl (fun t (e : Nat × Link) => Tab.set {} e.1 { e.2 with keys := false } t) s.links else s.links }
  let s1 := { s0 with hub := { h with
    seen := Nat.lor h.seen (2 ^ sensor), maxl := max h.maxl l
    halted := h.halted || decide (2 ≤ l)
    alarm := if 2 ≤ l then some (max l (h.alarm.getD 0)) else h.alarm } }
  s1.raiseAt 0 { code := 0x3F, info2 := BitVec.ofNat 64 l, info3 := BitVec.ofNat 64 sensor }

/-! ## Transfers (R303, R388) -/

/-- The number of the executing slot's task. -/
def State.taskId (s : State) : Nat := (s.mySlot.task.map (·.id)).getD 0
/-- The number of the present phase, when one runs. -/
def State.phaseNo (s : State) : Option Nat := s.seq.phase.map (fun _ => s.seq.phases)
/-- A transfer accepted on a circuit (R388). -/
def State.addTransfer (s : State) (c : Nat) (t : Transfer) : State :=
  let ci := s.circ c
  s.setCirc c { ci with transfers := ci.transfers ++ [t] }
/-- Some transfers of a circuit stay; the rotation goes on behind those that had their turn (R388). -/
def Circuit.keep (ci : Circuit) (p : Transfer → Bool) : Circuit :=
  { ci with transfers := ci.transfers.filter p, turn := ((ci.transfers.take ci.turn).filter p).length }

/-- The operation of a fabric copy. -/
def State.fabricOp (s : State) (tile id : Nat) : Option CopyOp := s.findOp (.tile tile) id

/-- The asynchronous trap of R307; a 0x05 names the poisoned address in TINFO0, as R305 says (log 37). -/
def fabricEvent (code c : Nat) (o : CopyOp) (at_ : Word := 0) : Event :=
  { code := code, stream := o.place.stream, info0 := at_, info1 := tinfo1 c 0 false false 0, info2 := BitVec.ofNat 64 o.done
    info3 := BitVec.ofNat 64 (o.recOff.getD 0 % 2 ^ 23 + 2 ^ 32) }

/-- The iterations of a copy whose writes have been acknowledged by a stitch (R306). -/
def Transfer.doneBy (t : Transfer) (at_ : Nat) : Nat := ((t.moved.find? (fun e => decide (e.1 ≤ at_))).map (·.2)).getD 0

/-- A fabric copy ends with status 0x09 or 0x0A (R306, R307): DONE is what has been acknowledged. -/
def State.endFabric (s : State) (c tile id st done : Nat) : State :=
  match s.fabricOp tile id with
  | none => s
  | some o =>
    let o1 := { o with done := min o.done done }
    (s.closeCopy (.tile tile) o1 st).route tile o.task (fabricEvent st c o1)

/-- A transfer ends before its last acknowledgement: a copy with `st`, an FSIG that has not arrived discarded (R308), a
chunk with its collective aborted (R315). Messages are counted apart. -/
def State.endTransfer (s : State) (c st : Nat) (t : Transfer) : State :=
  match t.cargo with
  | .copy tile id => s.endFabric c tile id st (t.doneBy s.stitch)
  | .send _ => s
  | .fsig _ _ _ =>
    if t.acked.isSome then s
    else s.route t.place.tile t.task { code := 0x09, stream := t.place.stream, info1 := tinfo1 c 0 false false 0 }
  | .chunk tile ticket _ _ _ _ _ _ _ => s.once (.collectiveAbort tile ticket (if st = 0x0A then 3 else 4))

/-- Whether a transfer is a message. -/
def Transfer.isSend (t : Transfer) : Bool := match t.cargo with | .send _ => true | _ => false

/-- Every transfer of a circuit ends, those `late` picks with 0x0A; lost messages are reported to each sending
slot (R301, R307). -/
def State.endTransfers (s : State) (c : Nat) (late : Transfer → Bool) : State :=
  let l := (s.circ c).transfers
  let s1 := l.foldl (fun s t => s.endTransfer c (if late t then 0x0A else 0x09) t) (s.setCirc c { s.circ c with transfers := [] })
  let sent := l.filter (fun t => t.isSend && t.acked.isNone)
  let from_ := (sent.map (fun t => (t.task, t.place))).foldl (fun l x => if l.any (fun y => decide (y.1 = x.1)) then l else l ++ [x]) []
  from_.foldl (fun s x => s.route x.2.tile x.1
    { code := 0x09, stream := x.2.stream, info1 := tinfo1 c 0 false false 0
      info2 := BitVec.ofNat 64 ((sent.filter (fun t => decide (t.task = x.1))).length) }) s1

/-- An endpoint lit from a time on (R386). -/
def Endpoint.light (p : Endpoint) (at_ : Nat) : Endpoint := { p with litAt := some (p.litAt.getD at_) }
/-- The flits an endpoint has sent by a time in stitches since reset: one in every stitch in which it was lit, idle ones among them (R386,
R418). -/
def Endpoint.sent (p : Endpoint) (at_ : Nat) : Nat := p.flits + (match p.litAt with | some n => at_ - n | none => 0)
/-- An endpoint no circuit holds any more. -/
def Endpoint.dark (p : Endpoint) (at_ : Nat) : Endpoint := { p with circ := none, flits := p.sent at_, litAt := none }
/-- The endpoints a circuit holds are free again. -/
def State.freePorts (s : State) (c : Nat) : State :=
  { s with eps := s.eps.foldl (fun t (e : Nat × Endpoint) => if e.2.circ = some c then Tab.set {} e.1 (e.2.dark s.beat) t else t) s.eps }

/-- A circuit becomes FAILED (R394, R403, R419): its transfers end 0x09; a receive end tells its own module. -/
def State.failCircuit (s : State) (c cause : Nat) : State :=
  let ci := s.circ c
  let s1 := ((s.setCirc c { ci with state := .failed, cause := cause, ports := [], failing := none }).freePorts c).endTransfers c (fun _ => false)
  if ci.rx && decide (ci.state = .live) then s1.raiseAt ci.owner { code := 0x09, info1 := tinfo1 c 0 false false 0 } else s1

/-- BREAK's effect on a handle (R320): MAKING or LIVE to BREAKING, FAILED to IDLE. -/
def State.breakCircuit (s : State) (c : Nat) : State :=
  let ci := s.circ c
  match ci.state with
  | .making | .live =>
    (s.setCirc c { ci with state := .breaking, since := s.stitch, failing := none }).endTransfers c (fun _ => false)
  | .failed => s.setCirc c { ci with state := .idle, slot := false }
  | _ => s
/-- The phase of a transfer has ended with it unfinished (R307, R320): its copies end 0x0A, and the circuit is
broken. -/
def State.overrun (s : State) (c : Nat) (late : Transfer → Bool) : State :=
  let ci := s.circ c
  (s.setCirc c { ci with state := .breaking, since := s.stitch, failing := none }).endTransfers c late
/-- A break completes (R320): the handle is IDLE, its ports and tree slot free. -/
def State.breakDone (s : State) (c : Nat) : State :=
  let ci := s.circ c
  if ci.state = .breaking then (s.setCirc c { ci with state := .idle, ports := [], slot := false }).freePorts c else s

/-! ## Flit slots (R386, R387) -/

/-- Flits that have left a circuit in a stitch. -/
def Circuit.usedAt (ci : Circuit) (at_ : Nat) : Nat := if ci.flitAt = at_ then ci.flitUsed else 0
/-- A flit slot is free in a stitch: a lit waveguide sends one flit in each. -/
def Circuit.slotFree (ci : Circuit) (at_ : Nat) : Bool := decide (ci.usedAt at_ < ci.ports.length)
/-- The live port that flit `k` goes to, by its place in the route. -/
def Circuit.flitPort (ci : Circuit) (k : Nat) : Nat := ci.ports.getD (k % ci.ports.length) 0
/-- The next flit leaves in a stitch. -/
def Circuit.takeSlot (ci : Circuit) (at_ : Nat) : Circuit :=
  { ci with flitAt := at_, flitUsed := ci.usedAt at_ + 1, flitNo := ci.flitNo + 1 }
/-- Leaf `i` of a tree sends its reverse traffic in the stitches congruent to `i` modulo 8. -/
def leafSpeaks (i at_ : Nat) : Bool := decide (at_ % 8 = i % 8)
/-- The first such stitch from `at_` on. -/
def leafNext (i at_ : Nat) : Nat := at_ + (i % 8 + 8 - at_ % 8) % 8
/-- The near endpoint of the port that the circuit's next flit goes to (R387). -/
def State.flitEp (s : State) (ci : Circuit) : Nat :=
  (((ci.word.bind (fun w => s.seq.routes[w.route.toNat]?)).map (·.near)).getD []).getD (ci.flitPort ci.flitNo) 0

/-- The one-way latency of a circuit in stitches (R389): 3 on the module, 4 + FLIGHT to a fibre neighbour, of the slowest
of its ports. -/
def State.latency (s : State) (c : Nat) : Nat :=
  if s.circFar (s.circ c) then
    4 + (s.eps.filter (fun e => decide (e.2.circ = some c))).foldl (fun m (e : Nat × Endpoint) => max m e.2.flight) 0
  else 3
/-- The stitch at which the last acknowledgement of a flit comes that leaves at `at_` (R389): the bound, which R320 holds a
transfer to; on a tree each leaf's waits for the leaf's own stitches (R386; DEDUCED, log 77). -/
def State.ackStitch (s : State) (c at_ : Nat) : Nat :=
  let l := s.latency c
  if (s.circ c).tree then
    (List.range (s.circEnds (s.circ c)).length).foldl (fun m i => max m (leafNext i (at_ + l + 2) + l)) (at_ + 2 * l + 2)
  else at_ + 2 * l + 2
/-- A copy's flit leaves with `n` iterations moved, to be acknowledged at `ack`: of what is acknowledged already only the
newest stays. -/
def Transfer.note (t : Transfer) (now ack n : Nat) : Transfer :=
  { t with moved := (ack, n) :: (t.moved.takeWhile (fun e => decide (now < e.1)) ++ (t.moved.dropWhile (fun e => decide (now < e.1))).take 1) }

/-- A transfer's flits have all been performed (R388). -/
def State.spent (s : State) (t : Transfer) : Bool :=
  match t.cargo with
  | .copy tile id =>
    decide (1 ≤ t.flits) && (match s.fabricOp tile id with | some o => decide (o.pat.total ≤ o.done) | none => true)
  | .chunk _ _ _ _ _ _ _ _ bytes => decide (1 + (bytes + 479) / 480 ≤ t.flits)
  | _ => decide (1 ≤ t.flits)

/-! ## SEND, FSIG (R299 to R301, R308) -/

/-- The fabric copies that a stream issued earlier on a circuit have been performed (R187, R301). -/
def State.copiesSpent (s : State) (c : Nat) (p : Place) : Bool :=
  (s.circ c).transfers.all (fun t => match t.cargo with | .copy _ _ => decide (t.place ≠ p) || s.spent t | _ => true)

/-- SEND (R299 to R301): with a credit, after the stream's earlier fabric copies on the circuit, its message leaves in a
free flit slot; until then, and once an alarm has stopped the fabric (R463), it waits. -/
def execSendM (a b : Reg) (t : Tack) (s : State) : Out :=
  issue 4 t (fun s =>
    let c := bits (s.x a) 0 8
    onCircuit c [.live] (fun s =>
      let ci := s.circ c
      if decide (ci.credits = 0) || !ci.slotFree s.stitch || !s.copiesSpent c s.cur || s.hub.halted then .wait false s
      else
        let m : Message := { seq := ci.seq, payload := s.x b, tag := bits (s.x a) 8 16, circ := c
                             selfid := (selfId s.module s.cur).toNat }
        let s1 := s.setCirc c { ci.takeSlot s.stitch with credits := ci.credits - 1, seq := ci.seq + 1 }
        .done (s1.addTransfer c { cargo := .send m, place := s.cur, task := s.taskId, phase := s.phaseNo })) s) s

/-- FSIG (R308): the selector, then the circuit; held while MAKING. -/
def execFsig (a b : Reg) (t : Tack) (s : State) : Out :=
  issue 4 t (fun s =>
    let c := bits (s.x a) 0 8
    let sel := bits (s.x a) 8 9
    if selBad sel then .trap (selFault sel) s
    else onCircuit c [.making, .live] (fun s =>
      .done (s.addTransfer c { cargo := .fsig sel (bits (s.x a) 17 3) (s.x32 b), place := s.cur, task := s.taskId })) s) s

/-! ## Far windows (R304, R305, R347) -/

/-- Poisoned granules a far copy's write covers: one covered whole is clean again (R347). -/
def State.farCover (s : State) (tile source : Nat) (segs : List (Nat × Nat)) (shift w : Nat) : State :=
  match segs with
  | [] => s
  | (a, _) :: _ =>
    let bit := 8 * a + shift
    (s.poison.filter (fun g => decide (g * 512 < bit + w) && decide (bit < g * 512 + 512))).foldl (fun s g =>
      let k := source * 2 ^ 46 + g
      let t := s.tile tile
      let lo := max bit (g * 512)
      let hi := min (bit + w) (g * 512 + 512)
      let m := Nat.lor (Tab.get 0 k t.cover) ((2 ^ (hi - lo) - 1) * 2 ^ (lo - g * 512))
      if m = 2 ^ 512 - 1 then
        { s.setTile tile { t with cover := Tab.erase k t.cover } with poison := s.poison.filter (· ≠ g) }
      else s.setTile tile { t with cover := Tab.set 0 k m t.cover }) s

/-- One element of a fabric copy reaches a tile: checked against its window entry, then written or reduced,
or dropped and counted (R304, R305); its page must be the tile's own HBM (R335). None while its page migrates (R350) or the
shared memory's dirty budget is full (R379). A reduction of this module's takes the next
number of its source at its home, of the counts `sent` (R382). -/
def State.farArrive (s : State) (tile : Nat) (f : FarWrite) (task : Nat) (place : Place) (sent : Option (Tab (BitVec 32))) :
    Option (State × Tab (BitVec 32)) :=
  let kept := sent.getD []
  let w := typeWidth f.type
  match s.farLoc tile f.ridx (.copyWrite (decide (f.rop ≠ 0))) true f.bit w with
  | (.hold, _) => none
  | (.bad c va, s1) => some (s1.dropFar tile c (BitVec.ofNat 64 va) 6, kept)
  | (.ok segs sh, s1) =>
    let a := (segs.headD (0, 0)).1
    if s1.writeStalls segs then none
    else if f.rop ≠ 0 then
      let n := if sent.isSome then Tab.get 0 (homeOf a) kept + 1 else BitVec.ofNat 32 f.number
      some (s1.applyReduction (homeTile a)
        { source := f.source, home := homeOf a, number := n, addr := a, bit := sh, type := f.type
          rop := f.rop, value := f.value, task := task, place := place, va := BitVec.ofNat 64 (f.bit / 8), space := 6 },
        Tab.set 0 (homeOf a) n kept)
    else
      let s2 := { s1 with mem := putBits s1.mem segs sh w f.value }
      some (s2.farCover tile f.source segs sh w, kept)

/-- The writer goes on to the block that an element reaching a tile waits for (R379, R380). -/
def State.wakeShared (f : FarWrite) (s : State) (tile : Nat) : State :=
  match s.farLoc tile f.ridx (.copyWrite (decide (f.rop ≠ 0))) true f.bit (typeWidth f.type) with
  | (.ok segs _, s1) => s1.unstall segs
  | _ => s

/-- An arrival that must wait stands behind a turn of the engine that moved last; each counts for itself. -/
def State.behind (s : State) (d : Due) : State := { s with turns := s.turns ++ [.engine s.cur 1, .due d] }

/-- FABRIC_WRITE_ARRIVAL (R304, R305): an element from another module; one that its end holds waits (R195, R350). -/
def execFabricWriteArrival (tile : Nat) (w : FarWrite) (s : State) : Out :=
  .next (match (if s.dieOn tile then s.farArrive tile w 0 ⟨tile, 0, 0, 5⟩ none else none) with
    | some r => r.1
    | none => (s.wakeShared w tile).behind (.fabricWriteArrival tile w))

/-! ## FCPY and FRED (R302 to R307) -/

/-- Pages of the source held from acceptance (R302): 64 KiB pages to physical pages; or the walk that fails, any page not
mapped before one that denies (R200). -/
def State.holdPages (p : Place) (h : Handle) (hidx w : Nat) : List Int → Tab Nat → State → (Xlat × Tab Nat) × State
  | [], t, s => ((.ok [] 0, t), s)
  | pos :: r, t, s =>
    let bit := (h.elemBit w pos).toNat
    let n := (bit % 8 + w + 7) / 8
    let va := (h.base + bit / 8) % 2 ^ 56
    if Tab.get 0 (va / 65536) t ≠ 0 ∧ Tab.get 0 ((va + n - 1) / 65536) t ≠ 0 then State.holdPages p h hidx w r t s
    else match State.xlate p.tile (handleKey p.slotK hidx) .read false 3 s va n with
      | (.ok segs _, s1) =>
        let t' := (segs.zipIdx).foldl (fun t (x, i) => Tab.set 0 (va / 65536 + i) (x.1 / 65536 + 1) t) t
        State.holdPages p h hidx w r t' s1
      | (x, s1) =>
        let q := State.holdPages p h hidx w r t s1
        ((x.join q.1.1, q.1.2), q.2)

/-- The flat segments of `n` bytes at a virtual address through held pages. -/
def heldSegs (t : Tab Nat) (va n : Nat) : List (Nat × Nat) :=
  let len := min n (65536 - va % 65536)
  let at_ (v : Nat) : Nat := (Tab.get 0 (v / 65536) t - 1) * 65536 + v % 65536
  if n ≤ len then [(at_ va, n)] else [(at_ va, len), (at_ (va + len), n - len)]

/-- Where a source element of a fabric copy stands. -/
def State.fabricSource (_s : State) (o : CopyOp) (pos : Int) : List (Nat × Nat) × Nat :=
  let bit := (o.src.elemBit o.pat.width pos).toNat
  let n := (bit % 8 + o.pat.width + 7) / 8
  let a := o.src.base + bit / 8
  if direct o.src.space then ([(spaceAddr (o.src.view o.place o.pat.sh).place o.src.space a, n)], bit % 8)
  else (heldSegs o.pages (a % 2 ^ 56) n, bit % 8)

/-- The format rows of R302's second check. -/
def Pattern.fabricBad (p : Pattern) (kind : CopyKind) : Bool :=
  !p.circF || p.bobt || decide (p.width = 0) || isPB p.type ||
    (if kind = .fred then decide (p.rop = 0) || decide (4 ≤ p.rop) || !ropTypes.contains p.type else decide (p.rop ≠ 0))

/-- Acceptance in the order of R302. -/
def fabricBody (a : Nat) (kind : CopyKind) (pat : Pattern) (recOff : Nat) (s : State) : Eff :=
  if pat.fabricBad kind then .trap (patFault 0x0B a 0) s
  else match s.copyChecks s.cur a pat (s.copyEnds kind pat) [1, 2, 3, 4] [6] false with
    | some ev => .trap ev s
    | none =>
      let ci := s.circ pat.circ
      let dst := s.h (BitVec.ofNat 6 pat.dh)
      let wrong := match ci.word with
        | some w => !ci.tree && (decide (dst.peer ≠ w.dmod.toNat) || decide (dst.ptile ≠ w.dtile.toNat))
        | none => false
      if s.circDenied pat.circ then .trap (patFault 0x04 a 0) s
      else if wrong then .trap (endFault 0x04 dst pat.dh true pat.width pat.doff 0) s
      else if !(decide (ci.state = .making) || decide (ci.state = .live)) then .trap (s.notLive pat.circ) s
      else
        let o := s.newCopy kind pat (some recOff) 0
        let ps := if direct o.src.space then [] else (List.range pat.total).map (fun k => (s.copyPos o k).1)
        match State.holdPages s.cur o.src pat.sh pat.width ps [] s with
        | ((.fault c va, _), s1) =>
          let r := s1.streamFault s.cur va
          if r.1 then .trap { endFault c o.src pat.sh false pat.width pat.soff 0 with info0 := BitVec.ofNat 64 va } r.2
          else .wait false r.2
        | ((.hold, _), s1) => .wait false s1
        | ((.ok _ _, pages), s1) =>
          let id := (s1.engine (.tile s.cur.tile)).next
          .done ((s1.acceptCopy (.tile s.cur.tile) { o with waiting := true, pages := pages }).addTransfer pat.circ
            { cargo := .copy s.cur.tile id, place := s.cur, task := o.task })

def execFcpy (m : MemOp) (t : Tack) (s : State) : Out :=
  issueX 4 t (roomIn true (withPattern m (fun pat r s => fabricBody m.h.toNat .fcpy pat r s))) s
def execFred (m : MemOp) (t : Tack) (s : State) : Out :=
  issueX 4 t (roomIn true (withPattern m (fun pat r s => fabricBody m.h.toNat .fred pat r s))) s

/-- The poisoned granules a copy's next element reads. -/
def State.fabricBadSource (s : State) (o : CopyOp) : List Nat :=
  s.poison.filter (fun g => (s.fabricSource o (s.copyPos o o.done).1).1.any (fun x => decide (x.1 / 64 ≤ g) && decide (g * 64 < x.1 + x.2)))
/-- The write a copy's next element makes (R305); zero for poison. -/
def State.fabricElem (s : State) (tile : Nat) (o : CopyOp) : FarWrite :=
  let w := o.pat.width
  let src := s.fabricSource o (s.copyPos o o.done).1
  { ridx := o.dst.ridx, bit := 8 * o.dst.base + (o.dst.elemBit w (s.copyPos o o.done).2).toNat, type := o.pat.type, rop := o.pat.rop
    value := if s.fabricBadSource o = [] then bitsAt s.mem src.1 src.2 w else 0, source := engSource (.tile tile) o.id, number := o.done + 1 }

/-- One element read and performed at the ends of this module (R305). None when an end holds it. -/
def State.fabricIter (s : State) (c : Nat) (tile : Nat) (o : CopyOp) : Option (CopyOp × State) :=
  let k := o.done
  let ci := s.circ c
  let bad := s.fabricBadSource o
  let met := o.poisonAt.or (if bad = [] then none else some (o.src.elemVa o.pat.width (s.copyPos o k).1))
  let f := s.fabricElem tile o
  match (s.nearEnds ci).foldl (fun (r : Option (State × Tab (BitVec 32))) t =>
      r.bind (fun s => s.1.farArrive t f o.task o.place (some s.2))) (some (s, o.sent)) with
  | none => none
  | some (s1, sent) => some ({ o with done := k + 1, sent := sent, started := true, poisonAt := met, zeroed := bad.foldl (fun l g => setInsert g l) o.zeroed }, s1)

/-- Up to `n` elements. -/
def State.fabricRun (c tile : Nat) : Nat → CopyOp → State → CopyOp × State
  | 0, o, s => (o, s)
  | n + 1, o, s =>
    if o.pat.total ≤ o.done then (o, s)
    else match s.fabricIter c tile o with
      | none => (o, s)
      | some (o1, s1) => State.fabricRun c tile n o1 s1

/-! ## Flits (R301, R387, R388) -/

/-- Whether a transfer may send: its tile has power, a message or an FSIG follows the earlier copies and messages of its
stream on the circuit (R187, R301), and a chunk's value has been formed (R98). -/
def State.maySend (s : State) (before : List Transfer) (t : Transfer) : Bool :=
  !s.spent t && s.dieOn t.place.tile &&
    (match t.cargo with
      | .send _ | .fsig _ _ _ => !before.any (fun q => decide (q.place = t.place) && !s.spent q)
      | .chunk _ _ _ _ _ _ _ v _ => v.isSome
      | _ => true)

/-- The transfer that takes the next flit slot (R388): in turn, in order of acceptance. Without a free slot only a message
goes on, which took its own. None while a tile at its end has no power. -/
def State.nextFlit (s : State) (ci : Circuit) (free : Bool) : Option Nat :=
  let up := (s.nearEnds ci).all s.dieOn
  let ok := ((List.range ci.transfers.length).filter (fun i => up &&
    match ci.transfers[i]? with
    | some t => (free || t.isSend) && s.maySend (ci.transfers.take i) t
    | none => false))
  (ok.find? (fun i => decide (ci.turn ≤ i))).or ok.head?

/-- FSIG at an end of this module: the addend as a SEMA adds it (R187, R308). -/
def State.fsigAt (s : State) (tile core sel : Nat) (v : BitVec 32) : State := s.semAdd tile core sel v
/-- FSIG_ARRIVAL (R308): an FSIG from another module. -/
def execFsigArrival (tile core sel : Nat) (addend : BitVec 32) (s : State) : Out :=
  .next (if selBad sel then s else if s.dieOn tile then s.fsigAt tile core sel addend else s.behind (.fsigArrival tile core sel addend))

/-- A transfer put back at its place, or taken out. -/
def State.putTransfer (s : State) (c i : Nat) (t : Option Transfer) : State :=
  let ci := s.circ c
  s.setCirc c { ci with
    transfers := ci.transfers.take i ++ t.toList ++ ci.transfers.drop (i + 1)
    turn := if t.isNone && decide (i < ci.turn) then ci.turn - 1 else ci.turn }

/-- A message reaches the receive queues of this module's ends (R300). Its flit needs one there: a message for
another module only is out of this module's sight. -/
def State.arriveMessage (s : State) (c : Nat) (m : Message) : State :=
  let ci := s.circ c
  (s.setCirc c { ci with queue := ci.queue ++ (s.nearEnds ci).map (fun t => (t, m)) }).once (.messageDelivery c)

end Sys2Proof.Machine
end

