-- ==== Sys2Proof/Machine/Collective.lean ====
section
/-!
DEFINITION. The collective engine and the flits of circuits (R188, R299 to R301, R309 to R316, R387, R388,
R413 to R415).
-/
namespace Sys2Proof.Machine

/-! ## Records (R309 to R311) -/

def CollSig.width (g : CollSig) : Nat := typeWidth g.type
/-- L of R311: the elements that are cut into chunks. -/
def CollOp.len (o : CollOp) : Nat := if o.sig.opk = 2 then o.n * o.sig.count else o.sig.count
/-- CSZ of R311. -/
def CollOp.csz (o : CollOp) : Nat := (o.len + o.nc - 1) / max 1 o.nc
/-- First element and element count of chunk `c`. -/
def CollOp.span (o : CollOp) (c : Nat) : Nat × Nat :=
  (min (c * o.csz) o.len, min ((c + 1) * o.csz) o.len - min (c * o.csz) o.len)
/-- The rank's destination receives chunk `c` (R312). -/
def CollOp.writes (o : CollOp) (c : Nat) : Bool :=
  match o.sig.opk with
  | 1 => decide (c % o.n = o.rank)
  | 4 => decide (o.rank = o.sig.root)
  | _ => true
/-- Elements of the destination range. -/
def CollOp.dstCount (o : CollOp) : Nat := o.len
/-- Byte past the space's start at which a range from element `pos` of a handle begins. -/
def Handle.elemStart (h : Handle) (w : Nat) (pos : Int) : Nat := h.base + (h.elemBit w pos).toNat / 8
/-- Source and destination are one range (R310). -/
def CollOp.inPlace (o : CollOp) : Bool :=
  decide (o.src.space = o.dst.space) && decide (o.sig.opk ≠ 2 ∨ o.n = 1) &&
    decide (o.src.elemStart o.sig.width o.soff = o.dst.elemStart o.sig.width o.doff)

def State.coll (s : State) (tile : Nat) : Coll := (s.tile tile).coll
def State.setColl (s : State) (tile : Nat) (g : Coll) : State := s.setTile tile { s.tile tile with coll := g }
def State.findColl (s : State) (tile ticket : Nat) : Option CollOp := (s.coll tile).ops.find? (fun o => decide (o.ticket = ticket))
/-- An operation put back, among the running ones or those that still forward. -/
def State.putColl (s : State) (tile : Nat) (o : CollOp) : State :=
  let g := s.coll tile
  let f (l : List CollOp) : List CollOp := l.map (fun x => if x.ticket = o.ticket then o else x)
  s.setColl tile { g with ops := f g.ops, fin := f g.fin }

/-! ## Elements of a rank (R312, R413) -/

/-- The flat segments of `n` elements of a handle from element `pos`: near memory alone (R335). -/
def State.elemRun (s : State) (p : Place) (h : Handle) (hidx w : Nat) (a : Access) (pos : Int) (n : Nat) : Xlat × State :=
  let o := h.elemStart w pos
  let bytes := n * w / 8
  if direct h.space then (.ok [(spaceAddr (h.view p hidx).place h.space o, bytes)] 0, s)
  else State.xlate p.tile (handleKey p.slotK hidx) a true (bytes / 65536 + 2) s (o % 2 ^ 56) bytes

/-- `n` elements read; the value of a poisoned granule is open (log 22). -/
def State.readElems (s : State) (p : Place) (h : Handle) (hidx w : Nat) (pos : Int) (n : Nat) : Option (Nat × State) :=
  match s.elemRun p h hidx w .read pos n with
  | (.ok segs _, s1) =>
    if (poisonIn s1 segs).isSome then some (Config.freeNat s1.free % 2 ^ (n * w), { s1 with free := s1.free + 1 })
    else some (leNat (readSegs s1.mem segs), s1)
  | _ => none

/-- What a rank contributes to chunk `c`: ALLGATHER and BROADCAST are sums in which every other rank
contributes no bits. -/
def State.contribution (s : State) (o : CollOp) (c : Nat) : Option (Nat × State) :=
  let (lo, n) := o.span c
  let w := o.sig.width
  match o.sig.opk with
  | 2 =>
    let a := max lo (o.rank * o.sig.count)
    let b := min (lo + n) ((o.rank + 1) * o.sig.count)
    if b ≤ a then some (0, s)
    else (s.readElems o.place o.src o.sidx w (o.soff + (a - o.rank * o.sig.count : Nat)) (b - a)).map
      (fun (v, s1) => (v * 2 ^ (w * (a - lo)), s1))
  | 3 => if o.rank = o.sig.root then s.readElems o.place o.src o.sidx w (o.soff + lo) n else some (0, s)
  | _ => s.readElems o.place o.src o.sidx w (o.soff + lo) n

/-- Two ranks' values of `n` elements combined (R312, R313): `a` is the incoming or left one. -/
def CollSig.combine (g : CollSig) (n a b : Nat) : Nat :=
  if g.opk = 2 ∨ g.opk = 3 then Nat.lor a b
  else
    let w := g.width
    (List.range n).foldr (fun i acc =>
      acc * 2 ^ w + Machine.combine g.type g.rop (a / 2 ^ (w * i) % 2 ^ w) (b / 2 ^ (w * i) % 2 ^ w) % 2 ^ w) 0

def CollOp.chunk (o : CollOp) (c : Nat) : Chunk := Tab.get {} c o.chunks
def CollOp.setChunk (o : CollOp) (c : Nat) (v : Chunk) : CollOp := { o with chunks := Tab.set {} c v o.chunks }

/-- The value a rank holds of a chunk, and how many ranks it covers. -/
def State.heldChunk (s : State) (o : CollOp) (c : Nat) (h : Chunk) : Option (Nat × Nat × State) :=
  if h.state = 0 then (s.contribution o c).map (fun (v, s1) => (v, 1, s1)) else some (h.value, h.ranks, s)
/-- The rank whose partial of chunk `k` a rank combines next (R98, R313, R414); none once it covers all it combines. -/
def CollOp.nextFrom (o : CollOp) (k : Nat) (h : Chunk) : Option Nat :=
  let w := max 1 h.ranks
  if o.sig.tree then (if o.rank % (2 * w) = 0 ∧ o.rank + w < o.n then some (o.rank + w) else none)
  else if h.state = 0 ∧ (k + 1) % o.n ≠ o.rank then some ((o.rank + o.n - 1) % o.n) else none
/-- A rank's partial of a chunk has still a place in the order at this rank. -/
def CollOp.awaits (o : CollOp) (k : Nat) (h : Chunk) (f : Nat) : Bool :=
  if o.sig.tree then
    decide (o.rank + max 1 h.ranks ≤ f) && decide (f < o.n) &&
      (List.range 64).any (fun l => decide (f = o.rank + 2 ^ l) && decide (o.rank % 2 ^ (l + 1) = 0))
  else decide (o.nextFrom k h = some f)
/-- The rank has formed what it sends of a chunk: its partial, or the final value. -/
def CollOp.formed (o : CollOp) (k : Nat) (part : ChunkPart) : Bool :=
  match part with
  | .sum _ => decide (o.nextFrom k (o.chunk k) = none)
  | .result => decide ((o.chunk k).state = 2)
/-- A chunk with the partial `v` of the next rank combined. -/
def CollOp.combineNext (o : CollOp) (k : Nat) (mine cover v : Nat) : Chunk :=
  let n := (o.span k).2
  let inc := if o.sig.tree then min cover (o.n - o.rank - cover) else (o.rank + 2 * o.n - 1 - k % o.n) % o.n
  { state := if o.n ≤ cover + inc then 2 else 1, first := if o.sig.tree then o.rank else (k + 1) % o.n, ranks := cover + inc
    value := if o.sig.tree then o.sig.combine n mine v else o.sig.combine n v mine }
/-- The partials that have come, combined as far as they reach in the order of R98 alone; none where the rank's own
elements cannot be read. -/
def State.absorb (o : CollOp) (k : Nat) : Nat → Chunk → State → Option (Chunk × State)
  | 0, h, s => some (h, s)
  | fuel + 1, h, s =>
    match (o.nextFrom k h).bind (fun f => h.parts.find? (fun e => decide (e.1 = f))) with
    | none => some (h, s)
    | some e => (s.heldChunk o k h).bind (fun (mine, cover, s1) =>
        State.absorb o k fuel { o.combineNext k mine cover e.2 with parts := h.parts.filter (fun x => x.1 ≠ e.1), given := h.given } s1)

/-- A chunk's elements written into the rank's destination; a page that migrates, or a full dirty budget, holds them
(R350, R379). -/
def State.writeChunk (s : State) (o : CollOp) (c v : Nat) : Xlat × State :=
  let (lo, n) := o.span c
  if n = 0 then (.ok [] 0, s)
  else if s.engineStalls o.place o.dst.space then (.hold, s)
  else match s.elemRun o.place o.dst o.didx o.sig.width .write (o.doff + lo) n with
    | (.ok segs l, s1) =>
      if s1.writeStalls segs then (.hold, s1.unstall segs)
      else (.ok segs l, { s1 with mem := writeSegs s1.mem segs (leBytes (n * o.sig.width / 8) v) })
    | r => r

/-! ## Ends (R314, R315) -/

/-- An ended ticket's STATUS and steps remembered (R316). -/
def Coll.note (g : Coll) (o : CollOp) (st : Nat) : Coll :=
  { g with status := g.status.map (fun e => if e.1 = o.ticket then (o.ticket, st, o.steps) else e)
           ops := g.ops.filter (fun x => x.ticket ≠ o.ticket) }

/-- Where a record's or an abort record's bytes stand: the issuing core's scratchpad. -/
def CollOp.scratch (o : CollOp) (off : Nat) : Nat := spaceAddr o.place 1 off

/-- COLLECTIVE_COMPLETE's actions in order (R314): STATUS, the range for ACQ.R, the increment. -/
def State.finishColl (s : State) (tile : Nat) (o : CollOp) : State :=
  let g := (s.coll tile).note o 0x01
  let s1 := s.setColl tile { g with fin := if o.n = 1 then g.fin else o :: g.fin.filter (fun x => decide (x.plan ≠ o.plan) || decide (o.inst ≤ x.inst + 1)) }
  let s2 := { s1 with mem := s1.mem.writeNat (o.scratch (o.recOff + 44)) 4 0x01 }
  let t := s2.tile tile
  let s3 := s2.setTile tile { t with
    ranges := t.ranges ++ [(o.csel, o.dst.elemStart o.sig.width o.doff, o.dstCount * o.sig.width / 8)] }
  s3.semAdd tile o.place.core o.csel o.cinc

/-- Every chunk the rank must write is written; of one it does not write its part has been given: it has sent its partial,
or formed the final value itself (R314; DEDUCED, log 79). -/
def CollOp.complete (o : CollOp) : Bool :=
  decide (o.sig.count = 0) || (List.range o.nc).all (fun c =>
    let h := o.chunk c
    if o.writes c then decide ((o.span c).2 = 0) || h.written
    else (List.range o.nc).any o.writes || decide (o.n = 1) || h.given || decide (h.state = 2))

/-- The abort record (R315): the destination's chunk states. -/
def CollOp.record (o : CollOp) (reason : Nat) : List Byte :=
  let entry (c : Nat) : List Byte :=
    let h := o.chunk c
    if h.written then leBytes 1 2 ++ leBytes 1 0 ++ leBytes 2 o.n ++ leBytes 2 h.first ++ leBytes 2 0
    else if h.state = 1 ∧ o.inPlace ∧ o.writes c ∧ !o.sig.tree ∧ o.sig.opk ≠ 2 ∧ o.sig.opk ≠ 3 then
      leBytes 1 1 ++ leBytes 1 0 ++ leBytes 2 h.ranks ++ leBytes 2 h.first ++ leBytes 2 0
    else leBytes 1 0 ++ leBytes 1 0 ++ leBytes 2 1 ++ leBytes 2 o.rank ++ leBytes 2 0
  leBytes 4 o.ticket ++ leBytes 1 0x0F ++ leBytes 1 reason ++ leBytes 2 o.nc ++ leBytes 4 o.steps ++ leBytes 4 0 ++
    (List.range o.nc).flatMap entry

/-- Records of a plan that wait for an instance, oldest first. -/
def Coll.unbound (g : Coll) (plan : Nat) : List CollOp := g.ops.filter (fun o => decide (o.plan = plan) && !o.bound)
/-- The instance of its plan a record takes part in: the one it is bound to, or the one it will be bound to (R320). -/
def Coll.instOf (g : Coll) (o : CollOp) : Nat :=
  if o.bound then o.inst else Tab.get 0 o.plan g.insts + 1 + (g.unbound o.plan).findIdx (fun x => decide (x.ticket = o.ticket))
/-- The other ranks of this module abort an instance (R315): a CABT here is one at another rank for them. -/
def State.abortOthers (s : State) (tile plan inst reason : Nat) : State :=
  s.tiles.foldl (fun s (e : Nat × Tile) =>
    if e.1 = tile then s
    else match e.2.coll.ops.find? (fun o => decide (o.plan = plan) && decide (e.2.coll.instOf o = inst)) with
      | some o => s.once (.collectiveAbort e.1 o.ticket (if reason = 1 then 2 else reason))
      | none => s) s

/-- A transfer carries a chunk of a collective of a tile. -/
def Transfer.ofColl (t : Transfer) (tile ticket : Nat) : Bool :=
  match t.cargo with
  | .chunk a b _ _ _ _ _ _ _ => decide (a = tile) && decide (b = ticket)
  | _ => false

/-- COLLECTIVE_ABORT (R315): abort record, STATUS 0x0F, the increment, cause 0x0F. On a tile without power it waits for the
resume, which aborts for the loss itself (R56). -/
def State.abortColl (s : State) (tile ticket reason : Nat) : State :=
  match s.findColl tile ticket with
  | none => s
  | some o =>
    if !s.dieOn tile then s.again (.collectiveAbort tile ticket reason) else
    let inst := (s.coll tile).instOf o
    let s1 := s.setColl tile ((s.coll tile).note o 0x0F)
    let s2 := { s1 with
      circuits := s1.circuits.map (fun (e : Nat × Circuit) => (e.1, e.2.keep (fun t => !t.ofColl tile ticket)))
      mem := (s1.mem.writeBytes (o.scratch o.aboff) (o.record reason)).writeNat (o.scratch (o.recOff + 44)) 4 0x0F }
    let s3 := s2.semAdd tile o.place.core o.csel o.cinc
    (s3.route tile o.task
      { code := 0x0F, stream := o.place.stream, info2 := BitVec.ofNat 64 o.ticket, info3 := BitVec.ofNat 64 o.aboff }).abortOthers
        tile o.plan inst reason
def execCollectiveAbort (tile ticket reason : Nat) (s : State) : Out := .next (s.abortColl tile ticket reason)

/-! ## Steps (R313, R414) -/

/-- Levels of a TREE plan. -/
def treeDepth (n : Nat) : Nat := if n ≤ 1 then 0 else Nat.log2 (n - 1) + 1

/-- What a rank sends in a step: the chunks, and whether they are final values (R313, R414). -/
def CollOp.sends (o : CollOp) (step : Nat) : List Nat × Bool :=
  let r := o.rank
  let n := o.n
  let all := List.range o.nc
  if o.sig.tree then
    let d := treeDepth n
    if step < d then (if r % 2 ^ (step + 1) = 2 ^ step then (all, false) else ([], false))
    else
      let l := 2 * d - 1 - step
      if step < 2 * d ∧ r % 2 ^ (l + 1) = 0 ∧ r + 2 ^ l < n then (all, true) else ([], true)
  else if step + 1 < n then (all.filter (fun c => decide (c % n = (r + 2 * n - 1 - step) % n)), false)
  else
    let j := step + 1 - n
    if j + 1 < n ∧ o.sig.opk ≠ 1 then (all.filter (fun c => decide (c % n = (r + n - j % n) % n)), true) else ([], true)

/-- The record bound to an instance of a plan. -/
def Coll.bound (g : Coll) (plan inst : Nat) : Option CollOp :=
  g.ops.find? (fun o => decide (o.plan = plan) && o.bound && decide (o.inst = inst))

/-- An instance of a plan begins at a tile: the oldest accepted, unbound record of the plan is bound to it (R320). -/
def State.bindColl (s : State) (tile plan inst : Nat) : Option CollOp × State :=
  let g := s.coll tile
  let s0 := s.setColl tile { g with insts := Tab.set 0 plan inst g.insts }
  match (g.unbound plan).head? with
  | none => (none, s0)
  | some o =>
    let o1 := { o with bound := true, inst := inst }
    let s1 := s0.putColl tile o1
    (some o1, s1.setColl tile { s1.coll tile with fin := (s1.coll tile).fin.filter (fun x => decide (x.plan ≠ plan) || decide (inst ≤ x.inst + 1)) })

/-- A missed plan instance (R320): 0x0F to the tile's supervisor, reason 6 at the other ranks. -/
def State.missed (s : State) (tile plan inst : Nat) : State :=
  ((s.logRouted tile { code := 0x0F }).postSuper tile 0 { code := 0x0F }).abortOthers tile plan inst 6

/-- One chunk put on a circuit, with its value if the rank has formed it, else to wait for it; a source that does not
translate cannot be sent in its phase (log 22). -/
def State.sendChunk (s : State) (c tile : Nat) (o : CollOp) (part : ChunkPart) (k : Nat) : State :=
  let put (s : State) (v : Option Nat) : State :=
    s.addTransfer c { cargo := .chunk tile o.ticket o.sig o.plan o.inst k part v ((o.span k).2 * o.sig.width / 8)
                      place := o.place, task := o.task, phase := s.phaseNo }
  if !o.formed k part then put s none
  else match s.heldChunk o k (o.chunk k) with
    | none => s.once (.collectiveAbort tile o.ticket 3)
    | some (v, _, s1) => put s1 (some v)
/-- The transfers of a rank that waited for the value of a chunk have it. -/
def State.fillSends (s : State) (tile : Nat) (o : CollOp) (k : Nat) : State :=
  let fill (t : Transfer) : Transfer := match t.cargo with
    | .chunk a b sig plan inst j part none bytes =>
      if a = tile ∧ b = o.ticket ∧ j = k ∧ o.formed k part then
        { t with cargo := .chunk a b sig plan inst j part (some (o.chunk k).value) bytes } else t
    | _ => t
  { s with circuits := s.circuits.map (fun (e : Nat × Circuit) => (e.1, { e.2 with transfers := e.2.transfers.map fill })) }

/-- A running record, or one that has ended and still forwards (R313). -/
def State.anyColl (s : State) (tile ticket : Nat) : Option CollOp :=
  (s.findColl tile ticket).or ((s.coll tile).fin.find? (fun o => decide (o.ticket = ticket)))

/-- A rank's partial of a chunk has been sent. -/
def State.gave (s : State) (tile ticket k : Nat) : State :=
  match s.anyColl tile ticket with
  | none => s
  | some o => s.putColl tile (o.setChunk k { o.chunk k with given := true })

/-- A step of the rank completes (R316). -/
def State.stepDone (s : State) (tile ticket : Nat) : State :=
  let g := s.coll tile
  let f (x : CollOp) : CollOp := if x.ticket = ticket then { x with steps := x.steps + 1 } else x
  let s1 := s.setColl tile { g with ops := g.ops.map f, fin := g.fin.map f }
  match s1.findColl tile ticket with
  | some o => if o.complete then s1.once (.collectiveComplete tile ticket) else s1
  | none => s1

/-- The record that takes part in an instance of a plan at a tile, running or ended. -/
def Coll.inInstance (g : Coll) (plan inst : Nat) : Option CollOp :=
  (g.bound plan inst).or (g.fin.find? (fun o => decide (o.plan = plan) && decide (o.inst = inst)))

/-- The CHUNK word (R313, R320): the step's chunks start on the circuit at the tile that owns it. Step 0 begins an
instance unless a chunk of another rank has begun it here. -/
def State.chunkStep (s : State) (c plan step : Nat) : State :=
  let ci := s.circ c
  let tile := ci.owner
  let g := s.coll tile
  let begun := Tab.get 0 plan g.insts
  let own := Tab.get 0 plan g.words + (if step = 0 then 1 else 0)
  let inst := if own = 0 then begun else own
  let s0 := s.setColl tile { g with words := Tab.set 0 plan own g.words }
  let fresh := decide (step = 0) && decide (begun < own)
  match (if fresh then s0.bindColl tile plan own else (g.inInstance plan inst, s0)) with
  | (none, s1) => if fresh then s1.missed tile plan own else s1
  | (some o, s1) =>
    if ci.state ≠ .live then s1.once (.collectiveAbort tile o.ticket 4)
    else
      let (l, gather) := o.sends step
      let part := if gather then ChunkPart.result else .sum o.rank
      if l = [] then s1.stepDone tile o.ticket else l.foldl (fun s k => s.sendChunk c tile o part k) s1

/-- A chunk in the rank's staging once `v` has come (R313, R414): a final value; or a partial, kept there until its turn in
the order of R98 and combined with every one whose turn has come. -/
def State.stage (s : State) (o : CollOp) (k : Nat) (part : ChunkPart) (v : Nat) : Option (Chunk × State) :=
  let h := o.chunk k
  match part with
  | .result => some ({ h with state := 2, ranks := o.n, value := v }, s)
  | .sum f =>
    if o.awaits k h f && !h.parts.any (fun e => decide (e.1 = f)) then
      State.absorb o k (h.parts.length + 1) { h with parts := h.parts ++ [(f, v)] } s
    else some (h, s)

/-- A chunk's value taken into the rank (R313, R414). A RING sum in place is written whenever it is formed, any other value
when it is final. None while its destination holds the write. -/
def State.takeChunk (s : State) (tile : Nat) (o : CollOp) (k : Nat) (part : ChunkPart) (v : Nat) : Option State :=
  match s.stage o k part v with
  | none => some (s.once (.collectiveAbort tile o.ticket 3))
  | some (h, s1) =>
    let old := o.chunk k
    let put := o.writes k && !old.written && decide (h.ranks ≠ old.ranks) &&
      (decide (h.state = 2) || (o.inPlace && !o.sig.tree && decide (o.sig.opk ≠ 2) && decide (o.sig.opk ≠ 3)))
    match (if put then s1.writeChunk o k h.value else (.ok [] 0, s1)) with
    | (.hold, _) => none
    | (.fault _ _, s2) => some (s2.once (.collectiveAbort tile o.ticket 3))
    | (.ok _ _, s2) =>
      let o1 := o.setChunk k { h with written := old.written || (put && decide (h.state = 2)) }
      let s3 := (s2.putColl tile o1).fillSends tile o1 k
      some (if o1.complete && (s3.findColl tile o.ticket).isSome then s3.once (.collectiveComplete tile o.ticket) else s3)

/-- The writer asked to write what a rank's write of chunk `k` waits for (R379, R380). -/
def State.wakeWriter (k : Nat) (s : State) (o : CollOp) : State :=
  if s.engineStalls o.place o.dst.space then s.once (.writerDrain o.place.tile o.place.core)
  else match s.writeChunk o k 0 with
    | (.hold, s1) => s1
    | _ => s

/-- A chunk of an instance reaches a tile of this module: it may begin the instance there. -/
def State.chunkIn (s : State) (tile : Nat) (sig : CollSig) (plan inst k : Nat) (part : ChunkPart) (v : Nat) : Option State :=
  let fresh := decide (Tab.get 0 plan (s.coll tile).insts < inst)
  match (if fresh then s.bindColl tile plan inst else ((s.coll tile).inInstance plan inst, s)) with
  | (none, s1) => some (if fresh then s1.missed tile plan inst else s)
  | (some o, s1) =>
    if o.sig ≠ sig then some (s1.once (.collectiveAbort tile o.ticket 7))
    else s1.takeChunk tile o k part v

/-- CHUNK_ARRIVAL (R313): a chunk from another module; one that its destination holds, or whose tile has no power, waits. -/
def execChunkArrival (tile ticket chunk : Nat) (part : ChunkPart) (data : List Byte) (s : State) : Out :=
  .next (match s.anyColl tile ticket with
    | none => s
    | some o =>
      if o.nc ≤ chunk then s
      else if !s.dieOn tile then s.behind (.chunkArrival tile ticket chunk part data)
      else
        let (o1, s1) : CollOp × State := if o.bound then (o, s) else
          match s.bindColl tile o.plan ((s.coll tile).instOf o) with
          | (some x, s1) => (if x.ticket = ticket then x else o, s1)
          | (none, _) => (o, s)
        (s1.takeChunk tile o1 chunk part (leNat data % 2 ^ ((o.span chunk).2 * o.sig.width))).getD
          ((s.wakeWriter chunk o).behind (.chunkArrival tile ticket chunk part data)))

/-! ## COLL, CQRY, CWAIT, CABT (R309, R310, R316) -/

/-- A range of `n` elements lies in a handle's window and memory (R310). -/
def State.rangeOut (s : State) (p : Place) (h : Handle) (hidx w : Nat) (pos : Int) (n : Nat) : Bool :=
  decide (n ≠ 0) &&
    (decide (pos < 0) ||
      (let u := h.unitSpan w pos (pos + n - 1)
       decide (u.1 + u.2 > h.bound)) ||
      (direct h.space && decide (spaceSize s (h.view p hidx).place.tile h.space < h.elemStart w pos + n * w / 8)))

/-- The checks of R310 after the record's own; a handle's window and space 9 come first among its ends' (R20, R54,
R200). -/
def State.collChecks (s : State) (a : Nat) (o : CollOp) : Option Event :=
  let rec_ (c : Nat) (i2 : Word) (bad : Bool) : Option Event := if bad then some (patFault c a i2) else none
  let w := o.sig.width
  let grp := Tab.get {} o.group s.groups
  let plan := s.seq.plans[o.plan]?
  let end_ (c : Nat) (h : Handle) (r : Nat) (wr : Bool) (pos : Int) (n : Nat) (bad : Bool) : Option Event :=
    if bad then some (endFault c h r wr w pos n) else none
  let b (h : Handle) (pos : Int) : Nat := h.elemStart w pos
  let so := b o.src o.soff
  let de := b o.dst o.doff
  let sn := o.sig.count * w / 8
  let dn := o.dstCount * w / 8
  firstBad [
    rec_ 0x0B 0 (decide (4 < o.sig.opk) || !ropTypes.contains o.sig.type ||
      (if o.sig.opk = 2 ∨ o.sig.opk = 3 then decide (o.sig.rop ≠ 0) else decide (o.sig.rop = 0))),
    rec_ 0x04 0 (!grp.ranks.contains (s.cur.tile, s.module)),
    rec_ 0x0B 0 (match plan with | none => true | some p => decide (p.group ≠ o.group) || p.tree != o.sig.tree),
    rec_ 0x01 0 (decide (2 ^ 20 < o.csz * w / 8)),
    end_ 0x01 o.src o.sidx false o.soff 0 (decide (o.sig.count ≠ 0) && decide (o.src.bound = 0)),
    end_ 0x01 o.dst o.didx true o.doff 0 (decide (o.dstCount ≠ 0) && decide (o.dst.bound = 0)),
    end_ 0x0D o.src o.sidx false o.soff 0 (decide (o.src.space = 9) && !s.cur.thimble),
    end_ 0x0D o.dst o.didx true o.doff 0 (decide (o.dst.space = 9) && !s.cur.thimble),
    end_ 0x04 o.src o.sidx false o.soff 0 (!([1, 2, 3, 4] : List Nat).contains o.src.space || !o.src.pr),
    end_ 0x04 o.dst o.didx true o.doff 0 (!([1, 2, 3, 4] : List Nat).contains o.dst.space || !o.dst.pw),
    end_ 0x0B o.src o.sidx false o.soff 0 (decide (o.src.type ≠ o.sig.type)),
    end_ 0x0B o.dst o.didx true o.doff 0 (decide (o.dst.type ≠ o.sig.type)),
    end_ 0x01 o.src o.sidx false o.soff o.sig.count (s.rangeOut s.cur o.src o.sidx w o.soff o.sig.count),
    end_ 0x01 o.dst o.didx true o.doff o.dstCount (s.rangeOut s.cur o.dst o.didx w o.doff o.dstCount),
    rec_ 0x01 (BitVec.ofNat 64 o.sig.root) (decide (o.n ≤ o.sig.root)),
    rec_ 0x01 (BitVec.ofNat 64 o.aboff) (decide (spaceSize s s.cur.tile 1 < o.aboff + 16 + 8 * o.nc)),
    rec_ 0x0B 0 (decide (o.src.space = o.dst.space) && decide (so < de + dn) && decide (de < so + sn) &&
      !(decide (so = de) && decide (sn = dn))),
    rec_ 0x01 (BitVec.ofNat 64 o.csel) (selBad o.csel)]

/-- The record at an operand (R309), with its group's and plan's figures. -/
def State.collOf (s : State) (bs : List Byte) (recOff : Nat) : CollOp :=
  let q (o n : Nat) : Nat := leNat ((bs.drop o).take n)
  let grp := Tab.get {} (q 3 1 % 64) s.groups
  let plan := s.seq.plans.getD (q 32 2) { group := 0, tree := false, nc := 1, steps := 0 }
  { ticket := ((s.coll s.cur.tile).count + 1).toNat, place := s.cur, task := s.taskId
    sig := { opk := q 0 1, type := q 1 1 % 32, tree := bitN (q 2 1) 0, rop := q 2 1 / 2 % 4, count := q 24 8, root := q 6 2 }
    group := q 3 1 % 64, plan := q 32 2, n := max 1 grp.ranks.length
    rank := grp.ranks.findIdx (fun e => decide (e = (s.cur.tile, s.module)))
    nc := plan.nc, planSteps := plan.steps
    src := s.h (BitVec.ofNat 6 (q 4 1)), dst := s.h (BitVec.ofNat 6 (q 5 1)), sidx := q 4 1 % 64, didx := q 5 1 % 64
    soff := sext 64 (q 8 8), doff := sext 64 (q 16 8), csel := q 34 2 % 512, cinc := BitVec.ofNat 32 (q 36 4)
    aboff := q 40 4, recOff := recOff }

/-- A group of one rank has no step: each chunk of its destination is its source's (R98). None while its destination holds
a write. -/
def State.collAlone (s : State) (o : CollOp) : Option State :=
  ((List.range o.nc).filter (fun k => o.writes k && !(o.chunk k).written)).foldl (fun (r : Option State) k => r.bind (fun s =>
    match s.contribution o k with
    | some (v, s1) => s1.takeChunk o.place.tile ((s1.findColl o.place.tile o.ticket).getD o) k .result v
    | none => some (s.once (.collectiveAbort o.place.tile o.ticket 3)))) (some s)

/-- COLLECTIVE_COMPLETE (R314). -/
def State.collComplete (s : State) (tile ticket : Nat) : State :=
  match s.findColl tile ticket with
  | none => s
  | some o =>
    if !s.dieOn tile then s.again (.collectiveComplete tile ticket)
    else if o.complete then s.finishColl tile o
    else if o.n = 1 then (s.collAlone o).getD ((s.wakeWriter 0 o).again (.collectiveComplete tile ticket))
    else s
def execCollectiveComplete (tile ticket : Nat) (s : State) : Out := .next (s.collComplete tile ticket)

/-- COLL (R309, R310). -/
def execColl (d : Reg) (m : MemOp) (t : Tack) (s : State) : Out :=
  issueX 4 t (fun s =>
    if 4 ≤ (s.coll s.cur.tile).ops.length then .wait false s
    else
      let h := s.h m.h
      let off := s.offM m
      let n := if elemUnit h.type then 512 / max 1 (typeWidth h.type) else 64
      (s.checkMem h m.h.toNat off { acc := .read, spaces := [1], pr := true, pw := false, typeOk := !isPB h.type
                                    align := 64, n := n, ranges := [((h.unitByte off).toNat, 64)] }).andThen fun segs _ s =>
        let o := s.collOf (readSegs s.settle.mem segs.flatten) ((h.base : Int) + h.unitByte off).toNat
        match s.collChecks m.h.toNat o with
        | some e => .trap e s
        | none =>
          let s0 := s.settle
          let g := s0.coll s.cur.tile
          let s1 := s0.setColl s.cur.tile { g with
            ops := g.ops ++ [o], count := g.count + 1, status := ((o.ticket, 0, 0) :: g.status).take 64 }
          let s2 := { s1 with mem := s1.mem.writeNat (o.scratch (o.recOff + 44)) 4 0 }
          let s3 := (s2.signBy s.cur o.csel).setX d (BitVec.ofNat 64 o.ticket)
          .done (if o.sig.count = 0 then s3.collComplete s.cur.tile o.ticket
            else if o.n = 1 then s3.once (.collectiveComplete s.cur.tile o.ticket) else s3)) s

/-- What a tile remembers of a ticket: STATUS and steps (R316). -/
def State.collStatus (s : State) (ticket : Nat) : Option (Nat × Nat) :=
  ((s.coll s.cur.tile).status.find? (fun e => decide (e.1 = ticket))).map (·.2)

/-- CQRY of a circuit (R316). -/
def State.circView (s : State) (c : Nat) : Word :=
  let ci := s.circ c
  BitVec.ofNat 64 (ci.state.code + (if ci.rx then 8 else 0) + (if ci.tree then 16 else 0) +
    (if ci.state = .live then ci.ports.length else 0) * 2 ^ 8 + ci.cause * 2 ^ 16)
/-- CQRY of the phase (R316); in the stitch of a PHASE word stepping B1 gives the phase that has just closed
(R478). -/
def State.phaseView (s : State) : Nat :=
  match s.seq.phase with
  | none => 0
  | some (start, stop) => if s.stitch = start then (if s.seq.lastEnd = start then start else 0) else stop

/-- CQRY (R316). -/
def execCqry (d a : Reg) (f : BitVec 3) (t : Tack) (s : State) : Out :=
  issue 4 t (fun s =>
    let k := (s.x32 a).toNat
    let v : Word := match f.toNat with
      | 0 => match s.collStatus k with
        | none => BitVec.allOnes 64
        | some (st, _) =>
          if st = 0x01 then 2 else if st = 0x0F then 3
          else match s.findColl s.cur.tile k with
            | some o => if o.bound then 1 else 0
            | none => 0
      | 1 => match s.collStatus k with
        | none => BitVec.allOnes 64
        | some (_, n) => match s.findColl s.cur.tile k with
          | some o => BitVec.ofNat 64 o.steps
          | none => BitVec.ofNat 64 n
      | 2 => s.circView (bits (s.x a) 0 8)
      | 3 => BitVec.ofNat 64 s.phaseView
      | _ => 0
    .done (s.setX d v)) s

/-- CWAIT (R316). -/
def execCwait (d a : Reg) (t : Tack) (s : State) : Out :=
  issue 4 t (fun s =>
    match s.collStatus (s.x32 a).toNat with
    | none => .done (s.setX d (BitVec.allOnes 64))
    | some (0, _) => .wait false s
    | some (st, _) => .done (s.setX d (BitVec.ofNat 64 st))) s

/-- CABT (R316): a remembered ticket that has not ended, whether a plan instance has taken it up or not (DEDUCED, log 80). -/
def execCabt (a : Reg) (t : Tack) (s : State) : Out :=
  issue 4 t (fun s =>
    let k := (s.x32 a).toNat
    .done (if (s.collStatus k).isSome then s.abortColl s.cur.tile k 1 else s)) s

/-! ## Flits and messages (R300, R387, R388) -/

/-- One flit of transfer `i` performed at the ends of this module; one that an end holds stays to be performed. A transfer
whose flits have all left stays until its last acknowledgement (R389). -/
def State.performFlit (s : State) (c i : Nat) (t : Transfer) : State :=
  let t1 := { t with flits := t.flits + 1, phase := t.phase.or s.phaseNo }
  let ack := s.ackStitch c s.stitch
  let t2 := { t1 with acked := some ack }
  match t.cargo with
  | .copy tile id =>
    match s.fabricOp tile id with
    | none => s.putTransfer c i none
    | some o =>
      let upto := if t.flits = 0 then o.done else min o.pat.total (t.flits * 3840 / max 1 o.pat.width)
      let r := State.fabricRun c tile (upto - o.done) o s
      let o1 := r.1
      let s1 := r.2.putOp (.tile tile) o1
      if o1.done < upto then (s1.nearEnds (s1.circ c)).foldl (State.wakeShared (s1.fabricElem tile o1)) (s1.putTransfer c i (some { t1 with flits := t.flits }))
      else if o1.pat.total ≤ o1.done then
        (s1.putTransfer c i (some (t2.note s.stitch ack o1.done))).freeSource (.tile tile) o1
      else s1.putTransfer c i (some (t1.note s.stitch ack o1.done))
  | .send m => (s.putTransfer c i (some t2)).arriveMessage c m
  | .fsig sel core v => (s.nearEnds (s.circ c)).foldl (fun s tile => s.fsigAt tile core sel v) (s.putTransfer c i (some t2))
  | .chunk _ _ sig plan inst k part v _ =>
    if s.spent t1 then
      let ends := s.nearEnds (s.circ c)
      match ends.foldl (fun (r : Option State) u => r.bind (fun s => s.chunkIn u sig plan inst k part (v.getD 0)))
          (some (s.putTransfer c i (some t2))) with
      | some s2 => s2
      | none => (ends.filterMap (fun u => (s.coll u).bound plan inst)).foldl (State.wakeWriter k) s
    else s.putTransfer c i (some t1)

/-- A tag failure on an endpoint (R419): the sixteenth within 125,000 stitches trips sensor 5. -/
def State.tagFailure (s : State) (e : Nat) : State :=
  let ep := Tab.get {} e s.eps
  let l := s.beat :: ep.tags.filter (fun n => decide (s.beat < n + 125000))
  let s1 := { s with eps := Tab.set {} e { ep with tags := if 16 ≤ l.length then [] else l } s.eps }
  if 16 ≤ l.length then s1.trip 5 else s1

/-- The next flit of a LIVE circuit leaves, if one may in this stitch, and is performed (R386 to R388); none once an alarm has
stopped the fabric (R463). -/
def State.sendFlit (s : State) (c : Nat) : State :=
  let ci := s.circ c
  if ci.state ≠ .live ∨ s.hub.halted then s
  else
    match s.nextFlit ci (ci.slotFree s.stitch) with
    | none => s
    | some i =>
      match ci.transfers[i]? with
      | none => s
      | some t => (s.setCirc c { (if t.isSend then ci else ci.takeSlot s.stitch) with turn := i + 1 }).performFlit c i t

/-- FLIT_ARRIVAL: the next flit of a LIVE circuit meets its fate (R387). A lost or discarded one is sent again, and has
cost its slot; a message's has left with its SEND. A tag check is made of a flit between modules, on the port whose turn it
is (R418, R419). -/
def State.flitArrival (s : State) (c : Nat) (fate : FlitFate) : State :=
  let ci := s.circ c
  if ci.state ≠ .live ∨ s.hub.halted then s
  else
    let leaves := ci.slotFree s.stitch && (s.nextFlit ci true).isSome
    match fate with
    | .arrives => s.sendFlit c
    | .lost => if leaves then s.setCirc c (ci.takeSlot s.stitch) else s
    | .tagFails e =>
      if !s.circFar ci then s
      else if ci.rx then (if (Tab.get {} e s.eps).circ = some c then s.tagFailure e else s)
      else if leaves && decide (s.flitEp ci = e) then (s.setCirc c (ci.takeSlot s.stitch)).tagFailure e else s
    | .message payload tag circ selfid =>
      if ci.rx ∧ ci.queue.length < 16 then s.arriveMessage c { seq := 0, payload := payload, tag := tag, circ := circ, selfid := selfid }
      else s
def execFlitArrival (c : Nat) (fate : FlitFate) (s : State) : Out := .next (s.flitArrival c fate)

/-- The flit slots of the present stitch that are still free, filled (R386, R388). -/
def State.fillSlots (c : Nat) : Nat → State → State
  | 0, s => s
  | n + 1, s => State.fillSlots c n (s.sendFlit c)
/-- The present stitch ends: every circuit's flits of it have left. -/
def State.flitsLeave (s : State) : State :=
  s.circuits.foldl (fun s (e : Nat × Circuit) => State.fillSlots e.1 ((s.circ e.1).ports.length + (s.circ e.1).transfers.length) s) s

/-- The 16 bytes of a message (R300). -/
def Message.bytes (m : Message) : List Byte :=
  leBytes 8 m.payload.toNat ++ leBytes 2 m.tag ++ leBytes 1 m.circ ++ leBytes 1 0 ++ leBytes 4 m.selfid

/-- A tree's leaf answers in its own stitches (R386). -/
def State.leafInTurn (s : State) (ci : Circuit) (tile : Nat) : Bool :=
  !ci.tree || leafSpeaks ((s.circEnds ci).findIdx (fun e => decide (e = (tile, s.module)))) s.stitch

/-- MESSAGE_DELIVERY (R300): the oldest queued message claims a slot of the message bobbin, is written and
published, and its credit returns; then the next one's turn comes. A full bobbin, or a full dirty budget (R379), holds it. On
a circuit to another module only the credit is seen here. -/
def State.deliverMessage (s : State) (c : Nat) : State :=
  let ci := s.circ c
  match ci.queue, ci.word with
  | (tile, m) :: rest, some w =>
    let core := coreKey tile w.rcore.toNat
    let b := s.bobbin core w.rbob.toNat
    if s.coreFull core then (s.once (.writerDrain tile w.rcore.toNat)).again (.messageDelivery c)
    else match (if s.dieOn tile && s.leafInTurn ci tile then b.claimSlot else none) with
    | none => s.again (.messageDelivery c)
    | some (a, b1) =>
      let s1 := s.setBobbin core w.rbob.toNat (b1.publish (b.claim.toNat % b.scount))
      let back := !ci.rx && !rest.any (fun e => decide (e.2.seq = m.seq))
      let s2 := { s1.setCirc c { ci with queue := rest, credits := if back then min 16 (ci.credits + 1) else ci.credits } with
        mem := s1.mem.writeBytes (sram kScratch core a) m.bytes }
      if rest = [] then s2 else s2.once (.messageDelivery c)
  | [], some _ =>
    let out := (ci.transfers.filter (fun t => t.isSend && t.acked.isNone)).length
    if s.circFar ci ∧ !ci.rx ∧ ci.credits + out < 16 then s.setCirc c { ci with credits := ci.credits + 1 } else s
  | _, none => s
def execMessageDelivery (c : Nat) (s : State) : Out := .next (s.deliverMessage c)

/-- A transfer of a fabric copy whose last acknowledgement has come (R389). -/
def State.ackedCopy (s : State) (tile id : Nat) : Bool :=
  s.circuits.any (fun e => e.2.transfers.any (fun t => decide (t.cargo = Cargo.copy tile id) && t.acked.any (fun n => decide (n ≤ s.stitch))))

/-- FABRIC_COPY_COMPLETE (R306, R307): every write is acknowledged; STATUS, ZCOUNT and DONE, then the increment; and the
trap of a copy that met poison with ZPOIS = 0 (log 37). -/
def State.fabricComplete (s : State) (tile id : Nat) : State :=
  match s.fabricOp tile id with
  | none => s
  | some o =>
    if o.waiting ∧ o.pat.total ≤ o.done ∧ s.ackedCopy tile id ∧ s.dieOn tile then
      let s1 := { s with circuits := s.circuits.map (fun (e : Nat × Circuit) => (e.1, e.2.keep (fun t => decide (t.cargo ≠ Cargo.copy tile id)))) }
      let s2 := s1.closeCopy (.tile tile) o (if o.zeroed = [] then 0x01 else 0x03)
      match o.poisonAt with
      | some a => if o.pat.zpois then s2 else s2.route tile o.task (fabricEvent 0x05 o.pat.circ o a)
      | none => s2
    else s
def execFabricCopyComplete (tile id : Nat) (s : State) : Out := .next (s.fabricComplete tile id)

/-- The last acknowledgement of a transfer has come (R389): a copy is complete, a step of a collective one chunk further
(R316). -/
def State.acknowledged (s : State) (c : Nat) (t : Transfer) : State :=
  match t.cargo with
  | .copy tile id => s.fabricComplete tile id
  | .send _ | .fsig _ _ _ => s.setCirc c ((s.circ c).keep (fun q => decide (q ≠ t)))
  | .chunk tile ticket _ _ _ k part _ _ =>
    let s1 := s.setCirc c ((s.circ c).keep (fun q => decide (q ≠ t)))
    let s2 := match part with | .sum _ => s1.gave tile ticket k | .result => s1
    if (s2.circ c).transfers.any (fun q => q.ofColl tile ticket) then s2 else s2.stepDone tile ticket
/-- Every acknowledgement of a circuit that has come by the present stitch. -/
def State.acksCome (s : State) (c : Nat) : State :=
  ((s.circ c).transfers.filter (fun t => t.acked.any (fun n => decide (n ≤ s.stitch)))).foldl (fun s t => s.acknowledged c t) s

end Sys2Proof.Machine
end

