-- ==== Sys2Proof/Machine/Special.lean ====
section
/-!
DEFINITION. The special functions of R99, correctly rounded to FP32.

RCP, SQRT and RSQ round an exact quotient or root with a sticky bit. The transcendental functions are
enclosed between two dyadic numbers; when both ends convert to the same FP32 bits and flags, those are the
result, else the enclosure is refined (an exact result is never transcendental, R99's exact cases apart).
-/
namespace Sys2Proof.Machine

/-- Numerator/denominator × 2^e to 64 bits and more, with a sticky lowest bit. -/
def quotSticky (num den : Nat) (neg : Bool) (e : Int) : Num :=
  let k := 70 + Nat.log2 den
  let q := num * 2 ^ k / den
  let r := num * 2 ^ k % den
  .fin neg (2 * q + (if r = 0 then 0 else 1)) (e - k - 1)

/-- √(m × 2^e) with a sticky lowest bit; e even. -/
def sqrtSticky (m : Nat) (e : Int) : Num :=
  let n := m * 2 ^ 80
  let r := Nat.sqrt n
  .fin false (2 * r + (if r * r = n then 0 else 1)) (e / 2 - 41)

/-- 1/√(m × 2^e) with a sticky lowest bit; e even. -/
def rsqSticky (m : Nat) (e : Int) : Num :=
  let k := 80 + Nat.log2 m
  let n := 2 ^ (2 * k) / m
  let r := Nat.sqrt n
  .fin false (2 * r + (if r * r * m = 2 ^ (2 * k) then 0 else 1)) (-(e / 2) - k - 1)

/-! Fixed-point enclosures at `p` fraction bits: each returns a lower bound; the upper bound is the lower
one plus the stated error. -/

/-- Σ y^k / k! from term `t`, number `k`, each term rounded down. -/
def expSeries (p y : Nat) : Nat → Nat → Nat → Nat
  | 0, _, _ => 0
  | fuel + 1, k, t => if t = 0 then 0 else t + expSeries p y fuel (k + 1) (t * y / 2 ^ p / (k + 1))
/-- e^y for y in [0, 1): error below 8p. -/
def expFix (p y : Nat) : Nat := expSeries p y (p + 8) 0 (2 ^ p)

/-- Σ z^(2k+1)/(2k+1), sign alternating when `alt`: atanh or atan of z = num/den. -/
def atSeries (p z2n z2d : Nat) (alt : Bool) : Nat → Nat → Nat → Int
  | 0, _, _ => 0
  | fuel + 1, k, t =>
    if t = 0 then 0
    else (if alt && decide (k % 2 = 1) then -((t / (2 * k + 1) : Nat) : Int) else ((t / (2 * k + 1) : Nat) : Int)) +
      atSeries p z2n z2d alt fuel (k + 1) (t * z2n / z2d)
/-- atanh(num/den) at p bits, num/den ≤ 1/3 or so: error below 4p. -/
def atanhFix (p num den : Nat) : Int := atSeries p (num * num) (den * den) false (p + 8) 0 (num * 2 ^ p / den)
def atanFix (p num den : Nat) : Int := atSeries p (num * num) (den * den) true (p + 8) 0 (num * 2 ^ p / den)
/-- ln 2 and π at p bits, error below 16p and 160p either way. -/
def ln2Fix (p : Nat) : Int := 2 * atanhFix p 1 3
def piFix (p : Nat) : Int := 16 * atanFix p 1 5 - 4 * atanFix p 1 239
/-- Σ ± y^(2k+1)/(2k+1)!: sin y at p bits. -/
def sinSeries (p y2 : Nat) : Nat → Nat → Nat → Int
  | 0, _, _ => 0
  | fuel + 1, k, t =>
    if t = 0 then 0
    else (if k % 2 = 1 then -(t : Int) else (t : Int)) +
      sinSeries p y2 fuel (k + 1) (t * y2 / 2 ^ p / ((2 * k + 2) * (2 * k + 3)))
def sinFix (p y : Nat) : Int := sinSeries p (y * y / 2 ^ p) (p + 8) 0 y

/-- An enclosure lo × 2^e to hi × 2^e. -/
abbrev Encl := Int × Int × Int

/-- The result when both ends agree. -/
def agree (b : Encl) : Option (Nat × Nat) :=
  let (lo, hi, e) := b
  let x := cvt fp32 (Num.dy lo e) 0 false
  let y := cvt fp32 (Num.dy hi e) 0 false
  if x = y then some x else none

/-- Refine an enclosure, doubling the precision. -/
def ziv (f : Nat → Encl) : Nat → Nat → Nat × Nat
  | 0, p => cvt fp32 (Num.dy (f p).1 (f p).2.2) 0 false
  | fuel + 1, p => match agree (f p) with
    | some r => r
    | none => ziv f fuel (2 * p)

/-- 2^(m × 2^e) enclosed: exact dyadic exponent with integer part taken out. -/
def exp2Encl (v : Int) (e : Int) (p : Nat) : Encl :=
  let q : Nat := (-e).toNat
  let n := if 0 ≤ e then v * 2 ^ e.toNat else v.fdiv (2 ^ q : Nat)
  let frac : Nat := if 0 ≤ e then 0 else (v - n * (2 ^ q : Nat)).toNat
  let y := (frac * (ln2Fix p).toNat) / 2 ^ q
  let r : Int := expFix p y
  (r - 1, r + 200 * p, n - p)

/-- e^(−x) for x = m × 2^e ≥ 0 enclosed. -/
def expNegEncl (m : Nat) (e : Int) (p : Nat) : Encl :=
  let l2 := (ln2Fix p).toNat
  let x : Nat := if 0 ≤ e then m * 2 ^ e.toNat * 2 ^ p else m * 2 ^ p / 2 ^ (-e).toNat
  let n := x / l2 + 1
  let y : Int := (n : Int) * l2 - x
  let r : Int := expFix p y.toNat
  (r - 400 * p * (n + 1), r + 400 * p * (n + 1), -(n : Int) - p)

/-- log₂ of m × 2^e enclosed. -/
def log2Encl (m : Nat) (e : Int) (p : Nat) : Encl :=
  let k := Nat.log2 m
  let z := 2 * atanhFix p (m - 2 ^ k) (m + 2 ^ k)
  let l2 := ln2Fix p
  let q := (z * (2 ^ p : Nat)) / l2
  let base := ((k : Int) + e) * (2 ^ p : Nat)
  (base + q - 200 * p, base + q + 200 * p, -(p : Int))

/-- sin(π m / 2^k), 0 ≤ m/2^k ≤ 1/2, enclosed. -/
def sinpiEncl (m k : Nat) (p : Nat) : Encl :=
  let y := ((piFix p) * m).toNat / 2 ^ k
  let r := sinFix p y
  (r - 400 * p, r + 400 * p, -(p : Int))

/-- (1 − u)/(1 + u) or 1/(1 + u) or u/(1 + u) with u enclosed below 1 (all at scale 2^-p). -/
def fracEncl (kind : Nat) (u : Encl) (p : Nat) : Encl :=
  let one : Int := (2 ^ p : Nat)
  -- u × 2^p between ulo and uhi
  let sh (v : Int) : Int := if 0 ≤ u.2.2 + p then v * 2 ^ (u.2.2 + p).toNat else v.fdiv (2 ^ (-(u.2.2 + p)).toNat : Nat)
  let ulo := sh u.1 - 1
  let uhi := sh u.2.1 + 1
  match kind with
  | 0 => ((one - uhi) * one / (one + uhi) - 2, (one - ulo) * one / (one + ulo) + 2, -(p : Int))
  | 1 => (one * one / (one + uhi) - 2, one * one / (one + ulo) + 2, -(p : Int))
  | _ => (ulo * one / (one + ulo) - 2, uhi * one / (one + uhi) + 2, -(p : Int))

/-- A value just below (or above) m × 2^e. -/
def nudge (neg : Bool) (m : Nat) (e : Int) (up : Bool) : Nat × Nat :=
  cvt fp32 (.fin neg (if up then m * 2 ^ 64 + 1 else m * 2 ^ 64 - 1) (e - 64)) 0 false

/-- The functions of R99 by the F code of VSFN: 0 EXP2, 1 LOG2, 2 RCP, 3 RSQ, 4 SQRT, 5 TANH, 6 SIGM,
7 SINPI (R256). FP32 in, FP32 bits and flags out. -/
def specialFn (fn : Nat) (a : Nat) : Nat × Nat :=
  let x := fp32.decode a
  match fn, x with
  | _, .nan => (fp32.nan, 0)
  -- EXP2
  | 0, .inf neg => (if neg then 0 else fp32.infBits false, 0)
  | 0, .fin neg m e =>
    if m = 0 then (0x3F800000, 0)
    else if ilog m e < -40 then nudge false 1 0 (!neg)
    else if ilog m e ≥ 9 then (if neg then (0, fUF + fNX) else (fp32.infBits false, fOF + fNX))
    else
      let v : Int := if neg then -(m : Int) else m
      if e ≥ 0 ∨ m % 2 ^ (-e).toNat = 0 then
        let n := if 0 ≤ e then v * 2 ^ e.toNat else v / (2 ^ (-e).toNat : Nat)
        cvt fp32 (.fin false 1 n) 0 false
      else ziv (exp2Encl v e) 6 128
  -- LOG2
  | 1, .inf neg => if neg then (fp32.nan, fNV) else (fp32.infBits false, 0)
  | 1, .fin neg m e =>
    if m = 0 then (fp32.infBits true, fDZ)
    else if neg then (fp32.nan, fNV)
    else if m = 2 ^ Nat.log2 m then cvt fp32 (Num.ofInt (ilog m e)) 0 false
    else ziv (log2Encl m e) 6 128
  -- RCP
  | 2, .inf neg => (signBit fp32 neg, 0)
  | 2, .fin neg m e => if m = 0 then (fp32.infBits neg, fDZ) else cvt fp32 (quotSticky 1 m neg (-e)) 0 false
  -- RSQ
  | 3, .inf neg => if neg then (fp32.nan, fNV) else (0, 0)
  | 3, .fin neg m e =>
    if m = 0 then (fp32.infBits neg, fDZ) else if neg then (fp32.nan, fNV)
    else cvt fp32 (if e % 2 = 0 then rsqSticky m e else rsqSticky (2 * m) (e - 1)) 0 false
  -- SQRT
  | 4, .inf neg => if neg then (fp32.nan, fNV) else (fp32.infBits false, 0)
  | 4, .fin neg m e =>
    if m = 0 then (signBit fp32 neg, 0) else if neg then (fp32.nan, fNV)
    else cvt fp32 (if e % 2 = 0 then sqrtSticky m e else sqrtSticky (2 * m) (e - 1)) 0 false
  -- TANH
  | 5, .inf neg => (signBit fp32 neg + 0x3F800000, 0)
  | 5, .fin neg m e =>
    if m = 0 then (signBit fp32 neg, 0)
    else if ilog m e < -40 then nudge neg m e false
    else if ilog m e ≥ 6 then nudge neg 1 0 false
    else
      let r := ziv (fun p => fracEncl 0 (expNegEncl m (e + 1) p) p) 6 256
      (signBit fp32 neg + r.1, r.2)
  -- SIGM
  | 6, .inf neg => (if neg then 0 else 0x3F800000, 0)
  | 6, .fin neg m e =>
    if m = 0 then (0x3F000000, 0)
    else if ilog m e < -40 then nudge false 1 (-1) (!neg)
    else if ilog m e ≥ 8 then (if neg then (0, fUF + fNX) else nudge false 1 0 false)
    else ziv (fun p => fracEncl (if neg then 2 else 1) (expNegEncl m e p) p) 6 512
  -- SINPI
  | 7, .inf _ => (fp32.nan, fNV)
  | 7, .fin neg m e =>
    if m = 0 then (signBit fp32 neg, 0)
    else
      -- |x| mod 2 as r / 2^k
      let k := (-e).toNat
      let r := if 0 ≤ e then (m * 2 ^ e.toNat) % 2 else m % (2 * 2 ^ k)
      let one := 2 ^ k
      if r % one = 0 then (signBit fp32 neg, 0)
      else
        let flip := decide (one < r)
        let r1 := r % one
        let r2 := if 2 * r1 > one then one - r1 else r1
        if 2 * r2 = one then (signBit fp32 (neg != flip) + 0x3F800000, 0)
        else
          let z := ziv (sinpiEncl r2 k) 6 (128 + k)
          (signBit fp32 (neg != flip) + z.1, z.2)
  | _, _ => (fp32.nan, 0)

end Sys2Proof.Machine
end

