-- ==== Sys2Proof/Machine/Lanes.lean ====
section
/-!
DEFINITION. Row words, ownership, active lanes, and the lane arithmetic of the vector engine (R19, R27, R30,
R95 to R97, R241 to R259).
-/
namespace Sys2Proof.Machine

/-! ## Row words and the checks of R243 -/

/-- A row word (R241). -/
structure RowWord where
  tile : Nat
  row : Nat
  cnt : Nat
  flg : Nat
  deriving DecidableEq, Repr

def rowWord (w : Word) : RowWord := ⟨bits w 8 3, bits w 0 8, bits w 16 8, bits w 24 8⟩

/-- The fault of order 2 or 3 of R243: CAUX the OP value, TINFO2 the register that holds the offending word. -/
def rowFault (code op : Nat) (v : Word) : Event := { code := code, info1 := tinfo1 op 0 false false 0, info2 := v }

/-- CORECFG gives accumulator tile `a` to the executing slot (R30, R43). -/
def State.ownsTile (s : State) (a : Nat) : Bool := decide (s.myCore.corecfg.toNat / 4 ^ a % 4 = s.cur.slot)
/-- CORECFG gives the matrix engine to the executing slot (R30, R43). -/
def State.ownsMatrix (s : State) : Bool := decide (s.myCore.corecfg.toNat / 2 ^ 16 % 4 = s.cur.slot)

/-- Declared type of an accumulator tile of the executing core. -/
def State.tileType (s : State) (a : Nat) : Nat := (s.myCore.accum a).type
/-- Width of a tile's lanes. -/
def State.tileW (s : State) (a : Nat) : Nat := typeWidth (s.tileType a)

/-- Classes of R246. -/
def isFloatT (t : Nat) : Bool := decide (8 ≤ t) && decide (t ≤ 0x0B)
def isStorageT (t : Nat) : Bool := decide (t = 0x0C) || decide (t = 0x0D)
/-- Types a tile may declare (R27). -/
def accType (t : Nat) : Bool := isFloatT t || isStorageT t || [0, 1, 2, 4, 5, 6].contains t

/-- Active lanes of a tile of `L` lanes under the executing stream's VLEN (R19). -/
def State.activeN (s : State) (L : Nat) : Nat :=
  let n := s.me.vlen.toNat % 4096
  if n = 0 then L else min n L

/-- The lanes of the row a row word names. -/
def State.rowOf (s : State) (r : RowWord) : List Nat := s.getRow s.cur.coreK r.tile r.row (s.tileW r.tile)
/-- A row written whole. -/
def State.putRow (s : State) (r : RowWord) (ls : List Nat) : State := s.setRow s.cur.coreK r.tile r.row (s.tileW r.tile) ls

/-- The first `n` lanes computed from three rows, the rest of the third kept; flags joined. -/
def lanes3 (f : Nat → Nat → Nat → Nat × Nat) : Nat → List Nat → List Nat → List Nat → List Nat × Nat
  | n + 1, a :: as, b :: bs, d :: ds =>
    let r := f a b d
    let q := lanes3 f n as bs ds
    (r.1 :: q.1, r.2 ||| q.2)
  | _, _, _, ds => (ds, 0)
/-- The first `n` lanes computed from one row and the lane index. -/
def lanes1 (f : Nat → Nat → Nat × Nat) : Nat → Nat → List Nat → List Nat → List Nat × Nat
  | n + 1, i, a :: as, _ :: ds =>
    let r := f i a
    let q := lanes1 f n (i + 1) as ds
    (r.1 :: q.1, r.2 ||| q.2)
  | _, _, _, ds => (ds, 0)

/-! ## Elementwise results (R249 to R253) -/

/-- An exact integer delivered to a lane: wrapped, or clamped under .SAT (R251). A clamp sets SAT and NX; wrapping is
the operation itself and sets nothing (R68: DEDUCED, log 31). -/
def intLane (t : Nat) (sat' : Bool) (v : Int) : Nat × Nat :=
  let w := typeWidth t
  if sat' then
    let c := sat v (intLo t) (intHi t)
    (wrapU w c, if c = v then 0 else fSAT + fNX)
  else (wrapU w v, 0)

/-- A format's float result; a WF32 operation with a NaN operand sets NV (R250). -/
def floatLane (f : Fmt) (nan : Bool) (r : Nat × Nat) : Nat × Nat :=
  if f.kind = 3 ∧ nan then (r.1, r.2 ||| fNV) else r

/-- The rounding mode of a float lane: 5, 6 and 7 act as RNE (R75, R250). -/
def laneMode (m : Nat) : Nat := if m ≤ 4 then m else 0

/-- Elementwise operations of R249. -/
inductive LaneOp where
  | add
  | sub
  | mul
  | fma
  | min
  | max
  | abs
  | neg
  deriving DecidableEq, Repr

def LaneOp.ternary : LaneOp → Bool
  | .fma => true
  | _ => false

/-- The float result of a lane. ABS and NEG change the sign alone, also of a WF32 zero whose F is not 0 (R250, R73:
DEDUCED, log 32). -/
def LaneOp.float (o : LaneOp) (f : Fmt) (m a b d : Nat) : Nat × Nat :=
  let na := (f.decode a).isNan
  let nan := na || (f.decode b).isNan || (o.ternary && (f.decode d).isNan)
  match o with
  | .add => floatLane f nan (fAdd f m a b)
  | .sub => floatLane f nan (fSub f m a b)
  | .mul => floatLane f nan (fMul f m a b)
  | .fma => floatLane f nan (fFma f m a b d)
  | .min => (fMin f a b, 0)
  | .max => (fMax f a b, 0)
  | .abs => if na then (f.nan, 0) else (a % 2 ^ (f.eb + f.fb), 0)
  | .neg => if na then (f.nan, 0) else (a ^^^ 2 ^ (f.eb + f.fb), 0)

/-- The integer result of a lane. -/
def LaneOp.int (o : LaneOp) (t : Nat) (sat' : Bool) (a b d : Nat) : Nat × Nat :=
  let x := intOf t a
  let y := intOf t b
  match o with
  | .add => intLane t sat' (x + y)
  | .sub => intLane t sat' (x - y)
  | .mul => intLane t sat' (x * y)
  | .fma => intLane t sat' (x * y + intOf t d)
  | .min => (if x ≤ y then a else b, 0)
  | .max => (if x ≤ y then b else a, 0)
  | .abs => intLane t sat' x.natAbs
  | .neg => intLane t sat' (-x)

def LaneOp.lane (o : LaneOp) (t f a b d : Nat) : Nat × Nat :=
  match fmtOf t with
  | some fm => o.float fm (laneMode f) a b d
  | none => o.int t (bitN f 0) a b d

/-- VCMP's condition (R252). -/
def cmpHolds (t f a b : Nat) : Bool :=
  let na := match fmtOf t with | some fm => (fm.decode a).isNan || (fm.decode b).isNan | none => false
  let lt (x y : Nat) : Bool := match fmtOf t with
    | some fm => (fm.decode x).lt false (fm.decode y)
    | none => decide (intOf t x < intOf t y)
  let eq := !na && !lt a b && !lt b a
  match f with
  | 0 => eq
  | 1 => !eq
  | 2 => lt a b
  | 3 => lt a b || eq
  | 4 => lt b a
  | 5 => lt b a || eq
  | 6 => !na
  | _ => na

/-! ## Reductions and scans (R95 to R97, R257 to R259) -/

/-- The operation and identity of a reduction by F (R95, R257), on (value, flags). -/
def redOp (t f : Nat) : (Nat → Nat → Nat × Nat) × Nat :=
  let w := typeWidth t
  match f with
  | 3 => (fun a b => (a &&& b, 0), 2 ^ w - 1)
  | 4 => (fun a b => (a ||| b, 0), 0)
  | 5 => (fun a b => (a ^^^ b, 0), 0)
  | _ =>
    match fmtOf t with
    | some fm =>
      match f with
      | 0 => (fAdd fm 0, signBit fm true)
      | 1 => (fun a b => (fMin fm a b, 0), fm.infBits false)
      | _ => (fun a b => (fMax fm a b, 0), fm.infBits true)
    | none =>
      match f with
      | 0 => (fun a b => ((a + b) % 2 ^ w, 0), 0)
      | 1 => (fun a b => (if intOf t a ≤ intOf t b then a else b, 0), wrapU w (intHi t))
      | _ => (fun a b => (if intOf t b ≤ intOf t a then a else b, 0), wrapU w (intLo t))

/-- The operation on values that carry the flags raised so far. -/
def flagged (op : Nat → Nat → Nat × Nat) (a b : Nat × Nat) : Nat × Nat :=
  let r := op a.1 b.1
  (r.1, a.2 ||| b.2 ||| r.2)

/-- Lanes past the active count replaced by the identity (R95). -/
def maskLanes (n ident : Nat) (l : List Nat) : List Nat := l.take n ++ List.replicate (l.length - n) ident

/-- TreeSum over a row's full lane count (R95): value and flags. -/
def treeRow (op : Nat → Nat → Nat × Nat) (ident n : Nat) (l : List Nat) : Nat × Nat :=
  treeSum (flagged op) (ident, 0) 12 ((maskLanes n ident l).map (fun v => (v, 0)))

/-- .ARGMIN and .ARGMAX (R258): index and bits of the winner among the active lanes. -/
def argRow (t : Nat) (isMax : Bool) (l : List Nat) : Nat × Nat :=
  let nan (v : Nat) : Bool := match fmtOf t with | some fm => (fm.decode v).isNan | none => false
  let lt (x y : Nat) : Bool := match fmtOf t with
    | some fm => (fm.decode x).lt true (fm.decode y)
    | none => decide (intOf t x < intOf t y)
  match l.findIdx? nan with
  | some i => (i, match fmtOf t with | some fm => fm.nan | none => 0)
  | none =>
    match l with
    | [] => (0, 0)
    | v :: r =>
      ((r.zipIdx).foldl (fun (acc : Nat × Nat) (x, i) =>
        if (if isMax then lt acc.2 x else lt x acc.2) then (i + 1, x) else acc) (0, v))

/-- A w-bit result as a scalar: sign-extended for I types (R257, R262). -/
def laneWord (t v : Nat) : Word :=
  if isSigned t then word (sext (typeWidth t) v) else BitVec.ofNat 64 v

/-- ScanInc over a row with flags (R97). -/
def scanRow (op : Nat → Nat → Nat × Nat) (ident n : Nat) (l : List Nat) : List Nat × Nat :=
  let y := scanInc (flagged op) (ident, 0) ((l.zipIdx).map (fun (v, i) => (decide (i < n), (v, 0))))
  (y.map (·.1), (y.getLastD (0, 0)).2)

/-! ## FP32 arithmetic of the online softmax (R266, R267) -/

/-- The IEEE quotient, RNE (R267). -/
def fDiv (f : Fmt) (a b : Nat) : Nat × Nat :=
  match f.decode a, f.decode b with
  | .nan, _ | _, .nan => (f.nan, 0)
  | .inf _, .inf _ => (f.nan, fNV)
  | .inf n, .fin m _ _ => (f.infBits (n != m), 0)
  | .fin n _ _, .inf m => (signBit f (n != m), 0)
  | .fin n a1 e1, .fin m b1 e2 =>
    if b1 = 0 then (if a1 = 0 then (f.nan, fNV) else (f.infBits (n != m), fDZ))
    else if a1 = 0 then (signBit f (n != m), 0)
    else cvt f (quotSticky a1 b1 (n != m) (e1 - e2)) 0 false

/-- −∞ and 1.0 of FP32. -/
def fp32NegInf : Nat := 0xFF800000
def fp32One : Nat := 0x3F800000

/-- EXP2(Sub(a, b)) with its flags (R266). -/
def exp2Sub (a b : Nat) : Nat × Nat :=
  let d := fSub fp32 0 a b
  let r := specialFn 0 d.1
  (r.1, d.2 ||| r.2)

/-- One step of the online softmax on a row (R266 with R475): the new lanes, STATM, STATL, STATA, flags. -/
def softmaxRow (n : Nat) (m l : Nat) (row : List Nat) : List Nat × Nat × Nat × Nat × Nat :=
  let mx := treeRow (fun a b => (fMax fp32 a b, 0)) fp32NegInf n row
  let m1 := fMax fp32 m mx.1
  let dead := decide (m1 = fp32NegInf)
  let al : Nat × Nat := if decide (m = fp32NegInf) && dead then (0, 0) else exp2Sub m m1
  let new := lanes1 (fun _ v => if dead then (0, 0) else exp2Sub v m1) n 0 row row
  let sm := treeRow (fAdd fp32 0) (signBit fp32 true) n new.1
  let sl := fFma fp32 0 al.1 l sm.1
  (new.1, m1, sl.1, al.1, al.2 ||| new.2 ||| sm.2 ||| sl.2)

/-! ## Block quantisation of rows (R268 to R270) -/

/-- VQNT's control word. -/
def qntFirst (w : Word) : Nat := bits w 16 11
def qntNb (w : Word) : Nat := bits w 0 4
/-- The most plies a quantised row of a type holds; 0 where the type holds none (R268). -/
def qntMax (t : Nat) : Nat := match t with | 0 => 4 | 1 => 8 | _ => 0

/-- A 2q-bit mantissa under scale X as a float lane (R270). -/
def dqnLane (t q X v : Nat) : Nat × Nat :=
  match fmtOf t with
  | some fm => if X = 255 then (fm.nan, 0) else cvt fm (pbNum X q (sext (2 * q) v)) 0 true
  | none => (0, 0)
where
  pbNum (X q : Nat) (m : Int) : Num := Num.dy m ((X : Int) - 127 - (2 * (q : Int) - 1))

end Sys2Proof.Machine
end

