-- ==== Sys2Proof/Machine/Ply.lean ====
section
/-!
DEFINITION. Slice memory transfers and ply instructions (R192, R230 to R240).
-/
namespace Sys2Proof.Machine

/-! ## SLD and SST (R230) -/

/-- What a transfer of `n` whole rows asks of its byte-unit operand. -/
def Handle.rowsWant (h : Handle) (off : Int) (n : Nat) (store : Bool) (spaces : List Nat) : Want :=
  { acc := if store then .write else .read, spaces := spaces, pr := !store, pw := store, typeOk := !elemUnit h.type
    align := 64, n := 2048 * n, ranges := [((h.wstart + off).toNat, 2048 * n)] }

/-- Bytes written over checked segments by a stream of the executing core (R178). -/
def State.storeSegs (s : State) (space : Nat) (segs : List (Nat × Nat)) (bs : List Byte) : State :=
  let s1 := { s with mem := writeSegs s.mem segs bs }
  if space = 4 then s1.dropRuns s.cur.coreK segs else s1

/-- A last row above 511 (R230). -/
def sliceBad (x : Word) : Event := Event.mk' 0x01 0 0 x

/-- SLD (R230): the rows are read at their homes, and the L1 keeps no older line of them (R171). -/
def execSld (d : Reg) (m : MemOp) (f : BitVec 3) (t : Tack) (s : State) : Out :=
  issueX 4 t (fun s =>
    let h := s.h m.h
    let off := s.offM m
    let n := f.toNat + 1
    (s.checkMem h m.h.toNat off (h.rowsWant off n false [1, 2, 3, 4])).andThen fun segs _ s =>
      if 511 < (s.x d).toNat + f.toNat then .trap (sliceBad (s.x d)) s
      else
        let s1 := s.settle
        let s2 := if h.space = 4 then s1.dropRuns s.cur.coreK segs.flatten else s1
        .done { s2 with mem := s2.mem.writeBytes (sram kSlice s.cur.coreK (2048 * (s.x d).toNat)) (readSegs s2.mem segs.flatten) }) s

def execSst (d : Reg) (m : MemOp) (f : BitVec 3) (t : Tack) (s : State) : Out :=
  issueX 4 t (fun s =>
    let h := s.h m.h
    let off := s.offM m
    let n := f.toNat + 1
    (s.checkMem h m.h.toNat off (h.rowsWant off n true [1, 2, 3, 4])).andThen fun segs _ s =>
      let a := sram kSlice s.cur.coreK (2048 * (s.x d).toNat)
      if 511 < (s.x d).toNat + f.toNat then .trap (sliceBad (s.x d)) s
      else if (poisonIn s [(a, 2048 * n)]).isSome then .trap (Event.mk' 0x05 0 0 (s.x d)) s
      else
        let s1 := s.settle
        .done (s1.storeSegs h.space segs.flatten (s1.mem.readBytes a (2048 * n)))) s

/-! ## Operands of ply instructions (R231, R232) -/

/-- A ply control word: OFF2, n, H2, PK. -/
structure PlyCtl where
  off2 : Nat
  n : Nat
  h2 : Nat
  pk : Nat
  deriving DecidableEq, Repr

def plyCtl (w : Word) : PlyCtl := ⟨bits w 32 32, bits w 16 6 + 1, bits w 8 6, bits w 0 4⟩

/-- One tensor of a ply instruction: its handle, first element, the units R200 checks, what it asks. -/
structure PlyEnd where
  h : Handle
  r : Nat
  pos : Int
  off : Int
  n : Nat
  align : Nat
  acc : Access
  types : List Nat
  deriving DecidableEq, Repr

def pbTypes : List Nat := [0x18, 0x19, 0x1A, 0x1B, 0x1C, 0x1D, 0x1E, 0x1F]
def floatTypes : List Nat := [0x0A, 0x09, 0x08, 0x0B]

/-- The operand: its offset counts the handle's unit (R231). -/
def PlyEnd.operand (h : Handle) (r : Nat) (off : Int) (n : Nat) (acc : Access) (types : List Nat) : PlyEnd :=
  let w := max 1 (typeWidth h.type)
  if elemUnit h.type || !types.contains h.type then ⟨h, r, off, off, 768 * n, 1, acc, types⟩
  else ⟨h, r, (off * 8).fdiv w, off, 768 * n * w / 8, w / 8, acc, types⟩
/-- The second tensor: OFF2 counts elements (R219, R231). -/
def PlyEnd.second (h : Handle) (r : Nat) (off2 n : Nat) (acc : Access) (types : List Nat) : PlyEnd :=
  let w := typeWidth h.type
  if elemUnit h.type || !types.contains h.type then ⟨h, r, off2, off2, 768 * n, 1, acc, types⟩
  else
    let u := off2 * w / 8
    ⟨h, r, off2, u, ((off2 + 768 * n) * w + 7) / 8 - u, 1, acc, types⟩

/-- Index of the first group of a PB tensor's window part. -/
def PlyEnd.group (e : PlyEnd) (i : Nat) : Nat := ((e.h.wstart + e.pos) / 768).toNat + i

/-- The byte ranges group `i` (or `n` groups from it) touches: scale bytes when `sc`, and the named plies; for
a float tensor its elements. -/
def PlyEnd.ranges (e : PlyEnd) (i n : Nat) (sc : Bool) (plies : List Nat) : List (Nat × Nat) :=
  if isPB e.h.type then
    let g := e.group i
    let G := e.h.groups
    (if sc then [(16 * g, 16 * n)] else []) ++ plies.map (fun k => (scaleSlab G + 192 * G * k + 192 * g, 192 * n))
  else
    let w := typeWidth e.h.type
    let b := (e.h.elemBit w (e.pos + 768 * i)).toNat
    [(b / 8, (b + 768 * n * w + 7) / 8 - b / 8)]

/-- What a tensor asks of R200, for the plies it touches. -/
def PlyEnd.want (e : PlyEnd) (n : Nat) (sc : Bool) (plies : List Nat) : Want :=
  { acc := e.acc, spaces := [1, 2, 3, 4], pr := e.acc.reads, pw := e.acc.writes, typeOk := e.types.contains e.h.type
    layoutOk := e.h.layoutOk e.pos, offAlign := e.align, n := e.n, ranges := e.ranges 0 n sc plies, poison := false }

def PlyEnd.view (e : PlyEnd) (p : Place) : View := e.h.view p e.r

/-- 0x0B of a tensor that the instruction does not accept. -/
def PlyEnd.bad (e : PlyEnd) (code : Nat) (n : Nat) : Event := accessEvent code e.h e.r e.off (e.want n true [])

/-- The poison fault of group `i` (R232). -/
def PlyEnd.poisoned (e : PlyEnd) (s : State) (i n : Nat) (sc : Bool) (plies : List Nat) : Option Event :=
  if e.acc.reads && (poisonIn s (s.flatRanges (e.view s.cur) (e.ranges i 1 sc plies))).isSome then
    some { e.bad 0x05 n with info2 := BitVec.ofNat 64 i }
  else none

/-- A tensor with the plies it touches; `sc`: its scale bytes too. -/
structure PlyUse where
  e : PlyEnd
  sc : Bool
  plies : List Nat
  deriving DecidableEq, Repr

/-- Groups 0 to n − 1 in order: a poisoned one faults, earlier ones stay written (R232). A group answers what x[D] counts
and the flags it raises. -/
def plyLoop (uses : List PlyUse) (body : Nat → State → (Nat × Nat) × State) (n : Nat) :
    Nat → Nat × Nat → State → Except Event (Nat × Nat) × State
  | 0, acc, s => (.ok acc, s)
  | fuel + 1, acc, s =>
    let i := n - (fuel + 1)
    match uses.findSome? (fun u => u.e.poisoned s i n u.sc u.plies) with
    | some ev => (.error ev, s)
    | none =>
      let r := body i s
      plyLoop uses body n fuel (acc.1 + r.1.1, acc.2 ||| r.1.2) r.2

/-- The first fault of R200's checks 0 to 7 on both tensors, order by order (R231, R232); `rel`, the relation between
the two types, is part of order 4. DEDUCED (log 35): the order between tensors. -/
def plyChecks (n : Nat) (rel : Bool) (uses : List PlyUse) (s : State) : Option Event :=
  let all := uses.map (fun u => s.preChecks u.e.h u.e.r u.e.off (u.e.want n u.sc u.plies))
  let typed : List (Option Event) := if rel then [] else (uses.head?.map (fun u => u.e.bad 0x0B n)).toList.map some
  (List.range 8).findSome? (fun i => (all.map (fun l => l.getD i none) ++ (if i = 4 then typed else [])).findSome? id)

/-- The lines of the tensors dropped: what the instruction read at the homes or wrote there (R171, R178). -/
def plyDrop (n : Nat) (uses : List PlyUse) (s : State) : State :=
  uses.foldl (fun s u => s.dropRuns s.cur.coreK (s.flatRanges (u.e.view s.cur) (u.e.ranges 0 n u.sc u.plies))) s

/-- The checks of both tensors, then the groups. `sat`: x[D] counts saturations. -/
def plyRun (n : Nat) (rel : Bool) (uses : List PlyUse) (wd : Option Reg) (sat : Bool)
    (body : Nat → State → (Nat × Nat) × State) (s : State) : Eff :=
  match plyChecks n rel uses s with
  | some ev => .trap ev s
  | none =>
    let post := uses.foldl (fun (c : Chk) u => match c with
      | .ok _ _ s => s.postCheck u.e.h u.e.r u.e.off (u.e.want n u.sc u.plies)
      | c => c) (.ok [] 0 s)
    post.andThen fun _ _ s =>
      match plyLoop uses body n n (0, 0) s.settle with
      | (.error ev, s1) => .trap ev (plyDrop n uses s1)
      | (.ok acc, s1) =>
        let s2 := plyDrop n uses s1
        match wd with
        | some d => .done ((s2.setX d (BitVec.ofNat 64 acc.1)).raise (acc.2 ||| (if sat && decide (0 < acc.1) then fSAT else 0)))
        | none => .done s2

/-- Group `i` of a tensor read at `p` plies, written whole. -/
def PlyEnd.read (e : PlyEnd) (s : State) (i p : Nat) : Group := s.readGroup (e.view s.cur) e.h.groups (e.group i) p
def PlyEnd.write (e : PlyEnd) (s : State) (i : Nat) (g : Group) : State := s.writeGroup (e.view s.cur) e.h.groups (e.group i) g
/-- The 768 elements of group `i` of a float tensor. -/
def PlyEnd.floats (e : PlyEnd) (s : State) (i : Nat) : List Nat :=
  let w := typeWidth e.h.type
  let b := (e.h.elemBit w (e.pos + 768 * i)).toNat
  let bs := s.rd (e.view s.cur) (b / 8) (768 * (w / 8))
  (List.range 768).map (fun j => leNat ((bs.drop (j * (w / 8))).take (w / 8)))

/-- Blocks of a group as (scale, mantissas). -/
def Group.blocks (g : Group) : List (Nat × List Int) := (List.range 16).map (fun b => (g.scale b, g.mants b))

/-! ## The instructions (R234 to R240) -/

/-- NX (R68; log 31). -/
def nxIf (b : Bool) : Nat := if b then fNX else 0
/-- A mantissa of `k` fetched plies is not the one delivered at `p` (R82; log 31). -/
def deliverNX (mode p q k : Nat) (m : Int) : Bool := decide ((deliver mode p q m).1 * 4 ^ (k - p) ≠ m)
/-- A block delivered at p of q plies under a mode, its saturations, and its flags (R68, R82, R83). -/
def deliverBlock (mode p q : Nat) (b : Nat × List Int) : (Nat × List Int) × Nat × Nat :=
  let r := b.2.map (deliver mode p q)
  ((b.1, r.map (·.1)), if b.1 = 255 then (0, 0) else
    (r.countP (·.2), nxIf (b.2.any (deliverNX mode p q (pliesFetched mode p q)))))
/-- What the blocks of a group count, and the flags they raise. -/
def plySum {α : Type} (l : List (α × Nat × Nat)) : Nat × Nat :=
  ((l.map (·.2.1)).foldl (· + ·) 0, (l.map (·.2.2)).foldl (· ||| ·) 0)

/-- PLD (R235). -/
def execPld (d : Reg) (m : MemOp) (f : BitVec 3) (t : Tack) (s : State) : Out :=
  issueX 4 t (fun s =>
    let c := plyCtl (s.x d)
    let src := PlyEnd.operand (s.h m.h) m.h.toNat (s.offM m) c.n .read pbTypes
    let dst := PlyEnd.second (s.h (BitVec.ofNat 6 c.h2)) c.h2 c.off2 c.n .write pbTypes
    let q := pbPlies src.h.type
    let p := c.pk
    let mode := min f.toNat 2
    let k := pliesFetched mode p q
    plyRun c.n (decide (1 ≤ p) && decide (p ≤ q) && decide (dst.h.type = 0x17 + p))
      [⟨src, true, List.range k⟩, ⟨dst, true, List.range p⟩] (some d) true (fun i s =>
        let bl := (src.read s i k).blocks.map (deliverBlock mode p q)
        (plySum bl, dst.write s i (Group.ofBlocks p (bl.map (·.1))))) s) s

/-- The shared part of PST and PSTL: plies of the second tensor, then zero plies (R236). -/
def plyStore (d : Reg) (m : MemOp) (same : Bool) (s : State) : Eff :=
  let c := plyCtl (s.x d)
  let dst := PlyEnd.operand (s.h m.h) m.h.toNat (s.offM m) c.n .write pbTypes
  let src := PlyEnd.second (s.h (BitVec.ofNat 6 c.h2)) c.h2 c.off2 c.n .read pbTypes
  let q := pbPlies dst.h.type
  let p := pbPlies src.h.type
  plyRun c.n (if same then decide (p = q) else decide (p ≤ q)) [⟨dst, true, List.range q⟩, ⟨src, true, List.range p⟩] none false
    (fun i s =>
      let g := src.read s i p
      ((0, 0), dst.write s i { g with plies := g.plies ++ List.replicate (q - p) (List.replicate 16 0) })) s

def execPst (d : Reg) (m : MemOp) (t : Tack) (s : State) : Out := issueX 4 t (plyStore d m true) s
def execPstl (d : Reg) (m : MemOp) (t : Tack) (s : State) : Out := issueX 4 t (plyStore d m false) s

/-- The value of element j of a block plus α × x, and whether the product is 0 × ∞ (R68, R237). -/
def axpyValue (X q : Nat) (m : Int) (alpha : Num) (x : Num) : Num × Bool :=
  if X = 255 then (.nan, false) else Num.fma false alpha x (pbValue X q m)
/-- A block quantised at q plies under a mode with its random words, its clamps, and NX (R68, R94). -/
def quantPly (vs : List Num) (q mode : Nat) (rnds : List Nat) : (Nat × List Int) × Nat × Nat :=
  let b := quantBlock vs q mode rnds
  ((b.1, b.2.1), b.2.2, nxIf (quantNX vs q mode rnds))

/-- PAXPY (R237). -/
def execPaxpy (d : Reg) (m : MemOp) (f : BitVec 3) (t : Tack) (s : State) : Out :=
  issueX 4 t (fun s =>
    let c := plyCtl (s.x d)
    let y := PlyEnd.operand (s.h m.h) m.h.toNat (s.offM m) c.n .atomic pbTypes
    let x := PlyEnd.second (s.h (BitVec.ofNat 6 c.h2)) c.h2 c.off2 c.n .read [0x0A, 0x09, 0x08]
    let q := pbPlies y.h.type
    let alpha := fp32.decode ((s.x (d + 1)).toNat % 2 ^ 32)
    let key := s.x (d + 2)
    let ctr := s.x (d + 3)
    let rnd (L : Nat) : Nat :=
      let v := ctr + BitVec.ofNat 64 L
      (cg8 (bits key 0 32) (bits key 32 32) (bits v 0 32) (bits v 32 32) 0 0).1
    plyRun c.n true [⟨y, true, List.range q⟩, ⟨x, false, []⟩] (some d) true (fun i s =>
      let xs := x.floats s i
      let L0 := (y.h.wstart + y.pos + 768 * i).toNat
      let bl := ((y.read s i q).blocks.zipIdx).map (fun (b, k) =>
        let v := (b.2.zipIdx).map (fun (mj, j) => axpyValue b.1 q mj alpha (valueOf x.h.type (xs.getD (48 * k + j) 0)))
        let r := quantPly (v.map (·.1)) q f.toNat (if f.toNat = 5 then (List.range 48).map (fun j => rnd (L0 + 48 * k + j)) else [])
        (r.1, r.2.1, r.2.2 ||| (if v.any (·.2) then fNV else 0)))
      (plySum bl, y.write s i (Group.ofBlocks q (bl.map (·.1))))) s) s

/-- A block multiplied by 2^k, its clamps, and NX (R68, R238). -/
def scaleBlock (q : Nat) (k : Int) (b : Nat × List Int) : (Nat × List Int) × Nat × Nat :=
  if b.1 = 255 then (b, 0, 0)
  else
    let t := (b.1 : Int) + k
    if t < 0 then
      let n := min (-t) (2 * q + 2)
      let r := b.2.map (fun m => (roundInt 0 0 (decide (m < 0)) m.natAbs (-n)).1)
      ((0, r), 0, nxIf ((b.2.zip r).any (fun e => decide (e.2 * 2 ^ n.toNat ≠ e.1))))
    else if t ≤ 254 then ((t.toNat, b.2), 0, 0)
    else
      let r := b.2.map (fun m => let v := m * 2 ^ (min (t - 254) (2 * q + 1)).toNat; (satS v (2 * q), decide (satS v (2 * q) ≠ v)))
      ((254, r.map (·.1)), r.countP (·.2), nxIf (r.any (·.2)))

/-- A tensor rewritten block by block in place. -/
def plyMap (d : Reg) (m : MemOp) (sat : Bool) (f : State → Nat → (Nat × List Int) → (Nat × List Int) × Nat × Nat) (s : State) : Eff :=
  let c := plyCtl (s.x d)
  let y := PlyEnd.operand (s.h m.h) m.h.toNat (s.offM m) c.n .atomic pbTypes
  let q := pbPlies y.h.type
  let g := f s q
  plyRun c.n true [⟨y, true, List.range q⟩] (some d) sat (fun i s =>
    let bl := (y.read s i q).blocks.map g
    (plySum bl, y.write s i (Group.ofBlocks q (bl.map (·.1))))) s

/-- PSCL (R238). -/
def execPscl (d : Reg) (m : MemOp) (t : Tack) (s : State) : Out :=
  issueX 4 t (plyMap d m true (fun s q => scaleBlock q (s.x (d + 1)).toInt)) s

/-- The greatest s ≤ X that keeps every m × 2^s within 2q bits (R240). -/
def normShift (q X : Nat) (ms : List Int) : Nat :=
  (List.range (min X (2 * q) + 1)).foldl (fun best k => if ms.all (fun m => decide (satS (m * 2 ^ k) (2 * q) = m * 2 ^ k)) then k else best) 0

/-- A block at its highest precision, and whether its scale changed (R240). -/
def normBlock (q : Nat) (b : Nat × List Int) : (Nat × List Int) × Nat × Nat :=
  if b.1 = 255 then (b, 0, 0)
  else if b.2.all (fun m => decide (m = 0)) then ((0, b.2), if b.1 = 0 then 0 else 1, 0)
  else
    let k := normShift q b.1 b.2
    ((b.1 - k, b.2.map (fun m => m * 2 ^ k)), if k = 0 then 0 else 1, 0)

/-- PNORM (R240). -/
def execPnorm (d : Reg) (m : MemOp) (t : Tack) (s : State) : Out :=
  issueX 4 t (plyMap d m false (fun _ q => normBlock q)) s

/-- PCNT (R240). -/
def execPcnt (d : Reg) (m : MemOp) (t : Tack) (s : State) : Out :=
  issueX 4 t (fun s =>
    let c := plyCtl (s.x d)
    let y := PlyEnd.operand (s.h m.h) m.h.toNat (s.offM m) c.n .read pbTypes
    let G := y.h.groups
    plyRun c.n (decide (c.pk < pbPlies y.h.type)) [⟨y, false, [c.pk]⟩] (some d) false (fun i s =>
      (((recs12 16 (s.rd (y.view s.cur) (scaleSlab G + 192 * G * c.pk + 192 * y.group i) 192)).countP (· ≠ 0), 0), s)) s) s

/-- A block of a PB tensor at p plies as floats, the saturations and the flags of the roundings (R68, R76, R239). -/
def floatOf (type mode p q : Nat) (b : Nat × List Int) : List Nat × Nat × Nat :=
  if b.1 = 255 then (b.2.map (fun _ => (cvtTo type .nan 0 true).1), 0, 0)
  else
    let r := b.2.map (fun m =>
      let dl := deliver mode p q m
      let o := cvtTo type (pbValue b.1 p dl.1) 0 true
      (o.1, (if dl.2 then 1 else 0) + (if o.2 / fSAT % 2 = 1 then 1 else 0),
        o.2 ||| nxIf (deliverNX mode p q (pliesFetched mode p q) m)))
    (r.map (·.1), plySum r)

/-- PCVT (R239): its direction is fixed by which side is PB. -/
def execPcvt (d : Reg) (m : MemOp) (f : BitVec 3) (t : Tack) (s : State) : Out :=
  issueX 4 t (fun s =>
    let c := plyCtl (s.x d)
    let dst := PlyEnd.operand (s.h m.h) m.h.toNat (s.offM m) c.n .write (pbTypes ++ floatTypes)
    let src := PlyEnd.second (s.h (BitVec.ofNat 6 c.h2)) c.h2 c.off2 c.n .read (pbTypes ++ floatTypes)
    let mode := min f.toNat 2
    if isPB dst.h.type then
      let q := pbPlies dst.h.type
      plyRun c.n (!isPB src.h.type) [⟨dst, true, List.range q⟩, ⟨src, false, []⟩] (some d) true (fun i s =>
        let xs := src.floats s i
        let bl := (List.range 16).map (fun k =>
          quantPly ((List.range 48).map (fun j => valueOf src.h.type (xs.getD (48 * k + j) 0))) q 0 [])
        (plySum bl, dst.write s i (Group.ofBlocks q (bl.map (·.1))))) s
    else
      let q := pbPlies src.h.type
      let p := c.pk
      let k := pliesFetched mode p q
      let w := typeWidth dst.h.type
      plyRun c.n (isPB src.h.type && decide (1 ≤ p) && decide (p ≤ q)) [⟨dst, false, []⟩, ⟨src, true, List.range k⟩] (some d) true
        (fun i s =>
          let bl := (src.read s i k).blocks.map (floatOf dst.h.type mode p q)
          let b := (dst.h.elemBit w (dst.pos + 768 * i)).toNat
          (plySum bl,
            s.wr (dst.view s.cur) (b / 8) ((bl.flatMap (·.1)).flatMap (fun v => leBytes (w / 8) v)))) s) s

end Sys2Proof.Machine
end

