-- ==== Sys2Proof/Machine/Vector.lean ====
section
/-!
DEFINITION. The vector instructions (R245 to R270).
-/
namespace Sys2Proof.Machine

/-- Checks in order (R243): the first that holds is the fault. -/
def firstFault : List (Bool × Event) → Option Event
  | [] => none
  | (b, e) :: r => if b then some e else firstFault r

/-- A vector instruction: ownership of the tiles its row words name, then its own checks, then its effect. -/
def vecInstr (t : Tack) (rows : List Reg) (checks : State → List (Bool × Event)) (body : State → State) (s : State) : Out :=
  issue 4 t (fun s =>
    if !rows.all (fun r => s.ownsTile (rowWord (s.x r)).tile) then .trap privFault s
    else match firstFault (checks s) with
      | some e => .trap e s
      | none => .done (body s)) s

/-- The declared type of the tile a register's row word names, and its width. -/
def State.rtype (s : State) (r : Reg) : Nat := s.tileType (rowWord (s.x r)).tile
def State.rwidth (s : State) (r : Reg) : Nat := typeWidth (s.rtype r)
/-- A format fault naming register `r`. -/
def State.fmtBad (s : State) (op : Nat) (r : Reg) : Event := rowFault 0x0B op (s.x r)

/-- Each register's tile must be of a class and of the type of register `a` (R246). Where two tiles disagree, an F field is
out of range or a handle's TYPE is not accepted, no single word offends, and R243's TINFO2 is that of the first register
tested, D before the others; the same in the other checks of this chapter (DESIGN CHOICE, log 86). -/
def sameType (s : State) (op : Nat) (cls : Nat → Bool) (a : Reg) (rs : List Reg) : List (Bool × Event) :=
  rs.map (fun r => (!cls (s.rtype r) || decide (s.rtype r ≠ s.rtype a), s.fmtBad op r))
/-- Each register's tile must have the width of register `a`'s. -/
def sameWidth (s : State) (op : Nat) (a : Reg) (rs : List Reg) : List (Bool × Event) :=
  rs.map (fun r => (decide (s.rwidth r ≠ s.rwidth a), s.fmtBad op r))

def clsArith (t : Nat) : Bool := isFloatT t || isInt t

/-- The row a register names, and its active count. -/
def State.row (s : State) (r : Reg) : List Nat := s.rowOf (rowWord (s.x r))
def State.actives (s : State) (r : Reg) : Nat := s.activeN (16384 / s.rwidth r)

/-- A row and the flags its lanes raised written back. -/
def State.putLanes (s : State) (d : Reg) (r : List Nat × Nat) : State := (s.putRow (rowWord (s.x d)) r.1).raise r.2

/-! ## Elementwise (R249 to R253) -/

/-- A three-operand elementwise instruction on tiles of one type. -/
def vecElem (op : Nat) (o : LaneOp) (d a b : Reg) (f : BitVec 3) (t : Tack) (s : State) : Out :=
  vecInstr t [d, a, b] (fun s => sameType s op clsArith a [d, a, b]) (fun s =>
    s.putLanes d (lanes3 (o.lane (s.rtype d) f.toNat) (s.actives d) (s.row a) (s.row b) (s.row d))) s
/-- A unary one. -/
def vecUnary (op : Nat) (o : LaneOp) (d a : Reg) (f : BitVec 3) (t : Tack) (s : State) : Out :=
  vecInstr t [d, a] (fun s => sameType s op clsArith a [d, a]) (fun s =>
    s.putLanes d (lanes3 (o.lane (s.rtype d) f.toNat) (s.actives d) (s.row a) (s.row a) (s.row d))) s

def execVadd (d a b : Reg) (f : BitVec 3) (t : Tack) (s : State) : Out := vecElem 0x80 .add d a b f t s
def execVsub (d a b : Reg) (f : BitVec 3) (t : Tack) (s : State) : Out := vecElem 0x81 .sub d a b f t s
def execVmul (d a b : Reg) (f : BitVec 3) (t : Tack) (s : State) : Out := vecElem 0x82 .mul d a b f t s
def execVfma (d a b : Reg) (f : BitVec 3) (t : Tack) (s : State) : Out := vecElem 0x83 .fma d a b f t s
def execVmin (d a b : Reg) (f : BitVec 3) (t : Tack) (s : State) : Out := vecElem 0x84 .min d a b f t s
def execVmax (d a b : Reg) (f : BitVec 3) (t : Tack) (s : State) : Out := vecElem 0x85 .max d a b f t s
def execVabs (d a : Reg) (f : BitVec 3) (t : Tack) (s : State) : Out := vecUnary 0x86 .abs d a f t s
def execVneg (d a : Reg) (f : BitVec 3) (t : Tack) (s : State) : Out := vecUnary 0x87 .neg d a f t s

/-- VCMP (R252): D of the sources' width; sets no flag. -/
def execVcmp (d a b : Reg) (f : BitVec 3) (t : Tack) (s : State) : Out :=
  vecInstr t [d, a, b] (fun s => sameType s 0x88 clsArith a [a, b] ++ sameWidth s 0x88 a [d]) (fun s =>
    s.putLanes d (lanes3 (fun x y _ => (if cmpHolds (s.rtype a) f.toNat x y then 2 ^ s.rwidth d - 1 else 0, 0))
      (s.actives d) (s.row a) (s.row b) (s.row d))) s

/-- VSEL (R253). -/
def execVsel (d a b : Reg) (t : Tack) (s : State) : Out :=
  vecInstr t [d, a, b] (fun s => sameType s 0x89 accType a [b] ++ sameWidth s 0x89 a [d]) (fun s =>
    s.putLanes d (lanes3 (fun x y z => (if z ≠ 0 then x else y, 0)) (s.actives d) (s.row a) (s.row b) (s.row d))) s

/-- Bitwise instructions ask only for one width (R249). -/
def vecBit (op : Nat) (g : Nat → Nat → Nat) (d a b : Reg) (t : Tack) (s : State) : Out :=
  vecInstr t [d, a, b] (fun s => sameWidth s op a [d, b]) (fun s =>
    s.putLanes d (lanes3 (fun x y _ => (g x y, 0)) (s.actives d) (s.row a) (s.row b) (s.row d))) s

def execVand (d a b : Reg) (t : Tack) (s : State) : Out := vecBit 0x8A Nat.land d a b t s
def execVor (d a b : Reg) (t : Tack) (s : State) : Out := vecBit 0x8B Nat.lor d a b t s
def execVxor (d a b : Reg) (t : Tack) (s : State) : Out := vecBit 0x8C Nat.xor d a b t s

/-- A shift: s = b mod w, b unsigned (R249). -/
def vecShift (op : Nat) (g : Nat → Nat → Nat → Nat) (d a b : Reg) (t : Tack) (s : State) : Out :=
  vecInstr t [d, a, b] (fun s => sameType s op isInt a [d, a, b]) (fun s =>
    let ty := s.rtype d
    s.putLanes d (lanes3 (fun x y _ => (g ty x (y % typeWidth ty), 0)) (s.actives d) (s.row a) (s.row b) (s.row d))) s

def execVshl (d a b : Reg) (t : Tack) (s : State) : Out :=
  vecShift 0x8D (fun ty x n => x * 2 ^ n % 2 ^ typeWidth ty) d a b t s
def execVshr (d a b : Reg) (t : Tack) (s : State) : Out :=
  vecShift 0x8E (fun ty x n => wrapU (typeWidth ty) ((intOf ty x).fdiv (2 ^ n : Nat))) d a b t s

/-! ## Conversion and special functions (R254 to R256) -/

/-- One converted value (R255). -/
def cvtLane (ts td mode : Nat) (ieee : Bool) (rnd v : Nat) : Nat × Nat :=
  if isInt ts && isInt td then intLane td (!ieee) (intOf ts v)
  else cvtTo td (valueOf ts v) mode (!ieee) rnd

/-- The converted lanes from index `i`: part of the wider row mapped to the narrower (R254). -/
def cvtLanes (f : Nat → Nat → Nat × Nat) : Nat → List Nat → List Nat → List Nat → List Nat × Nat
  | n + 1, a :: as, r :: rs, _ :: ds =>
    let x := f r a
    let q := cvtLanes f n as rs ds
    (x.1 :: q.1, x.2 ||| q.2)
  | _, _, _, ds => (ds, 0)

/-- VCVT (R254, R255). -/
def execVcvt (d a b : Reg) (t : Tack) (s : State) : Out :=
  let sr (s : State) : Bool := decide (bits (s.x b) 0 3 = 5)
  issue 4 t (fun s =>
    let rows := if sr s then [d, a, b + 1] else [d, a]
    if !rows.all (fun r => s.ownsTile (rowWord (s.x r)).tile) then .trap privFault s
    else
      let cw := s.x b
      let ws := s.rwidth a
      let wd := s.rwidth d
      let part := bits cw 4 2
      match firstFault [(decide (max ws wd / min ws wd ≤ part), rowFault 0x0B 0x8F cw),
        (sr s && decide (ws ≠ 32) && decide (wd ≠ 32), rowFault 0x0B 0x8F cw),
        (sr s && decide (s.rwidth (b + 1) ≠ 32), s.fmtBad 0x8F (b + 1))] with
      | some e => .trap e s
      | none =>
        let ls := 16384 / ws
        let ld := 16384 / wd
        let so := if ws < wd then part * ld else 0
        let dO := if wd < ws then part * ls else 0
        let old := s.row d
        let rnds := if sr s then s.row (b + 1) else List.replicate (min ls ld) 0
        let r := cvtLanes (cvtLane (s.rtype a) (s.rtype d) (bits cw 0 3) (cw.getLsbD 3)) (s.activeN (min ls ld))
          ((s.row a).drop so) rnds (old.drop dO)
        .done (s.putLanes d (old.take dO ++ r.1, r.2))) s

/-- A special function on a lane: widened exactly, evaluated in FP32, converted back (R256). -/
def sfnLane (t fn v : Nat) : Nat × Nat :=
  if t = 0x0A then specialFn fn v
  else
    let x := cvt fp32 (valueOf t v) 0 false
    let r := specialFn fn x.1
    let y := cvtTo t (fp32.decode r.1) 0 false
    (y.1, r.2 ||| y.2)

/-- VSFN (R256). -/
def execVsfn (d a : Reg) (f : BitVec 3) (t : Tack) (s : State) : Out :=
  vecInstr t [d, a] (fun s => sameType s 0x90 (fun t => isFloatT t && decide (t ≠ 0x0B)) a [d, a]) (fun s =>
    s.putLanes d (lanes1 (fun _ v => sfnLane (s.rtype a) f.toNat v) (s.actives d) 0 (s.row a) (s.row d))) s

/-! ## Reductions, scans and fills (R257 to R260) -/

/-- VRED's scalar and flags (R257, R258). -/
def vredResult (ty f n : Nat) (l : List Nat) : Word × Nat :=
  if 6 ≤ f then
    let r := argRow ty (decide (f = 7)) (l.take n)
    (BitVec.ofNat 64 (r.1 * 2 ^ 32 + r.2), 0)
  else
    let o := redOp ty f
    let r := treeRow o.1 o.2 n l
    (laneWord ty r.1, r.2)

def execVred (d a : Reg) (f : BitVec 3) (t : Tack) (s : State) : Out :=
  vecInstr t [a] (fun s => sameType s 0x91 clsArith a [a]) (fun s =>
    let r := vredResult (s.rtype a) f.toNat (s.actives a) (s.row a)
    (s.setX d r.1).raise r.2) s

/-- VSCAN (R259). -/
def execVscan (d a : Reg) (f : BitVec 3) (t : Tack) (s : State) : Out :=
  vecInstr t [d, a] (fun s => sameType s 0x9F clsArith a [d, a] ++ [(decide (6 ≤ f.toNat), s.fmtBad 0x9F a)]) (fun s =>
    let o := redOp (s.rtype a) f.toNat
    s.putLanes d (scanRow o.1 o.2 (s.actives d) (s.row a))) s

/-- VBCST (R260). -/
def execVbcst (d a : Reg) (t : Tack) (s : State) : Out :=
  vecInstr t [d] (fun _ => []) (fun s =>
    s.putLanes d (lanes1 (fun _ _ => ((s.x a).toNat % 2 ^ s.rwidth d, 0)) (s.actives d) 0 (s.row d) (s.row d))) s

/-- VIOTA (R260). -/
def execViota (d a : Reg) (t : Tack) (s : State) : Out :=
  vecInstr t [d] (fun s => [(!isInt (s.rtype d), s.fmtBad 0x9E d)]) (fun s =>
    s.putLanes d (lanes1 (fun i _ => (((s.x a).toNat + i) % 2 ^ s.rwidth d, 0)) (s.actives d) 0 (s.row d) (s.row d))) s

/-! ## Moving lanes and rows (R261 to R264) -/

/-- VLD and VST (R261): whole rows, spaces 0 and 1. The handle's TYPE is R200's check 4 here, as in MSCL and MBIAS; an
operand format of R243's order 2 in MMA, MLW, MDRN and MGEMV (DESIGN CHOICE, log 87). -/
def vecMove (op : Nat) (store : Bool) (d : Reg) (m : MemOp) (f : BitVec 3) (t : Tack) (s : State) : Out :=
  issueX 4 t (fun s =>
    let r := rowWord (s.x d)
    let n := f.toNat + 1
    let h := s.h m.h
    let off := s.offM m
    if !s.ownsTile r.tile then .trap privFault s
    else if 255 < r.row + f.toNat then .trap (rowFault 0x01 op (s.x d)) s
    else (s.checkMem h m.h.toNat off (h.rowsWant off n store [0, 1])).andThen fun segs _ s =>
      let a := accAddr s.cur.coreK r.tile r.row 0
      let s1 := s.settle
      if store then .done (s1.storeSegs h.space segs.flatten (s1.mem.readBytes a (2048 * n)))
      else .done { s1 with mem := s1.mem.writeBytes a (readSegs s1.mem segs.flatten) }) s

def execVld (d : Reg) (m : MemOp) (f : BitVec 3) (t : Tack) (s : State) : Out := vecMove 0x93 false d m f t s
def execVst (d : Reg) (m : MemOp) (f : BitVec 3) (t : Tack) (s : State) : Out := vecMove 0x94 true d m f t s

/-- Lane `i` of the row a register names. -/
def State.lane (s : State) (r : Reg) (i : Nat) : Nat :=
  let w := rowWord (s.x r)
  s.getLane s.cur.coreK w.tile w.row (s.rwidth r) i

/-- The statistics entry or overflow counter item F of a tile (R262). -/
def Accum.item (t : Accum) (f row : Nat) : BitVec 32 :=
  match f with
  | 1 => Tab.get 0xFF800000 row t.statm
  | 2 => Tab.get 0 row t.statl
  | 3 => Tab.get 0x3F800000 row t.stata
  | _ => t.ovf
def Accum.setItem (t : Accum) (f row : Nat) (v : BitVec 32) : Accum :=
  match f with
  | 1 => { t with statm := Tab.set 0xFF800000 row v t.statm }
  | 2 => { t with statl := Tab.set 0 row v t.statl }
  | 3 => { t with stata := Tab.set 0x3F800000 row v t.stata }
  | _ => { t with ovf := v }
def State.setAccum (s : State) (a : Nat) (v : Accum) : State := s.setMyCore (s.myCore.setAccum a v)

/-- The checks VGET and VPUT share, for the register that names the row. -/
def itemChecks (op f : Nat) (r b : Reg) (s : State) : List (Bool × Event) :=
  [(decide (5 ≤ f), s.fmtBad op r),
    (decide (f = 0) && decide (16384 / s.rwidth r ≤ (s.x b).toNat), rowFault 0x01 op (s.x b))]

/-- VGET (R262). -/
def execVget (d a b : Reg) (f : BitVec 3) (t : Tack) (s : State) : Out :=
  vecInstr t [a] (itemChecks 0x95 f.toNat a b) (fun s =>
    let w := rowWord (s.x a)
    s.setX d (if f = 0 then laneWord (s.rtype a) (s.lane a (s.x b).toNat)
      else ((s.myCore.accum w.tile).item f.toNat w.row).setWidth 64)) s

/-- VPUT (R262). -/
def execVput (d a b : Reg) (f : BitVec 3) (t : Tack) (s : State) : Out :=
  vecInstr t [d] (itemChecks 0x96 f.toNat d b) (fun s =>
    let w := rowWord (s.x d)
    if f = 0 then s.setLane s.cur.coreK w.tile w.row (s.rwidth d) (s.x b).toNat ((s.x a).toNat % 2 ^ s.rwidth d)
    else s.setAccum w.tile ((s.myCore.accum w.tile).setItem f.toNat w.row (s.x32 a))) s

/-- The checks of VCOL (R263): the column register is B, `r` the tile-side operand. -/
def colChecks (d a b : Reg) (s : State) : List (Bool × Event) :=
  sameWidth s 0x97 a [d] ++ [(decide (16384 / s.rwidth a ≤ (s.x b).toNat), rowFault 0x01 0x97 (s.x b))]

/-- VCOL.R (R263): an F of 2 to 7 is a control field that breaks the entry (R243). -/
def execVcolR (d a : Reg) (b : ColOp) (t : Tack) (s : State) : Out :=
  vecInstr t [d, a] (fun s => (decide (b.f ≠ 0), s.fmtBad 0x97 a) :: colChecks d a b.x s) (fun s =>
    let src := (rowWord (s.x a)).tile
    let n := min 256 (s.actives d)
    let col := (List.range n).map (fun i => s.getLane s.cur.coreK src i (s.rwidth a) (s.x b.x).toNat)
    s.putLanes d (col ++ (s.row d).drop n, 0)) s

/-- VCOL.W (R263). -/
def execVcolW (d a b : Reg) (t : Tack) (s : State) : Out :=
  vecInstr t [d, a] (colChecks d a b) (fun s =>
    let dst := (rowWord (s.x d)).tile
    let n := min 256 (s.actives d)
    ((s.row a).take n).zipIdx.foldl (fun s' (v, i) => s'.setLane s.cur.coreK dst i (s.rwidth d) (s.x b).toNat v) s) s

/-- VPERM (R264). -/
def execVperm (d a b : Reg) (t : Tack) (s : State) : Out :=
  vecInstr t [d, a, b] (fun s => sameType s 0x98 accType a [d] ++
      [(!isInt (s.rtype b) || decide (s.rwidth b ≠ s.rwidth a), s.fmtBad 0x98 b)]) (fun s =>
    let src := s.row a
    s.putLanes d (lanes1 (fun _ k => (src.getD k 0, 0)) (s.actives d) 0 (s.row b) (s.row d))) s

/-! ## Random rows and online softmax (R265 to R267, R475) -/

/-- Lane `l` of VRNG (R265). -/
def rngLane (f : Nat) (key ctr e : Word) (l : Nat) : Nat :=
  let c := ctr + BitVec.ofNat 64 l
  let y := cg8 (bits key 0 32) (bits key 32 32) (bits c 0 32) (bits c 32 32) (bits e 0 32) (bits e 32 32)
  let v := match f % 4 with | 0 => y.1 | 1 => y.2.1 | 2 => y.2.2.1 | _ => y.2.2.2
  if 4 ≤ f then (cvt fp32 (.fin false (v / 256) (-24)) 0 false).1 else v

def execVrng (d a b : Reg) (f : BitVec 3) (t : Tack) (s : State) : Out :=
  vecInstr t [d] (fun s => [(decide (s.rwidth d ≠ 32), s.fmtBad 0x99 d)]) (fun s =>
    s.putLanes d (lanes1 (fun i _ => (rngLane f.toNat (s.x a) (s.x b) (s.x (b + 1)) i, 0)) (s.actives d) 0 (s.row d) (s.row d))) s

/-- OSMX (R266; on B1, R475). -/
def execOsmx (d : Reg) (t : Tack) (s : State) : Out :=
  vecInstr t [d] (fun s => [(decide (s.rtype d ≠ 0x0A), s.fmtBad 0x9A d)]) (fun s =>
    let w := rowWord (s.x d)
    let acc := s.myCore.accum w.tile
    let r := softmaxRow (s.actives d) (acc.item 1 w.row).toNat (acc.item 2 w.row).toNat (s.row d)
    let b (v : Nat) : BitVec 32 := BitVec.ofNat 32 v
    let acc' := ((acc.setItem 1 w.row (b r.2.1)).setItem 2 w.row (b r.2.2.1)).setItem 3 w.row (b r.2.2.2.1)
    ((s.putRow w r.1).setAccum w.tile acc').raise r.2.2.2.2) s

/-- OSMN (R267). -/
def execOsmn (d : Reg) (t : Tack) (s : State) : Out :=
  vecInstr t [d] (fun s => [(decide (s.rtype d ≠ 0x0A), s.fmtBad 0x9B d)]) (fun s =>
    let w := rowWord (s.x d)
    let l := ((s.myCore.accum w.tile).item 2 w.row).toNat
    s.putLanes d (lanes1 (fun _ v => fDiv fp32 v l) (s.actives d) 0 (s.row d) (s.row d))) s

/-! ## Block quantisation of rows (R268 to R270) -/

/-- Saturations added to a tile's overflow counter, which saturates (R27, R269). -/
def State.addOvf (s : State) (a n : Nat) : State :=
  let t := s.myCore.accum a
  (s.setAccum a { t with ovf := BitVec.ofNat 32 (min (t.ovf.toNat + n) (2 ^ 32 - 1)) }).raise (if n = 0 then 0 else fSAT)

/-- The checks of VQNT and VDQN: quantised row `q`, float row `fl` (R268). -/
def qntChecks (op : Nat) (q fl b : Reg) (f : BitVec 3) (s : State) : List (Bool × Event) :=
  let cw := s.x b
  [(!isFloatT (s.rtype fl), s.fmtBad op fl),
    (decide (qntMax (s.rtype q) < f.toNat + 1), s.fmtBad op q),
    (decide (qntNb cw = 0) || decide (10 < qntNb cw), rowFault 0x0B op cw),
    (decide (16384 / s.rwidth fl < qntFirst cw + 48 * qntNb cw), rowFault 0x01 op cw)]

/-- VQNT (R269); NX where a mantissa is not its element's exact value (R68, R248). -/
def execVqnt (d a b : Reg) (f : BitVec 3) (t : Tack) (s : State) : Out :=
  vecInstr t [d, a] (qntChecks 0x9C d a b f) (fun s =>
    let cw := s.x b
    let w := rowWord (s.x d)
    let q := f.toNat + 1
    let src := (s.row a).drop (qntFirst cw)
    let bl : List (Nat × List Int × Nat) := (List.range (qntNb cw)).map (fun i =>
      quantBlock (((src.drop (48 * i)).take 48).map (valueOf (s.rtype a))) q 0 [])
    let lanes := bl.flatMap (fun (x : Nat × List Int × Nat) => x.2.1.map (wrapU (s.rwidth d)))
    let s1 := s.putRow w lanes
    let s2 := { s1 with mem := s1.mem.writeBytes (accAddr s.cur.coreK w.tile w.row 1984) (bl.map (fun (x : Nat × List Int × Nat) => BitVec.ofNat 8 x.1)) }
    let nx := (List.range (qntNb cw)).any (fun i => quantNX (((src.drop (48 * i)).take 48).map (valueOf (s.rtype a))) q)
    (s2.addOvf w.tile ((bl.map (fun x => x.2.2)).foldl (· + ·) 0)).raise (if nx then fNX else 0)) s

/-- VDQN (R270). -/
def execVdqn (d a b : Reg) (f : BitVec 3) (t : Tack) (s : State) : Out :=
  vecInstr t [d, a] (qntChecks 0x9D a d b f) (fun s =>
    let cw := s.x b
    let w := rowWord (s.x a)
    let wd := rowWord (s.x d)
    let q := f.toNat + 1
    let n := 48 * qntNb cw
    let xs := (s.mem.readBytes (accAddr s.cur.coreK w.tile w.row 1984) 10).map BitVec.toNat
    let out := (((s.row a).take n).zipIdx).map (fun (v, i) => dqnLane (s.rtype d) q (xs.getD (i / 48) 0) v)
    let old := s.row d
    let fl := out.foldl (fun acc r => acc ||| r.2) 0
    ((s.putRow wd (old.take (qntFirst cw) ++ out.map (·.1))).raise fl).addOvf wd.tile
      (out.countP (fun r => decide (r.2 / fSAT % 2 = 1)))) s

end Sys2Proof.Machine
end

