-- ==== Sys2Proof/Machine/Matrix.lean ====
section
/-!
DEFINITION. The matrix engine and the base-die dot units (R271 to R295).
-/
namespace Sys2Proof.Machine

/-! ## The frame of a matrix instruction (R30, R243, R281) -/

/-- The matrix engine of the executing core changed. -/
def State.setMatrix (s : State) (m : Matrix) : State := s.setMyCore { s.myCore with matrix := m }
def State.matrix (s : State) : Matrix := s.myCore.matrix

/-- A valid progress record is discarded when an instruction takes effect (R281). -/
def State.takeRecord (s : State) : State :=
  if s.matrix.record.isSome then s.setMatrix { s.matrix with record := none, discarded := true } else s

/-- A matrix instruction: ownership, its own checks, then `body`, which makes its memory checks first. -/
def matEff (tiles : State → List Nat) (checks : State → List (Bool × Event)) (body : State → Eff) (s : State) : Eff :=
  if !(s.ownsMatrix && (tiles s).all s.ownsTile) then .trap privFault s
  else match firstFault (checks s) with
    | some e => .trap e s
    | none => body s
def matInstr (t : Tack) (tiles : State → List Nat) (checks : State → List (Bool × Event)) (body : State → Eff) (s : State) : Out :=
  issueX 4 t (matEff tiles checks body) s
/-- One without a memory operand: an EXT before it is discarded (R105). -/
def matPlain (t : Tack) (tiles : State → List Nat) (checks : State → List (Bool × Event)) (body : State → Eff) (s : State) : Out :=
  issue 4 t (matEff tiles checks body) s

/-- The tile a register's row word names. -/
def State.rtile (s : State) (r : Reg) : Nat := (rowWord (s.x r)).tile
/-- The rows of a row word go past 255 (R242). -/
def rowsPast (w : RowWord) : Bool := decide (255 < w.row + w.cnt)

/-- What a block operand asks of R200: `cnt` elements from `off`, the plies touched of a PB type (R192, R275). -/
def Handle.blockWant (h : Handle) (off : Int) (cnt : Nat) (plies spaces : List Nat) (poison : Bool) : Want :=
  let w := typeWidth h.type
  let g0 := ((h.wstart + off) / 768).toNat
  let ng := ((h.wstart + off + cnt - 1) / 768).toNat - g0 + 1
  let bit := h.intBit off 0
  { acc := .read, spaces := spaces, pr := true, pw := false, typeOk := true, layoutOk := h.layoutOk off
    n := if elemUnit h.type then cnt else cnt * w / 8
    ranges := if isPB h.type then
        (16 * g0, 16 * ng) :: plies.map (fun k => (scaleSlab h.groups + 192 * h.groups * k + 192 * g0, 192 * ng))
      else [(bit / 8, (bit + cnt * w + 7) / 8 - bit / 8)]
    poison := poison }

/-! ## Types and formats (R272, R273) -/

/-- Statistics of all rows at their reset values (R28). -/
def Accum.resetStats (t : Accum) : Accum := { t with statm := [], statl := [], stata := [] }

/-- MCFG (R272). -/
def execMcfg (d a : Reg) (t : Tack) (s : State) : Out :=
  matPlain t (fun s => [s.rtile d]) (fun s => [(!accType (bits (s.x a) 0 5), rowFault 0x0B 0xA5 (s.x a))]) (fun s =>
    let v := s.x a
    let acc := s.myCore.accum (s.rtile d)
    let a1 : Accum := { acc with type := bits v 0 5 }
    let a2 := if v.getLsbD 8 then a1.resetStats else a1
    let a3 := if v.getLsbD 9 then { a2 with ovf := 0 } else a2
    .done (s.takeRecord.setAccum (s.rtile d) a3)) s

/-- MFMT (R273). -/
def execMfmt (a : Reg) (t : Tack) (s : State) : Out :=
  let q (s : State) : Nat := opPlies (bits (s.x a) 0 5)
  matPlain t (fun _ => []) (fun s =>
      [(!matrixType (bits (s.x a) 0 5) || decide (q s < bits (s.x a) 8 4), rowFault 0x0B 0xAF (s.x a))]) (fun s =>
    let v := s.x a
    let s1 := s.takeRecord
    .done (s1.setMatrix { s1.matrix with fmtType := bits v 0 5, fmtPa := if bits v 8 4 = 0 then q s else bits v 8 4 })) s

/-! ## Weight buffers (R274 to R276) -/

/-- The plies latched under MLW's control word and mode; 0 where a rule of R274 is broken. -/
def mlwPlies (type mode pw : Nat) : Nat :=
  let q := opPlies type
  match mode with
  | 0 =>
    let p := if pw = 0 then q else pw
    if isPB type then (if p ≤ 4 ∧ p ≤ q then p else 0)
    else if (type = 0 ∨ type = 0x10 ∨ type = 0x12) ∧ p = q then p else 0
  | 1 | 2 => if type = 0x1F ∨ type = 1 then 4 else 0
  | _ => 0

/-- 48 mantissas packed at `w` bits each. -/
def packBlock (w : Nat) (ms : List Int) : Nat := ms.foldr (fun m acc => acc * 2 ^ w + wrapU w m) 0

/-- A column count of MLW or MGEMV: 0 means 512. -/
def cols (n : Nat) : Nat := if n = 0 then 512 else n

/-- The idle buffer filled from blocks in order (R275; log 6). -/
def State.fillWeights (s : State) (type pw mode nc : Nat) (bl : List (Nat × List Int)) : State :=
  let m := s.matrix
  let b : WBuf := { type := type, pw := pw, mode := mode, nc := nc }
  let per := 8 * b.stack
  let w := 8 / b.stack
  let sc := ((bl.zipIdx).map (fun (x, i) => (i / per * 32 + i % per, x.1))).filter (fun e => e.2 ≠ 0)
  let b' := { b with scales := if isPB type then sc else [] }
  let a := wbAddr s.cur.coreK (!m.active)
  let bytes := bl.flatMap (fun x => leBytes (6 * w) (packBlock w x.2))
  let s1 := { s with mem := (s.mem.zero a (512 * 384)).writeBytes a bytes }
  s1.setMatrix (if m.active then { m with wb0 := b' } else { m with wb1 := b' })

/-- MLW (R274, R275). -/
def execMlw (d : Reg) (m : MemOp) (f : BitVec 3) (t : Tack) (s : State) : Out :=
  let mode := f.toNat
  matInstr t (fun _ => []) (fun s =>
      let h := s.h m.h
      let pw := mlwPlies h.type mode (bits (s.x d) 16 4)
      [(decide (pw = 0) || decide (512 < bits (s.x d) 0 10) ||
          (isPB h.type && decide (h.e0 ≠ ({ pw := pw } : WBuf).depth)), rowFault 0x0B 0xA0 (s.x d))]) (fun s =>
    let h := s.h m.h
    let off := s.offM m
    let pw := mlwPlies h.type mode (bits (s.x d) 16 4)
    let nc := cols (bits (s.x d) 0 10)
    let cnt := nc * ({ pw := pw } : WBuf).depth
    let plies := if mode = 2 then [4, 5, 6, 7] else List.range pw
    (s.checkMem h m.h.toNat off (h.blockWant off cnt plies [1] true)).andThen fun _ _ s =>
      let bl := s.settle.blocks48 (h.view s.cur m.h.toNat) h off 0 cnt (if mode = 2 then 8 else pw)
      .done (s.settle.takeRecord.fillWeights h.type pw mode nc bl)) s

/-- MSWP (R276): instructions of the stream before it have completed (R277). -/
def execMswp (t : Tack) (s : State) : Out :=
  issue 4 t (matEff (fun _ => []) (fun _ => []) (fun s =>
    let s1 := s.takeRecord
    .done (s1.setMatrix { s1.matrix with active := !s1.matrix.active }))) s

/-! ## Passes (R278 to R282) -/

/-- A pass put into the array (R279), its stream having issued now (R360); it ends as MATRIX_PASS_COMPLETE. -/
def State.startPass (s : State) (ps : Pass) : State :=
  let s1 := s.setMatrix { s.matrix with record := none, running := some (ps, s.clock) }
  (s1.setMe { s1.me with issued := s.clock, ready := none, blocked := false, stalled := none }).later (.matrixPassComplete s.cur.tile s.cur.core)

/-- A W bit's token back in its channel while the instruction runs: the pop is provisional until it completes
(R121). -/
def State.returnW (s : State) (t : Tack) : State :=
  if t.w then s.setMySlot (s.mySlot.addTack (wChannel s.cur.stream s.me) 1) else s

/-- The format rules of R278. -/
def mmaFormatBad (s : State) (h : Handle) (type : Nat) : Bool :=
  let m := s.matrix
  let b := m.activeBuf
  decide (h.type ≠ m.fmtType) || (isPB h.type && decide (h.e0 ≠ b.depth)) ||
    !(decide (type = 0x0B) || decide (type = 2)) ||
    (decide (type = 2) && (isPB m.fmtType || isPB b.type || decide (m.fmtPa < opPlies m.fmtType)))

/-- MMA and MMAZ (R278 to R281). -/
def mmaInstr (op : Nat) (zero : Bool) (d : Reg) (m : MemOp) (t : Tack) (s : State) : Out :=
  issueX 4 t (fun s =>
    match s.matrix.record.filter (fun r => decide (r.addr = s.me.pc)) with
    | some r =>
      matEff (fun _ => [r.tile]) (fun _ => []) (fun s => .held ((s.returnW t).startPass { r with slot := s.cur.slotK, tack := t })) s
    | none =>
      matEff (fun s => [s.rtile d]) (fun s =>
          [(mmaFormatBad s (s.h m.h) (s.tileType (s.rtile d)), rowFault 0x0B op (s.x d)),
            (rowsPast (rowWord (s.x d)), rowFault 0x01 op (s.x d))]) (fun s =>
        let w := rowWord (s.x d)
        let h := s.h m.h
        let off := s.offM m
        let mx := s.matrix
        let cnt := (w.cnt + 1) * mx.activeBuf.depth
        (s.checkMem h m.h.toNat off (h.blockWant off cnt (List.range mx.fmtPa) [1] true)).andThen fun _ _ s =>
          .held ((s.settle.takeRecord.returnW t).startPass
            { slot := s.cur.slotK, addr := s.me.pc, tack := t, k := 0, tile := w.tile, row := w.row, n := w.cnt + 1
              h := h, hidx := m.h.toNat, off := off, type := mx.fmtType, pa := mx.fmtPa, zero := zero })) s) s

def execMma (d : Reg) (m : MemOp) (t : Tack) (s : State) : Out := mmaInstr 0xA2 false d m t s
def execMmaz (d : Reg) (m : MemOp) (t : Tack) (s : State) : Out := mmaInstr 0xA3 true d m t s

/-- The cycles a pass takes from its start: pa a row, and the fill of 24 (R279). -/
def Pass.cycles (ps : Pass) : Nat := (ps.n - ps.k) * ps.pa + 24

/-- MATRIX_PASS_COMPLETE (R279, R280): every row has left the array. -/
def execMatrixPassComplete (tile core : Nat) (s : State) : Out :=
  let k := coreKey tile core
  match (s.core k).matrix.running with
  | some (ps, start) => if start + ps.cycles ≤ s.clock ∧ s.dieOn tile then .next (s.finishPass k ps) else .next s
  | none => .next s

/-- MRSM (R282): the rows from k onward of the recorded instruction. -/
def execMrsm (t : Tack) (s : State) : Out :=
  issue 4 t (fun s =>
    match s.matrix.record with
    | none => matEff (fun _ => []) (fun _ => []) (fun s => .done s) s
    | some r => matEff (fun _ => [r.tile]) (fun _ => []) (fun s =>
        let s1 := s.passRows s.cur r r.k (r.n - r.k)
        .done (s1.setMatrix { s1.matrix with record := none })) s) s
/-- MRSM.DISCARD (R282). -/
def execMrsmDiscard (t : Tack) (s : State) : Out :=
  issue 4 t (matEff (fun _ => []) (fun _ => []) (fun s => .done (s.setMatrix { s.matrix with record := none }))) s

/-! ## Epilogue (R283 to R287) -/

/-- A table of 32-bit values from a list. -/
def tabOf (dflt : BitVec 32) (l : List (BitVec 32)) : Tab (BitVec 32) := ((l.zipIdx).map (fun (v, i) => (i, v))).filter (fun e => e.2 ≠ dflt)
/-- 32-bit values of a run of bytes. -/
def words32 : Nat → List Byte → List (BitVec 32)
  | 0, _ => []
  | n + 1, bs => BitVec.ofNat 32 (leNat (bs.take 4)) :: words32 n (bs.drop 4)
def one32 : BitVec 32 := 0x3F800000

/-- What an FP32 array of `n` entries asks (R283). -/
def Handle.arrayWant (h : Handle) (off : Int) (n : Nat) : Want :=
  { acc := .read, spaces := [1], pr := true, pw := false, typeOk := decide (h.type = 0x0A), align := 64, n := 4 * n
    ranges := [((h.wstart + off).toNat, 4 * n)] }

/-- The scales of a source other than memory (R283). -/
def mscalSource (src n : Nat) (a : Accum) : List (BitVec 32) :=
  match src with
  | 1 => List.replicate n one32
  | 2 => (List.range n).map (fun i => a.item 3 i)
  | _ => (List.range n).map (fun i => BitVec.ofNat 32 (specialFn 2 (a.item 2 i).toNat).1)

/-- The side's scales written (R29). -/
def Matrix.setScales (m : Matrix) (col : Bool) (l : List (BitVec 32)) : Matrix :=
  if col then { m with colScale := tabOf one32 l } else { m with rowScale := tabOf one32 l }

/-- MSCL (R283). -/
def execMscl (d : Reg) (m : MemOp) (f : BitVec 3) (t : Tack) (s : State) : Out :=
  let col := bitN f.toNat 0
  let src := f.toNat / 2
  let n := if col then 512 else 256
  matInstr t (fun s => if 2 ≤ src then [s.rtile d] else []) (fun s => [(col && decide (2 ≤ src), rowFault 0x0B 0xA7 (s.x d))]) (fun s =>
    if src = 0 then
      let h := s.h m.h
      (s.checkMem h m.h.toNat (s.offM m) (h.arrayWant (s.offM m) n)).andThen fun segs _ s =>
        let s1 := s.settle.takeRecord
        .done (s1.setMatrix (s1.matrix.setScales col (words32 n (readSegs s1.mem segs.flatten))))
    else
      let s1 := s.takeRecord
      .done (s1.setMatrix (s1.matrix.setScales col (mscalSource src n (s1.myCore.accum (s1.rtile d)))))) s

/-- MBIAS (R284). -/
def execMbias (m : MemOp) (t : Tack) (s : State) : Out :=
  matInstr t (fun _ => []) (fun _ => []) (fun s =>
    let h := s.h m.h
    (s.checkMem h m.h.toNat (s.offM m) (h.arrayWant (s.offM m) 512)).andThen fun segs _ s =>
      let s1 := s.settle.takeRecord
      .done (s1.setMatrix { s1.matrix with bias := tabOf 0 (words32 512 (readSegs s1.mem segs.flatten)) })) s
def execMbiasClr (t : Tack) (s : State) : Out :=
  matInstr t (fun _ => []) (fun _ => []) (fun s =>
    let s1 := s.takeRecord
    .done (s1.setMatrix { s1.matrix with bias := [] })) s

/-- The activation function and its flags (R285). -/
def activate (f u : Nat) : Nat × Nat :=
  let x := fp32.decode u
  match f with
  | 1 => if x.isNan then (fp32.nan, 0) else if (Num.fin false 0 0).lt false x then (u, 0) else (0, 0)
  | 2 => specialFn 6 u
  | 3 => specialFn 5 u
  | 4 =>
    let g := specialFn 6 u
    let r := fMul fp32 0 u g.1
    (r.1, g.2 ||| r.2)
  | _ => (u, 0)

/-- One drained element (R286): output bits, the flags of its two conversions (R45, R248: DEDUCED, log 14; the
activation raises none), whether the second saturated, whether y is NaN. -/
def drainLane (accType' outType f : Nat) (ieee : Bool) (rs cs bias v : Nat) : Nat × Nat × Bool × Bool :=
  let t := ((((valueOf accType' v).mul (fp32.decode rs)).1.mul (fp32.decode cs)).1.add false (fp32.decode bias)).1
  let u := cvt fp32 t 0 false
  let y := activate f u.1
  let o := cvtTo outType (fp32.decode y.1) 0 (!ieee)
  (o.1, u.2 ||| o.2, decide (o.2 / fSAT % 2 = 1), (fp32.decode y.1).isNan)

/-- Output types of MDRN (R285). -/
def drainTypes : List Nat := [0x0A, 0x08, 0x09, 0x0C, 0x0D, 0x0E, 0, 1, 2]

/-- First bit of the output past BASE, and the byte its trailer begins at (R285). -/
def Handle.drainBit (h : Handle) (off : Int) : Nat := h.intBit off 0
def Handle.trailer (h : Handle) (off : Int) (n : Nat) : Nat := (h.drainBit off + n * 512 * typeWidth h.type + 7) / 8

/-- What MDRN asks of its operand (R285). -/
def Handle.drainWant (h : Handle) (off : Int) (n : Nat) : Want :=
  let w := typeWidth h.type
  let stop := h.trailer off n + 64
  { acc := .write, spaces := [1], pr := false, pw := true, typeOk := true, align := 64
    n := if elemUnit h.type then stop * 8 / max 1 w - (h.wstart + off).toNat else n * 512 * w / 8 + 64
    ranges := [(h.drainBit off / 8, stop - h.drainBit off / 8)] }

/-- Row `r` drained: its outputs. -/
def State.drainRow (s : State) (w : RowWord) (outType f i : Nat) : List (Nat × Nat × Bool × Bool) :=
  let m := s.matrix
  let r := w.row + i
  let rs := (Tab.get one32 r m.rowScale).toNat
  ((s.getRow s.cur.coreK w.tile r 32).zipIdx).map (fun (v, c) =>
    drainLane (s.tileType w.tile) outType f (bitN w.flg 0) rs (Tab.get one32 c m.colScale).toNat (Tab.get 0 c m.bias).toNat v)

/-- MDRN (R285 to R287). An F out of range and a handle's TYPE are checks of R243's order 2 with x[D] in TINFO2 (DESIGN
CHOICE, logs 86 and 87). -/
def execMdrn (d : Reg) (m : MemOp) (f : BitVec 3) (t : Tack) (s : State) : Out :=
  matInstr t (fun s => [s.rtile d]) (fun s =>
      let ty := s.tileType (s.rtile d)
      [(decide (5 ≤ f.toNat) || !(decide (ty = 0x0B) || decide (ty = 2)) || !drainTypes.contains (s.h m.h).type,
          rowFault 0x0B 0xA4 (s.x d)),
        (rowsPast (rowWord (s.x d)), rowFault 0x01 0xA4 (s.x d))]) (fun s =>
    let w := rowWord (s.x d)
    let n := w.cnt + 1
    let h := s.h m.h
    let off := s.offM m
    let v := h.view s.cur m.h.toNat
    let tw := typeWidth h.type
    (s.checkMem h m.h.toNat off (h.drainWant off n)).andThen fun _ _ s =>
      let s0 := s.settle.takeRecord
      let rows := (List.range n).map (fun i => s0.drainRow w h.type f.toNat i)
      let s1 := (rows.zipIdx).foldl (fun s (r, i) =>
        s.wrBits v (h.drainBit off + i * 512 * tw) (512 * tw) (r.foldr (fun x acc => acc * 2 ^ tw + x.1) 0)) s0
      let all := rows.flatten
      let sats := all.countP (fun x => x.2.2.1)
      let s2 := (s1.addOvf w.tile sats).raise (all.foldl (fun acc x => acc ||| x.2.1) 0)
      let s3 := s2.wr v (h.trailer off n) (leBytes 4 (s2.myCore.accum w.tile).ovf.toNat ++ leBytes 4 sats ++
        leBytes 4 (all.countP (fun x => x.2.2.2)) ++ leBytes 4 (w.row + w.cnt * 256 + w.tile * 65536) ++ leBytes 48 0)
      .done (if bitN w.flg 1 then { s3 with mem := s3.mem.zero (accAddr s.cur.coreK w.tile w.row 0) (2048 * n) } else s3)) s

/-! ## Tile housekeeping (R288 to R291) -/

/-- Entries lo to lo + n − 1 of a statistics array moved from another's (`src i` gives entry i). -/
def copyStat (dflt : BitVec 32) (dst : Tab (BitVec 32)) (lo n : Nat) (src : Nat → BitVec 32) : Tab (BitVec 32) :=
  (List.range n).foldl (fun t i => Tab.set dflt (lo + i) (src i) t) dst

/-- The three statistics of rows replaced. -/
def Accum.copyStats (a : Accum) (lo n : Nat) (src : Nat → Nat → BitVec 32) : Accum :=
  { a with
    statm := copyStat 0xFF800000 a.statm lo n (src 1), statl := copyStat 0 a.statl lo n (src 2)
    stata := copyStat 0x3F800000 a.stata lo n (src 3) }

/-- MZRO (R288). -/
def execMzro (d : Reg) (sBit : Bool) (t : Tack) (s : State) : Out :=
  matPlain t (fun s => [s.rtile d]) (fun s => [(rowsPast (rowWord (s.x d)), rowFault 0x01 0xA6 (s.x d))]) (fun s =>
    let w := rowWord (s.x d)
    let n := w.cnt + 1
    let s1 := s.takeRecord
    let s2 := { s1 with mem := s1.mem.zero (accAddr s.cur.coreK w.tile w.row 0) (2048 * n) }
    .done (if sBit then
        s2.setAccum w.tile ((s2.myCore.accum w.tile).copyStats w.row n (fun f i => ({} : Accum).item f i))
      else s2)) s

/-- MOVC (R289): every source row is read first. Of two tiles of unequal widths TINFO2 names A's (DESIGN CHOICE, log 86). -/
def execMovc (d a : Reg) (sBit : Bool) (t : Tack) (s : State) : Out :=
  matPlain t (fun s => [s.rtile d, s.rtile a]) (fun s =>
      let wd := rowWord (s.x d)
      [(decide (s.tileW (s.rtile a) ≠ s.tileW wd.tile), rowFault 0x0B 0xAB (s.x a)),
        (rowsPast wd, rowFault 0x01 0xAB (s.x d)),
        (decide (255 < (rowWord (s.x a)).row + wd.cnt), rowFault 0x01 0xAB (s.x a))]) (fun s =>
    let wd := rowWord (s.x d)
    let wa := rowWord (s.x a)
    let n := wd.cnt + 1
    let s1 := s.takeRecord
    let k := s.cur.coreK
    let s2 := { s1 with mem := s1.mem.writeBytes (accAddr k wd.tile wd.row 0) (s1.mem.readBytes (accAddr k wa.tile wa.row 0) (2048 * n)) }
    let src := s1.myCore.accum wa.tile
    .done (if sBit then
        s2.setAccum wd.tile ((s2.myCore.accum wd.tile).copyStats wd.row n (fun f i => src.item f (wa.row + i)))
      else s2)) s

/-- MTRN (R290). -/
def execMtrn (d a : Reg) (sh dh : Bool) (t : Tack) (s : State) : Out :=
  matPlain t (fun s => [s.rtile d, s.rtile a]) (fun s =>
      [(decide (s.rwidth d ≠ 32), rowFault 0x0B 0xAC (s.x d)), (decide (s.rwidth a ≠ 32), rowFault 0x0B 0xAC (s.x a))]) (fun s =>
    let k := s.cur.coreK
    let src := s.rtile a
    let dst := s.rtile d
    let so := if sh then 256 else 0
    let dO := if dh then 256 else 0
    let rows := (List.range 256).map (fun i => ((s.getRow k src i 32).drop so).take 256)
    let s1 := s.takeRecord
    .done ((List.range 256).foldl (fun s' j =>
      let old := s'.getRow k dst j 32
      s'.setRow k dst j 32 (old.take dO ++ rows.map (fun r => r.getD j 0) ++ old.drop (dO + 256))) s1)) s

/-- MSTAT's view of a weight buffer (R291). -/
def WBuf.word (b : WBuf) (active : Bool) : Nat :=
  b.type + b.pw * 2 ^ 5 + b.mode * 2 ^ 9 + b.nc * 2 ^ 11 + (if active then 2 ^ 21 else 0)

/-- MSTAT's views (R291). -/
def mstatView (s : State) (a : Reg) (f : Nat) : Word :=
  let m := s.matrix
  match f with
  | 0 => BitVec.ofNat 64 (m.wb0.word (!m.active) + m.wb1.word m.active * 2 ^ 32)
  | 1 => ((m.record.map (fun r => r.addr)).getD 0 &&& 0x00FFFFFFFFFFFFFF) |||
      (if m.discarded then BitVec.ofNat 64 (2 ^ 62) else 0) ||| (if m.record.isSome then BitVec.ofNat 64 (2 ^ 63) else 0)
  | 2 => match m.record with
    | some r => BitVec.ofNat 64 (r.k + (r.n - 1) * 2 ^ 8 + r.tile * 2 ^ 16 + (if r.zero then 2 ^ 19 else 0))
    | none => 0
  | 3 | 4 => (s.myCore.accum (s.rtile a)).ovf.setWidth 64
  | 5 => BitVec.ofNat 64 ((s.auxOf s.cur.coreK).mgemv.countP (fun g => decide (g.slot = s.cur.slotK)))
  | _ => 0

/-- MSTAT (R291): never discards the progress record. -/
def execMstat (d a : Reg) (f : BitVec 3) (t : Tack) (s : State) : Out :=
  issue 4 t (matEff (fun s => if f = 3 ∨ f = 4 then [s.rtile a] else []) (fun _ => []) (fun s =>
    let v := mstatView s a f.toNat
    let s1 := if f = 1 then s.setMatrix { s.matrix with discarded := false }
      else if f = 4 then s.setAccum (s.rtile a) { s.myCore.accum (s.rtile a) with ovf := 0 } else s
    .done (s1.setX d v))) s

/-! ## Matrix-vector products (R292 to R295) -/

/-- The fields of MGEMV's control word, with its handles. -/
def State.mgemvOf (s : State) (d : Reg) (m : MemOp) : Mgemv :=
  let w := s.x d
  let vec := s.h m.h
  let midx := bits w 24 6
  let mat := s.h (BitVec.ofNat 6 midx)
  { id := (s.auxOf s.cur.coreK).nextMg, slot := s.cur.slotK, tile := bits w 8 3, row := bits w 0 8, n := cols (bits w 32 10)
    k := mat.e0, pa := if bits w 20 4 = 0 then opPlies vec.type else bits w 20 4
    pw := if bits w 16 4 = 0 then opPlies mat.type else bits w 16 4, zero := w.getLsbD 12
    vec := vec, vidx := m.h.toNat, voff := s.offM m, mat := mat, midx := midx, offm := (s.x (d + 1)).toNat }

/-- OFFM as the signed offset R200 checks. -/
def Mgemv.moff (g : Mgemv) : Int := (BitVec.ofNat 64 g.offm).toInt

/-- The format rules of R292, with the register that breaks each. -/
def mgemvChecks (d : Reg) (g : Mgemv) (s : State) : List (Bool × Event) :=
  [(!matrixType g.vec.type || !(isPB g.mat.type || decide (g.mat.type = 0)) || decide (512 < g.n) ||
      decide (opPlies g.vec.type < g.pa) || decide (opPlies g.mat.type < g.pw) || decide (s.tileType g.tile ≠ 0x0B) ||
      decide (g.mat.rank < 2) || decide (g.k % 48 ≠ 0), rowFault 0x0B 0xA9 (s.x d)),
    (decide (g.mat.type = 0) && decide (g.moff % 48 ≠ 0), rowFault 0x0B 0xA9 (s.x (d + 1)))]

/-- What the two operands ask: poison raises no fault (R294). -/
def Mgemv.vecWant (g : Mgemv) : Want := g.vec.blockWant g.voff g.k (List.range g.pa) [1] false
def Mgemv.matWant (g : Mgemv) : Want := g.mat.blockWant g.moff (g.n * g.k) (List.range g.pw) [4] false

/-- MGEMV (R292, R294): it completes when its operation is accepted; a fifth outstanding one of a core waits. -/
def execMgemv (d : Reg) (m : MemOp) (t : Tack) (s : State) : Out :=
  matInstr t (fun s => [(s.mgemvOf d m).tile]) (fun s => mgemvChecks d (s.mgemvOf d m) s) (fun s =>
    let g := s.mgemvOf d m
    (s.checkMem g.vec g.vidx g.voff g.vecWant).andThen fun _ _ s =>
      (s.checkMem g.mat g.midx g.moff g.matWant).andThen fun _ _ s =>
        let x := s.auxOf s.cur.coreK
        if 4 ≤ x.mgemv.length then .wait false s
        else
          let g := { g with tc := s.myTile.tcache.filter (fun e => decide (e.key = handleKey g.slot g.vidx) || decide (e.key = handleKey g.slot g.midx)) }
          let s1 := (s.settle.setAux s.cur.coreK { s.settle.auxOf s.cur.coreK with mgemv := x.mgemv ++ [g], nextMg := x.nextMg + 1 }).takeRecord
          .done (s1.later (.mgemvComplete s.cur.tile s.cur.core g.id))) s

/-- The poisoned granules an operand of the dot units meets (R294). -/
def State.poisonOf (s : State) (v : View) (w : Want) : List Nat :=
  if s.poison = [] then []
  else
    let segs := s.flatRanges v w.ranges
    s.poison.filter (fun g => segs.any (fun e => decide (e.1 / 64 ≤ g) && decide (g * 64 < e.1 + e.2)))

/-- The blocks of an operand, those of a poisoned granule a NaN (R294): a PB group is read whole (R192). -/
def State.dotBlocks (s : State) (v : View) (h : Handle) (off : Int) (cnt p : Nat) : List (Nat × List Int) :=
  let bl := s.blocks48 v h off 0 cnt p
  if s.poison = [] then bl
  else
    let b0 := h.firstBlock off 0
    let bad (i : Nat) : Bool :=
      let rs := if isPB h.type then groupRanges h.groups ((b0 + i) / 16) p
        else
          let w := typeWidth h.type
          let bit := h.intBit off (48 * i)
          [(bit / 8, (bit + 48 * w + 7) / 8 - bit / 8)]
      (poisonIn s (s.flatRanges v rs)).isSome
    (bl.zipIdx).map (fun (b, i) => if bad i then (255, b.2) else b)

/-- A list cut into runs of `k`. -/
def chunk {α : Type} (k : Nat) : Nat → List α → List (List α)
  | 0, _ => []
  | n + 1, l => l.take k :: chunk k n (l.drop k)

/-- The destination row's new lanes (R293). -/
def State.gemvLanes (s : State) (p : Place) (g : Mgemv) : List Nat :=
  let vb := s.dotBlocks (g.vec.view p g.vidx) g.vec g.voff g.k g.pa
  let mb := chunk (g.k / 48) g.n (s.dotBlocks (g.mat.view p g.midx) g.mat g.moff (g.n * g.k) g.pw)
  let old := s.getRow p.coreK g.tile g.row 32
  ((mb.zip old)).map (fun (row, acc0) =>
    (((vb.zip row).zipIdx).foldl (fun acc ((a, w), k) =>
      accumulate false (g.zero && decide (k = 0)) acc (blockProduct a.1 w.1 g.pa g.pw (dot48 a.2 w.2))) acc0))

/-- MGEMV_COMPLETE (R293, R294): the row is written, and the poisoned granules met are counted for MGWT. -/
def execMgemvComplete (tile core id : Nat) (s : State) : Out :=
  let k := coreKey tile core
  let x := s.auxOf k
  match x.mgemv.find? (fun g => decide (g.id = id)) with
  | none => .next s
  | some g =>
    if !s.dieOn tile then .next s else
    if s.coreFull k then .next (s.awaitWriter (mPlace g.slot) (.mgemvComplete tile core id)) else
    let p := mPlace g.slot
    let s0 := s
    let s := s0.setTile tile { s0.tile tile with tcache := g.tc ++ (s0.tile tile).tcache }
    let bad := (s.poisonOf (g.vec.view p g.vidx) g.vecWant).length + (s.poisonOf (g.mat.view p g.midx) g.matWant).length
    let s1 := s0.setRow k g.tile g.row 32 (s.gemvLanes p g)
    let s2 := s1.setAux k { s1.auxOf k with mgemv := x.mgemv.filter (fun y => y.id ≠ id) }
    .next (s2.setSlot g.slot { s2.slot g.slot with mgPoison := (s2.slot g.slot).mgPoison + bad })

/-- MGWT (R294). -/
def execMgwt (d : Reg) (t : Tack) (s : State) : Out :=
  issue 4 t (matEff (fun _ => []) (fun _ => []) (fun s =>
    if (s.auxOf s.cur.coreK).mgemv.any (fun g => decide (g.slot = s.cur.slotK)) then .wait false s
    else
      let n := s.mySlot.mgPoison
      let s1 := s.takeRecord.setMySlot { s.takeRecord.mySlot with mgPoison := 0 }
      .done (s1.setX d (BitVec.ofNat 64 (n + if n = 0 then 0 else 2 ^ 63))))) s

end Sys2Proof.Machine
end

