-- ==== Sys2Proof/Machine/System.lean ====
section
/-!
DEFINITION. The system registers, MFS and MTS, the return from a trap, and WFI (R31 to R51, R53, R54, R117, R161
to R163).
-/
namespace Sys2Proof.Machine

/-! ## System registers (R32 to R49) -/

/-- TSTAT.APEND (R35, R55, R370): an asynchronous event waits, in the FIFO or as a paused copy's fault. -/
def Slot.apend (sl : Slot) : Bool := !sl.fifo.isEmpty || !sl.faults.isEmpty

/-- TSTAT (R35). -/
def Slot.tstat (sl : Slot) : Nat :=
  let r := sl.regs
  let b (v : Bool) (n : Nat) : Nat := if v then 2 ^ n else 0
  b r.torn 11 + b r.resumed 10 + b r.preq 9 + b sl.apend 8 + r.fstrm * 4 + b r.pmode 1 + b r.super 0

/-- SPRIO (R40). -/
def TrapRegs.sprio (r : TrapRegs) : Nat := r.cap * 256 + r.eff * 16 + r.base

/-- The PC register of stream `f` of a slot (R37). -/
def State.pcReg (s : State) (k f : Nat) : Word := addrBits 1 (s.stream (5 * k + f)).pc
/-- A handler's write of it: ERET will move the stream there (R117). PCC as the trap left it is kept (R162). -/
def State.setPcReg (s : State) (k f : Nat) (v : Word) : State :=
  let st := s.stream (5 * k + f)
  let r := (s.slot k).regs
  let s1 := if f = 0 ∧ r.pcc = none then s.setRegs k { r with pcc := some st.pc } else s
  s1.setStream (5 * k + f) { st with pc := addrBits 1 v, moved := true }

/-- The system register of an index, as the C stream of the executing slot reads it (R32 to R34). -/
def State.sysReg (s : State) (i : Nat) : Word :=
  let k := s.cur.slotK
  let sl := s.mySlot
  let r := sl.regs
  let c := s.myCore
  let n (v : Nat) : Word := BitVec.ofNat 64 v
  if i = 0x000 then n sl.tstat
  else if i = 0x001 then r.cause.setWidth 64
  else if i = 0x002 then (if 5 ≤ r.fstrm then 0 else s.pcReg k r.fstrm)
  else if i = 0x003 then r.tvec
  else if i = 0x004 then r.info0
  else if i = 0x005 then r.info1
  else if i = 0x006 then r.info2
  else if i = 0x007 then r.info3
  else if 0x008 ≤ i ∧ i ≤ 0x00C then s.pcReg k (i - 0x008)
  else if i = 0x010 then n r.sprio
  else if i = 0x011 then r.htbase
  else if i = 0x012 then n r.htcnt
  else if i = 0x013 then r.ctxbase
  else if i = 0x018 then c.mshare.setWidth 64
  else if i = 0x019 then c.corecfg.setWidth 64
  else if i = 0x01A then c.lpcfg.setWidth 64
  else if i = 0x01B then c.lpseq.setWidth 64
  else if i = 0x020 then s.me.fpflags.setWidth 64
  else if i = 0x021 then (s.stream (5 * k)).vlen.setWidth 64
  else if i = 0x030 then selfId s.module s.cur
  else if i = 0x031 then n s.stitch
  else if i = 0x032 then n (s.cycle s.cur.coreK)
  else if 0x040 ≤ i ∧ i ≤ 0x053 then n (sl.tackCount (i - 0x040))
  else if 0x400 ≤ i ∧ i ≤ 0x53F then (s.stream (5 * k + (i - 0x400) / 64)).getX (BitVec.ofNat 6 ((i - 0x400) % 64))
  else if 0x540 ≤ i ∧ i ≤ 0x549 then
    let st := s.stream (5 * k + (i - 0x540) / 2)
    if i % 2 = 0 then st.fpflags.setWidth 64 else st.vlen.setWidth 64
  else 0

/-- A 32-bit register's new value, its reserved bits zero (R14, R33). -/
def low32 (n : Nat) (v : Word) : BitVec 32 := BitVec.ofNat 32 (v.toNat % 2 ^ n)

/-- A write of a system register in supervisor mode (R33 to R46). Read-only registers and indices not listed ignore
it. -/
def State.setSysReg (s : State) (i : Nat) (v : Word) : State :=
  let k := s.cur.slotK
  let r := s.mySlot.regs
  let c := s.myCore
  if i = 0x000 then s.setRegs k { r with fstrm := bits v 2 3, pmode := v.getLsbD 1 }
  else if i = 0x001 then s.setRegs k { r with cause := BitVec.ofNat 32 (bits v 31 1 * 2 ^ 31 + bits v 0 8) }
  else if i = 0x002 then (if 5 ≤ r.fstrm then s else s.setPcReg k r.fstrm v)
  else if i = 0x003 then s.setRegs k { r with tvec := addrBits 1 v }
  else if 0x008 ≤ i ∧ i ≤ 0x00C then s.setPcReg k (i - 0x008) v
  else if i = 0x010 then (s.setRegs k { r with cap := bits v 8 4, base := bits v 0 4 }).relend s.cur.tile
  else if i = 0x011 then s.setRegs k { r with htbase := addrBits 6 v }
  else if i = 0x012 then s.setRegs k { r with htcnt := min 64 (bits v 0 7) }
  else if i = 0x013 then s.setRegs k { r with ctxbase := addrBits 12 v }
  else if i = 0x018 then s.setMyCore { c with mshare := low32 20 v }
  else if i = 0x019 then s.setMyCore { c with corecfg := low32 18 v }
  else if i = 0x01A then s.setMyCore { c with lpcfg := low32 16 v }
  else if i = 0x020 then s.setMe { s.me with fpflags := low32 6 v }
  else if i = 0x021 then s.setStream (5 * k) { s.stream (5 * k) with vlen := low32 12 v }
  else if 0x400 ≤ i ∧ i ≤ 0x53F then
    let f := 5 * k + (i - 0x400) / 64
    s.setStream f ((s.stream f).setX (BitVec.ofNat 6 ((i - 0x400) % 64)) v)
  else if 0x540 ≤ i ∧ i ≤ 0x549 then
    let f := 5 * k + (i - 0x540) / 2
    if i % 2 = 0 then s.setStream f { s.stream f with fpflags := low32 6 v }
    else s.setStream f { s.stream f with vlen := low32 12 v }
  else s

/-- Indices with a dash in R32's User column (R54). -/
def sysPrivileged (i : Nat) : Bool :=
  decide (i ≤ 0x00C) || decide (i = 0x011) || decide (i = 0x013) || decide (i = 0x018) || decide (i = 0x01A) ||
    (decide (0x400 ≤ i) && decide (i ≤ 0x549))
/-- Indices a user-mode MTS writes (R32). -/
def userWrites (i : Nat) : Bool := decide (i = 0x020) || decide (i = 0x021)

/-- Instructions in flight that a change of CORECFG waits for (R31). -/
def State.configBusy (s : State) (new : BitVec 32) : Bool :=
  let c := s.myCore
  let old := c.corecfg.toNat
  let engine := decide (old / 2 ^ 16 % 4 ≠ new.toNat / 2 ^ 16 % 4)
  let moved (a : Nat) : Bool := decide (old / 4 ^ a % 4 ≠ new.toNat / 4 ^ a % 4)
  (match c.matrix.running with | some (ps, _) => engine || moved ps.tile | none => false) ||
    (s.auxOf s.cur.coreK).mgemv.any (fun g => engine || moved g.tile)

/-- MFS (R33, R54, R161). Its form is U, so an EXT is its own (R105, R107); idx is imm[11:0]. -/
def execMfs (d : Reg) (idx : BitVec 12) (t : Tack) (s : State) : Out :=
  issueX 4 t (fun s =>
    if sysPrivileged idx.toNat && !s.super then .trap privFault s else .done (s.setX d (s.sysReg idx.toNat))) s
/-- MTS (R31, R33, R50, R54, R161). -/
def execMts (d : Reg) (idx : BitVec 12) (t : Tack) (s : State) : Out :=
  issueX 4 t (fun s =>
    let i := idx.toNat
    if s.super then
      (if i = 0x019 ∧ s.configBusy (low32 18 (s.x d)) then .wait false s else .done (s.setSysReg i (s.x d)))
    else if sysPrivileged i then .trap privFault s
    else if userWrites i then .done (s.setSysReg i (s.x d))
    else .done s) s

/-! ## ERET (R117, R162) -/

/-- The landing of a move: the fault it takes, if any (R115, R117). -/
def State.landing (s : State) (p : Place) (target : Word) : Option Nat × State :=
  match s.fetchWord p.tile p.stream target.toNat with
  | (.fault c, s1) => (some c, s1)
  | (.ok bs, s1) => (if isHeader bs then none else some 6, s1)

/-- The moves the handler made, each applied as a branch: the lowest stream that does not land, with its fault. -/
def State.applyMoves (k : Nat) : List Nat → State → Option (Nat × Nat) × State
  | [], s => (none, s)
  | f :: r, s =>
    let st := s.stream (5 * k + f)
    if st.ended || !st.moved then State.applyMoves k r s
    else match s.landing (placeOfSlot k f) st.pc with
      | (none, s1) => State.applyMoves k r (s1.setStream (5 * k + f) { st with moved := false, block := none })
      | (some c, s1) =>
        let q := State.applyMoves k r s1
        (some (f, c), q.2)

/-- ERET with PMODE = 0: the moves, then the task resumes or takes what is pending (R162). `push` is the channel of
the ERET's P bit: the ERET has completed, so a push without room stays pending (R135). A move that does not land is a
fault of its stream (R117), with the ERET's token `back`; a register the handler wrote stays written (DESIGN CHOICE,
log 29). -/
def State.eretTask (s : State) (k : Nat) (push back : Option Nat) : State :=
  let r := (s.slot k).regs
  let s1 := s.setRegs k { r with super := false, resumed := false, pcc := none }
  match State.applyMoves k [0, 1, 2, 3, 4] s1 with
  | (some (f, c), s2) =>
    let left := (List.range 5).filter (fun g => (s2.stream (5 * k + g)).moved)
    let s3 := match back with | some w => s2.setSlot k ((s2.slot k).addTack w 1) | none => s2
    let s4 := s3.syncFault (placeOfSlot k f) { code := c, info0 := s3.pcReg k f }
    left.foldl (fun s g => s.setStream (5 * k + g) { s.stream (5 * k + g) with moved := true }) s4
  | (none, s2) =>
    let s3 := match push with | some c => s2.pushTack (placeOfSlot k 0) c | none => s2
    (((s3.releasePend k).toRunning k).copyDirective k).deliverNext k

/-- The thimble core's firmware is done with a trap (R449): it ends the procedure with a result, or returns to it with
ERET, leaving a paused copy's STATUS as it is (log 81). -/
def State.firmware (s : State) (result : Option Nat) : State :=
  match result with
  | some r => s.endProcedure r
  | none => ({ s with turns := s.turns ++ [.engine s.cur 1] } : State).eretTask 512 none none

/-- The handler's C stream goes on at an address of the supervisor's choice. -/
def State.moveHandler (s : State) (k : Nat) (pc : Word) (b : Option Block) : State :=
  let sl := s.slot k
  s.setSlot k { sl with sup := { sl.sup with pc := pc, block := b, ext := none, wait := none, blocked := false, stalled := none
                                             ready := none, issued := s.clock } }

/-- ERET with PMODE = 1: the handler moves to PCC, and the task's resume address is the trap's again (R117,
R162). -/
def eretSuper (k : Nat) (push : Option Nat) (s : State) : Eff :=
  let st := s.stream (5 * k)
  let after (s : State) : State := match push with | some c => s.pushTack (placeOfSlot k 0) c | none => s
  if st.moved then
    match s.landing (placeOfSlot k 0) st.pc with
    | (some c, s1) => .trap { code := c, info0 := st.pc } s1
    | (none, s1) =>
      let r := (s1.slot k).regs
      let s2 := (s1.setStream (5 * k) { st with pc := r.pcc.getD st.pc, moved := false }).setRegs k { r with pcc := none }
      .held (after (s2.moveHandler k st.pc none))
  else .held (after (s.moveHandler k st.pc st.block))

/-- ERET (R162). -/
def execEret (t : Tack) (s : State) : Out :=
  issue 4 t (fun s =>
    let k := s.cur.slotK
    let sl := s.mySlot
    let push := if t.p then some (pChannel 0 s.me) else none
    let back := if t.w then some (wChannel 0 s.me) else none
    if !s.super then .trap privFault s
    else if sl.mode ≠ .trapped ∨ 5 ≤ sl.regs.fstrm then .trap { code := 0x30, info2 := 0x30 } s
    else if sl.regs.pmode then eretSuper k push s
    else .held (s.eretTask k push back)) s

/-! ## WFI (R163) -/

/-- WFI: ends at once on APEND or PREQ; else on an operation on a masked semaphore after it issued. -/
def execWfi (a : Reg) (t : Tack) (s : State) : Out :=
  issue 4 t (fun s =>
    if !s.super then .trap privFault s
    else if s.mySlot.apend || s.mySlot.regs.preq then .done s
    else match s.me.wait with
      | some (.wfi _ fired) => if fired then .done s else .wait false s
      | _ => .wait false (s.setMe { s.me with wait := some (.wfi (s.x a) false) })) s

end Sys2Proof.Machine
end

