-- ==== Sys2Proof/Machine/Walker.lean ====
section
/-!
DEFINITION. The graph walker (R57, R58, R352 to R358).
-/
namespace Sys2Proof.Machine

/-! ## Records (R353 to R356) -/

/-- A record from its 256 bytes; `ok` is false where R354 rejects it. -/
def walkRecOf (index : Nat) (bs : List Byte) : WalkRec :=
  let q (o n : Nat) : Nat := leNat ((bs.drop o).take n)
  let nd := q 3 1 % 8
  let perm := (List.range nd).map (fun k => q 4 1 / 4 ^ k % 4)
  let ndep := q 7 1 % 8
  let deps := (List.range (min ndep 4)).map (fun j =>
    (q (64 + 16 * j) 2 % 512, q (64 + 16 * j) 2 / 512 % 8, BitVec.ofNat 32 (q (68 + 16 * j) 4), BitVec.ofNat 32 (q (72 + 16 * j) 4)))
  let dn := q 128 2
  let dv := bitN dn 15
  { index := index, rid := q 0 2, serp := bitN (q 2 1) 1, perm := perm
    ext := (List.range nd).map (fun d => q (8 + 4 * d) 4), cmask := q 5 1, prio := q 6 1 % 16
    deps := deps
    entry := (List.range 5).map (fun s => addrBits 1 (BitVec.ofNat 64 (q (24 + 8 * s) 8)))
    done := if dv then some (dn % 512, dn / 512 % 8, BitVec.ofNat 32 (q 132 4)) else none
    bad := decide (nd = 0) || decide (4 < nd) || !(List.range nd).all (fun d => perm.contains d) || decide (q 5 1 = 0) ||
      decide (4 < ndep) || deps.any (fun d => selBad d.1) || (dv && selBad (dn % 512)) }

/-- Whether the record's VALID bit is set. -/
def recValid (bs : List Byte) : Bool := bitN (leNat ((bs.drop 2).take 1)) 0

/-- What the walker finds of record `i` at START: nothing (VALID = 0), a record, or an address that failed. -/
inductive RecRead where
  | skip
  | got (r : WalkRec)
  | failed (va : Nat)
  deriving DecidableEq, Repr

/-- How far into the segments their first poisoned granule begins. -/
def poisonAt (s : State) : List (Nat × Nat) → Option Nat
  | [] => none
  | (a, n) :: r =>
    match (List.range (n / 64 + 1)).find? (fun i => decide (64 * i < n) && s.poison.contains ((a + 64 * i) / 64)) with
    | some i => some (64 * i)
    | none => (poisonAt s r).map (n + ·)

/-- Record `i` read through the tile's tables (R353, R354). -/
def State.readRec (s : State) (tile : Nat) (base : Word) (i : Nat) : RecRead × State :=
  let va := (base.toNat + 256 * i) % 2 ^ 56
  match State.xlate tile (2 ^ 21) .read true 2 s va 256 with
  | (.ok segs _, s1) =>
    match poisonAt s1 segs with
    | some o => (.failed ((va + o) % 2 ^ 56), s1)
    | none =>
      let bs := readSegs s1.mem segs
      (if recValid bs then .got (walkRecOf i bs) else .skip, s1)
  | (.fault _ a, s1) => (.failed a, s1)
  | (.hold, s1) => (.failed va, s1)

/-- The machine check of a rejected record (R354). -/
def State.badRec (s : State) (tile i va : Nat) : State :=
  s.raiseAt tile { code := 0x30, info0 := BitVec.ofNat 64 va, info2 := BitVec.ofNat 64 i }

/-- Records read in order; the rejected ones raise their machine checks. -/
def State.readRecs (tile : Nat) (base : Word) : List Nat → State → List WalkRec × State
  | [], s => ([], s)
  | i :: r, s =>
    match s.readRec tile base i with
    | (.skip, s1) => State.readRecs tile base r s1
    | (.failed va, s1) =>
      let t := State.readRecs tile base r (s1.badRec tile i va)
      ({ walkRecOf i [] with bad := true } :: t.1, t.2)
    | (.got w, s1) =>
      let t := State.readRecs tile base r (if w.bad then s1.badRec tile i 0 else s1)
      (w :: t.1, t.2)

/-- The digits of iteration `n`, position 0 outermost; SERP reverses a digit under an odd prefix (R355). -/
def digits : List Nat → Nat → Bool → Nat → List Nat
  | [], _, _, _ => []
  | e :: r, n, serp, pre =>
    let w := r.foldl (· * ·) 1
    let d := n / max 1 w % max 1 e
    (if serp && decide (pre % 2 = 1) then e - 1 - d else d) :: digits r n serp (pre * e + d)

/-- x1 to x4 of an iteration (R57, R58). -/
def WalkRec.indices (r : WalkRec) (n : Nat) : List Nat :=
  let ds := digits (r.perm.map (fun d => r.ext.getD d 1)) n r.serp 0
  (List.range 4).map (fun d => ((r.perm.zip ds).find? (fun e => decide (e.1 = d))).map (·.2) |>.getD 0)

/-- Iteration `n` is ready (R356). -/
def State.iterReady (s : State) (tile : Nat) (r : WalkRec) : Bool :=
  r.deps.all (fun (sel, core, ta, tb) => semPasses (s.sem tile core sel).v (ta + tb * BitVec.ofNat 32 r.next))

/-- A slot that can take an iteration (R357). -/
def State.available (s : State) (k : Nat) : Bool :=
  decide ((s.slot k).mode = .free) || (decide ((s.slot k).mode = .preempted) && (s.slot k).psave)
/-- The lowest available slot of the lowest core of a mask. -/
def State.slotFor (s : State) (tile cmask : Nat) : Option Nat :=
  (((List.range 8).filter (fun c => bitN cmask c)).flatMap (fun c => (List.range 4).map (slotKey tile c))).find? (fun k => s.available k)

/-- A stream as a task finds it (R57). -/
def startStream (st : Stream) (ix : List Nat) (n rid : Nat) (pc : Word) : Stream :=
  let x := ((ix ++ [n, rid]).zipIdx).foldl (fun t (v, i) => Tab.set 0 (i + 1) (BitVec.ofNat 64 v) t) ([] : Tab Word)
  { st with x := x, pc := pc, block := none, ext := none, fpflags := 0, vlen := 0, ended := false, wait := none, push := []
            moved := false, stalled := none, ready := none, blocked := false }

/-- An iteration starts on a slot (R40, R57, R344). -/
def State.startTask (s : State) (tile k : Nat) (r : WalkRec) : State :=
  let sl := s.slot k
  let s1 := s.setSlot k { sl with
    mode := .running, frozen := false, handles := [], tack := [], fifo := [], faults := [], delivered := none, psave := false
    halted := none, mgemv := []
    task := some { id := s.tasks + 1, tile := tile, recIdx := r.index, iter := r.next, gen := (s.tile tile).walker.gen, done := r.done }
    regs := { sl.regs with super := false, preq := false, base := min r.prio sl.regs.cap } }
  let s2 := (List.range 5).foldl (fun s f =>
    s.setStream (5 * k + f) (startStream (s.stream (5 * k + f)) (r.indices r.next) r.next r.rid (r.entry.getD f 0))) s1
  let t := s2.tile tile
  let s3 := s2.setTile tile { t with tcache := t.tcache.filter (fun e => e.key / 64 ≠ k ∨ 2 ^ 20 ≤ e.key) }
  ({ s3 with tasks := s3.tasks + 1, hub := { s3.hub with preempts := Tab.erase k s3.hub.preempts } }).relend tile

/-- Firmware runs a management procedure (R448): it writes the task's handle table and enters the C stream's entry block
in user mode; the thimble core's other streams do not exist. Its one slot takes one task at a time (R447). A table that
cannot be written is a fault of the firmware, which resets the module (R449). -/
def State.runProcedure (s : State) (entry htbase : Word) (table : List Byte) : State :=
  if (s.slot 512).mode ≠ .free then s
  else match s.areaWrite 16 htbase.toNat [(0, table)] with
    | (.hold, s1) => { s1 with turns := s1.turns ++ [.procedure entry htbase table] }
    | (.fault c _, s1) => { s1 with hub := { s1.hub with log := (c, (s1.slot 512).sup.pc) :: s1.hub.log } }.soon .moduleReset
    | (.ok _ _, s1) =>
      let sl := s1.slot 512
      let s2 := s1.setSlot 512 { sl with
        mode := .running, frozen := false, handles := [], tack := [], fifo := [], faults := [], delivered := none
        task := some { id := s1.tasks + 1, tile := 16, recIdx := 0, iter := 0, done := none }
        regs := { sl.regs with super := false, htbase := addrBits 6 htbase, htcnt := min 64 (table.length / 64) } }
      { s2.setStream 2560 { startStream (s2.stream 2560) [] 0 0 (addrBits 1 entry) with x := [] } with tasks := s1.tasks + 1 }

/-- The walker waits for the point START asked for before its first iteration (R352). -/
def State.startHeld (s : State) (tile : Nat) : Bool :=
  (s.tile tile).walker.recs.all (fun r => decide (r.next = 0)) &&
    (List.range 8).any (fun c => (s.auxOf (coreKey tile c)).liningAsked)

/-- WALKER_ITERATION_START (R357): the first record in index order whose next iteration is ready and has a
slot. -/
def State.walk1 (s : State) (tile : Nat) : State :=
  let w := (s.tile tile).walker
  if !w.run || !s.dieOn tile then s
  else if s.startHeld tile then s.again (.walkerIterationStart tile)
  else
    match (w.recs.filterMap (fun r =>
        if !r.bad && decide (r.next < r.total) && s.iterReady tile r then (s.slotFor tile r.cmask).map (fun k => (r, k)) else none)).head? with
    | none => s
    | some (r, k) =>
      let s1 := s.startTask tile k r
      let t := s1.tile tile
      (s1.setTile tile { t with walker := { t.walker with
        recs := t.walker.recs.map (fun x => if x.index = r.index then { x with next := x.next + 1 } else x) } }).nudge tile
def execWalkerIterationStart (tile : Nat) (s : State) : Out := .next (s.walk1 tile)

/-! ## START and STOP (R352, R358) -/

/-- START (R352): the records are read anew, a lining point of every core is asked for, and a graph with no
iteration is DONE. -/
def State.walkStart (s : State) (tile : Nat) : State :=
  let w := (s.tile tile).walker
  let r := State.readRecs tile w.base (List.range w.cnt) s
  let s1 := (List.range 8).foldl (fun s c => (s.askLining tile c).2) r.2
  let t := s1.tile tile
  let w1 := { w with recs := r.1, run := true, done := false, gen := w.gen + 1 }
  if w1.allRetired then
    (s1.setTile tile { t with walker := { w1 with done := true } }).report .thimble { code := 0 } tile 0
  else (s1.setTile tile { t with walker := w1 }).once (.walkerIterationStart tile)
def execWStart (tile : Nat) (s : State) : Out := .next (if tile < 16 then s.walkStart tile else s)
/-- STOP (R352). -/
def State.walkStop (s : State) (tile : Nat) : State :=
  s.setTile tile { s.tile tile with walker := { (s.tile tile).walker with run := false } }
def execWStop (tile : Nat) (s : State) : Out := .next (if tile < 16 then s.walkStop tile else s)

end Sys2Proof.Machine
end

