-- ==== Sys2Proof/Machine/Preempt.lean ====
section
/-!
DEFINITION. Pre-emption, context areas, and the commands that settle a slot (R368, R371 to R376, R384).
-/
namespace Sys2Proof.Machine

/-- A walker command refused (R352). -/
def State.cmdErr (s : State) (tile : Nat) : State :=
  s.setTile tile { s.tile tile with walker := { (s.tile tile).walker with cmderr := true } }

def ctxMagic : Nat := 0x4B584354
/-- A context header that no RESUME has taken up: the magic, and HELD (R371, R373). -/
def heldHeader (hd : List Byte) : Bool := decide (leNat (hd.take 4) = ctxMagic) && bitN (leNat ((hd.drop 24).take 1)) 2

/-! ## PREEMPT (R371, R383) -/

/-- The command PREEMPT. -/
def State.preempt (s : State) (tile k arg : Nat) : State :=
  let sl := s.slot k
  match sl.mode with
  | .free => s
  | .preempted => if sl.psave then s else s.once (.contextSaveComplete tile (k / 4 % 8) (k % 4))
  | _ =>
    let area : Word := if arg = 0 then sl.regs.ctxbase else BitVec.ofNat 64 (arg % 2 ^ 44 * 4096)
    if heldHeader ((s.ctxRead tile area.toNat 64).getD []) then s.cmdErr tile
    else
      let s1 := s.setSlot k { sl with regs := { sl.regs with ctxbase := area, preq := true } }
      ({ s1 with hub := { s1.hub with preempts := Tab.insert k area s1.hub.preempts } }).once (.preemptHalt tile (k / 4 % 8) (k % 4))
def execWPreempt (tile core slot : Nat) (arg : Nat) (s : State) : Out :=
  .next (if tile < 16 then s.preempt tile (slotKey tile core slot) arg else s)

/-- PREEMPT_HALT (R371): every stream stops at a boundary, the handler included; outstanding MGEMV operations are
kept to run again (R295). -/
def State.preemptHalt (s : State) (k : Nat) : State :=
  let sl := s.slot k
  if sl.regs.preq ∧ (sl.mode = .running ∨ sl.mode = .trapped) ∧ s.dieOn (k / 32) then
    let s1 := (s.interruptPass k).haltStreams k
    let x := s1.auxOf (k / 4)
    let s2 := s1.setAux (k / 4) { x with mgemv := x.mgemv.filter (fun g => g.slot ≠ k) }
    let sl1 := s2.slot k
    (s2.setSlot k { sl1 with
      mode := .preempted, frozen := false, psave := false, halted := some (s.stitch, decide (sl.mode = .trapped))
      mgemv := x.mgemv.filter (fun g => g.slot = k)
      regs := { sl1.regs with preq := false } }).once (.contextSaveComplete (k / 32) (k / 4 % 8) (k % 4))
  else s
def execPreemptHalt (tile core slot : Nat) (s : State) : Out := .next (s.preemptHalt (slotKey tile core slot))

/-! ## The context area (R373; log 10) -/

def zeros (n : Nat) : List Byte := List.replicate n 0#8
/-- Bytes cut or filled with zeros to a length. -/
def fit (n : Nat) (l : List Byte) : List Byte := l.take n ++ zeros (n - l.length)

/-- A stream's 576 bytes. -/
def Stream.bytes (st : Stream) : List Byte :=
  fit 576 ((List.range 64).flatMap (fun r => leBytes 8 (st.getX (BitVec.ofNat 6 r)).toNat) ++ leBytes 8 st.pc.toNat ++
    leBytes 8 ((st.block.map (·.header.toNat)).getD 0) ++ leBytes 8 ((st.block.map (·.remaining)).getD 0) ++
    leBytes 8 ((st.block.map (fun b => b.wpeer + 256 * b.ppeer)).getD 0) ++ leBytes 8 st.fpflags.toNat ++
    leBytes 8 st.vlen.toNat ++ st.push.flatMap (fun c => leBytes 1 (128 + c)))

/-- The trap and address registers' 192 bytes. -/
def Slot.regBytes (sl : Slot) : List Byte :=
  let r := sl.regs
  fit 192 ([sl.tstat, r.cause.toNat, r.tvec.toNat, r.info0.toNat, r.info1.toNat, r.info2.toNat, r.info3.toNat, r.sprio,
            r.htbase.toNat, r.htcnt, r.ctxbase.toNat].flatMap (leBytes 8))

/-- What a handle names of a tensor, with its register and an offset: 46 bytes. -/
def Handle.operandBytes (h : Handle) (hidx off : Nat) : List Byte :=
  leBytes 7 h.base ++ leBytes 8 h.wstart ++ leBytes 1 h.type ++ leBytes 1 h.rank ++ leBytes 8 h.e0 ++ leBytes 4 h.e1 ++ leBytes 4 h.e2 ++
    leBytes 4 h.e3 ++ leBytes 1 hidx ++ leBytes 8 off
/-- An outstanding MGEMV's record of 104 bytes. -/
def Mgemv.bytes (g : Mgemv) : List Byte :=
  fit 104 (leBytes 1 (if g.zero then 3 else 1) ++ leBytes 1 g.tile ++ leBytes 1 g.row ++ leBytes 2 g.n ++ leBytes 1 g.pa ++ leBytes 1 g.pw ++
    g.vec.operandBytes g.vidx g.voff.toNat ++ g.mat.operandBytes g.midx g.offm)
/-- A paused copy's reference of 4 bytes: its engine and the low bits of its number. -/
def copyRef (f : Eng × Nat) : List Byte := leBytes 1 (match f.1 with | .tile _ => 1 | .core _ c => 2 + c) ++ leBytes 3 f.2

/-- The 512 bytes of records: the task, the ended streams, poison met, and body lengths in 64; four MGEMV records; the
delivered paused copy and the first of the others. -/
def State.recordBytes (s : State) (k : Nat) : List Byte :=
  let sl := s.slot k
  let t := sl.task.getD { id := 0, tile := 0, recIdx := 0, iter := 0, done := none }
  let ended := ((List.range 5).filter (fun f => (s.stream (5 * k + f)).ended)).foldl (fun m f => m + 2 ^ f) 0
  let done := match t.done with
    | some (sel, core, inc) => leBytes 1 1 ++ leBytes 2 sel ++ leBytes 1 core ++ leBytes 4 inc.toNat
    | none => zeros 8
  fit 64 (leBytes 8 t.id ++ leBytes 4 t.recIdx ++ leBytes 8 t.iter ++ leBytes 4 t.gen ++ done ++ leBytes 1 ended ++ leBytes 8 sl.mgPoison ++
    (List.range 5).flatMap (fun f => leBytes 2 (((s.stream (5 * k + f)).block.map (fun b => (b.stop - b.start).toNat / 2)).getD 0))) ++
    fit 416 (sl.mgemv.flatMap Mgemv.bytes) ++ fit 32 ((match sl.delivered with | some f => copyRef f | none => zeros 4) ++ sl.faults.flatMap copyRef)

/-- CORECFG's owner of accumulator tile `a`, or of the matrix engine for 8. -/
def Core.ownerOf (c : Core) (a : Nat) : Nat := c.corecfg.toNat / 4 ^ a % 4
/-- The accumulator tiles a slot owns. -/
def State.tilesOf (s : State) (k : Nat) : List Nat := (List.range 8).filter (fun a => (s.core (k / 4)).ownerOf a = k % 4)

/-- The events that wait in a slot for its context's list: those of its FIFO, then its copy faults in fault order, 8 at most
(R372; log 10). A copy fault past the eighth waits with its paused operation. -/
def State.waiting (s : State) (k : Nat) : List Event :=
  let sl := s.slot k
  (sl.fifo ++ sl.faults.filterMap (fun f => (s.findOp f.1 f.2).bind (·.paused))).take 8

/-- The header's 64 bytes. -/
def State.headerBytes (s : State) (k : Nat) : List Byte :=
  let sl := s.slot k
  let h := sl.halted.getD (0, false)
  let c := s.core (k / 4)
  fit 64 (leBytes 4 ctxMagic ++ leBytes 4 (selfId s.module (placeOfSlot k 0)).toNat ++ leBytes 4 c.lpseq.toNat ++
    leBytes 4 (s.waiting k).length ++ leBytes 8 h.1 ++
    leBytes 1 ((if h.2 then 1 else 0) + (if c.ownerOf 8 = k % 4 then 2 else 0) + 4) ++
    leBytes 1 ((s.tilesOf k).foldl (fun m a => m + 2 ^ a) 0))

def WBuf.bytes (b : WBuf) : List Byte := fit 16 (leBytes 1 b.type ++ leBytes 1 b.pw ++ leBytes 1 b.mode ++ leBytes 2 b.nc)
def words32At (dflt : BitVec 32) (n : Nat) (t : Tab (BitVec 32)) : List Byte :=
  (List.range n).flatMap (fun i => leBytes 4 (Tab.get dflt i t).toNat)

/-- A progress record's bytes (R280, R281). -/
def Pass.bytes (r : Pass) : List Byte :=
  leBytes 1 (1 + (if r.zero then 2 else 0) + (if r.tack.w then 4 else 0) + (if r.tack.p then 8 else 0)) ++ leBytes 8 r.addr.toNat ++ leBytes 2 r.k ++
    leBytes 1 r.tile ++ leBytes 2 r.row ++ leBytes 2 r.n ++ leBytes 1 r.type ++ leBytes 1 r.pa ++ r.h.toBytes ++ leBytes 1 r.hidx ++
    leBytes 8 r.off.toNat

/-- The scale bytes of a weight buffer's PB operand (R275). -/
def WBuf.scaleBytes (b : WBuf) : List Byte := (List.range 0x4000).map (fun i => BitVec.ofNat 8 (Tab.get 0 i b.scales))

/-- The matrix engine's bytes, and after them the scale bytes of its buffers. -/
def State.matrixBytes (s : State) (core : Nat) : List Byte :=
  let m := (s.core core).matrix
  s.mem.readBytes (wbAddr core false) 0x30000 ++ s.mem.readBytes (wbAddr core true) 0x30000 ++
    fit 0x4000 (m.wb0.bytes ++ m.wb1.bytes ++ leBytes 8 ((if m.active then 1 else 0) + (if m.discarded then 2 else 0)) ++ leBytes 4 m.fmtType ++
      leBytes 4 m.fmtPa ++ words32At one32 256 m.rowScale ++ words32At one32 512 m.colScale ++ words32At 0 512 m.bias ++
      ((m.record.map Pass.bytes).getD [])) ++ m.wb0.scaleBytes ++ m.wb1.scaleBytes

/-- STATM's and STATA's resets (R28). -/
def negInf32 : BitVec 32 := 0xFF800000
/-- An accumulator tile's bytes. -/
def State.accumBytes (s : State) (core a : Nat) : List Byte :=
  let t := (s.core core).accum a
  s.mem.readBytes (accAddr core a 0 0) 0x80000 ++
    fit 0x1000 (words32At negInf32 256 t.statm ++ words32At 0 256 t.statl ++ words32At one32 256 t.stata ++ leBytes 4 t.type ++
      leBytes 4 t.ovf.toNat)

/-- The runs a save writes: offset and bytes. -/
def State.contextRuns (s : State) (k : Nat) : List (Nat × List Byte) :=
  let sl := s.slot k
  let c := k / 4
  let body := s.headerBytes k ++ sl.regBytes ++ (List.range 5).flatMap (fun f => (s.stream (5 * k + f)).bytes) ++
    fit 64 ((List.range 20).flatMap (fun i => leBytes 1 (sl.tackCount i))) ++ fit 384 ((s.waiting k).flatMap eventBytes) ++
    s.recordBytes k ++ (List.range 64).flatMap (fun r => (Tab.get ({} : Handle) r sl.handles).toBytes)
  (0, body) :: (if (s.core c).ownerOf 8 = k % 4 then [(0x2000, s.matrixBytes c)] else []) ++
    (s.tilesOf k).map (fun a => (0x80000 + 0x81000 * a, s.accumBytes c a))

/-- CONTEXT_SAVE_COMPLETE (R373, R374): the context is saved as a release at TILE scope (R191) and PSAVE set; a page
that cannot be written stops the save with a machine check. -/
def State.saveContext (s : State) (k : Nat) : State :=
  let sl := s.slot k
  if sl.mode = .preempted ∧ sl.psave = false ∧ s.dieOn (k / 32) then
    let tile := k / 32
    let s0 := s.settleCore (k / 4)
    match State.areaWrite tile sl.regs.ctxbase.toNat (s0.contextRuns k) s0 with
    | (.ok _ _, s1) =>
      let s2 := s1.setSlot k { s1.slot k with psave := true, fifo := [], faults := [], delivered := none, mgemv := [] }
      let s3 := match sl.task with
        | some t =>
          { s2 with held := { task := t.id, tile := tile, area := sl.regs.ctxbase } :: s2.held.filter (fun h => h.task ≠ t.id) }
        | none => s2
      s3.nudge tile
    | (.hold, s1) => s1.again (.contextSaveComplete tile (k / 4 % 8) (k % 4))
    | (.fault c va, _) => s.report .thimble { code := 0x30, info0 := BitVec.ofNat 64 va, info2 := BitVec.ofNat 64 c } tile k
  else s
def execContextSaveComplete (tile core slot : Nat) (s : State) : Out := .next (s.saveContext (slotKey tile core slot))

/-! ## RESUME (R375) -/

/-- Bytes `o` to `o + n − 1` of an area as a number. -/
def fieldAt (bs : List Byte) (o n : Nat) : Nat := leNat ((bs.drop o).take n)
/-- A table of 32-bit words from bytes. -/
def tabAt (dflt : BitVec 32) (bs : List Byte) (o n : Nat) : Tab (BitVec 32) := tabOf dflt (words32 n (bs.drop o))

/-- The body length of the block whose header stands at an address: the header word's LEN (R111), or where it is not
mapped the length the records keep (log 10). -/
def State.bodyLen (s : State) (tile : Nat) (header : Word) (kept : Nat) : Nat :=
  match s.ctxRead tile header.toNat 4 with
  | some bs => if isHeader bs then leNat bs / 2 ^ 13 % 512 else kept
  | none => kept

/-- A stream as a context holds it. -/
def State.streamAt (s : State) (tile : Nat) (st : Stream) (b : List Byte) (ended : Bool) (kept : Nat) : Stream :=
  let q (o n : Nat) : Nat := fieldAt b o n
  let header := addrBits 1 (BitVec.ofNat 64 (q 520 8))
  { st with
    x := (List.range 64).foldl (fun t r => if r = 0 then t else Tab.set 0 r (BitVec.ofNat 64 (q (8 * r) 8)) t) []
    pc := addrBits 1 (BitVec.ofNat 64 (q 512 8))
    block := if q 528 8 = 0 then none else
      some { header := header, start := header + 4, stop := header + 4 + BitVec.ofNat 64 (2 * s.bodyLen tile header kept)
             remaining := q 528 8, wpeer := q 536 1 % 4, ppeer := q 537 1 % 4 }
    fpflags := BitVec.ofNat 32 (q 544 4 % 64), vlen := BitVec.ofNat 32 (q 552 4 % 4096)
    push := ((List.range 8).map (fun i => q (560 + i) 1)).filterMap (fun p => if bitN p 7 then some (p % 32) else none)
    ended := ended, ext := none, wait := none, moved := false, stalled := none, ready := none, blocked := false }

/-- The trap registers a context holds. -/
def TrapRegs.ofBytes (r : TrapRegs) (b : List Byte) (area : Word) : TrapRegs :=
  let w (i : Nat) : Word := BitVec.ofNat 64 (fieldAt b (8 * i) 8)
  { r with
    torn := (w 0).getLsbD 11, resumed := (w 0).getLsbD 10, preq := false, fstrm := bits (w 0) 2 3, pmode := (w 0).getLsbD 1
    super := false, cause := BitVec.ofNat 32 (bits (w 1) 31 1 * 2 ^ 31 + bits (w 1) 0 8), tvec := addrBits 1 (w 2)
    info0 := w 3, info1 := tinfo1Bits (w 4), info2 := w 5, info3 := w 6, cap := bits (w 7) 8 4, base := bits (w 7) 0 4
    htbase := addrBits 6 (w 8), htcnt := min 64 (bits (w 9) 0 7), ctxbase := area, pcc := none }

/-- The task a context's records name. -/
def taskAt (tile : Nat) (b : List Byte) : Task :=
  { id := fieldAt b 0 8, tile := tile, recIdx := fieldAt b 8 4, iter := fieldAt b 12 8, gen := fieldAt b 20 4
    done := if fieldAt b 24 1 = 1 then some (fieldAt b 25 2, fieldAt b 27 1, BitVec.ofNat 32 (fieldAt b 28 4)) else none }
/-- Its operand of an MGEMV record, in a space: the handle, its register, the offset. -/
def operandAt (space : Nat) (b : List Byte) : Handle × Nat × Nat :=
  ({ base := fieldAt b 0 7, wstart := fieldAt b 7 8, type := fieldAt b 15 1, rank := fieldAt b 16 1, e0 := fieldAt b 17 8, e1 := fieldAt b 25 4
     e2 := fieldAt b 29 4, e3 := fieldAt b 33 4, space := space, pr := true }, fieldAt b 37 1 % 64, fieldAt b 38 8)
/-- An MGEMV of a slot from its record. -/
def mgemvAt (k : Nat) (b : List Byte) : Option Mgemv :=
  if !bitN (fieldAt b 0 1) 0 then none
  else
    let (v, vi, vo) := operandAt 1 (b.drop 7)
    let (m, mi, mo) := operandAt 4 (b.drop 53)
    some { id := 0, slot := k, tile := fieldAt b 1 1 % 8, row := fieldAt b 2 1, n := fieldAt b 3 2, k := m.e0, pa := fieldAt b 5 1, pw := fieldAt b 6 1
           zero := bitN (fieldAt b 0 1) 1, vec := v, vidx := vi, voff := vo, mat := m, midx := mi, offm := mo }
/-- A task's paused copy that a reference names. -/
def refAt (l : List (Eng × Nat)) (b : List Byte) : Option (Eng × Nat) := l.find? (fun f => decide (copyRef f = b.take 4) && decide (b ≠ []))

/-- What a context's records hold for a slot: its MGEMV operations, the delivered paused copy, and the others in fault
order, first those named and then the task's rest (R370, R372). -/
def State.recordsAt (s : State) (tile k : Nat) (rec0 : List Byte) : List Mgemv × Option (Eng × Nat) × List (Eng × Nat) :=
  let paused := s.pausedOf tile (fieldAt rec0 0 8)
  let ref (i : Nat) : Option (Eng × Nat) := refAt paused ((rec0.drop (480 + 4 * i)).take 4)
  let named := (List.range 7).filterMap (fun i => ref (i + 1))
  ((List.range 4).filterMap (fun i => mgemvAt k ((rec0.drop (64 + 104 * i)).take 104)), ref 0,
    named ++ paused.filter (fun f => !named.contains f && decide (ref 0 ≠ some f)))
/-- A context's events; those of paused copies wait as the copies do. -/
def eventsAt (hd body : List Byte) (paused : Bool) : List Event :=
  ((List.range (min 8 (fieldAt hd 12 4))).map (fun i => eventOfBytes ((body.drop (0xC80 + 48 * i)).take 48))).filter
    (fun e => !paused || decide (e.code ≠ 0x0E))

/-- A progress record from its bytes. -/
def passAt (k : Nat) (b : List Byte) : Option Pass :=
  let fl := fieldAt b 0 1
  if !bitN fl 0 then none
  else match handleOfBytes ((b.drop 18).take 64) with
    | .ok h => some { slot := k, addr := BitVec.ofNat 64 (fieldAt b 1 8), tack := ⟨bitN fl 2, bitN fl 3⟩, k := fieldAt b 9 2, tile := fieldAt b 11 1 % 8
                      row := fieldAt b 12 2, n := fieldAt b 14 2, type := fieldAt b 16 1, pa := fieldAt b 17 1, h := h, hidx := fieldAt b 82 1 % 64
                      off := fieldAt b 83 8, zero := bitN fl 1 }
    | .error _ => none
/-- The scale bytes from their bytes. -/
def scalesAt (b : List Byte) : Tab Nat := ((b.take 0x4000).zipIdx.map (fun (v, i) => (i, v.toNat))).filter (fun e => e.2 ≠ 0)

/-- The matrix engine of a slot from its bytes. -/
def matrixAt (k : Nat) (b : List Byte) : Matrix :=
  let q (o n : Nat) : Nat := fieldAt b (0x60000 + o) n
  { wb0 := { type := q 0 1 % 32, pw := q 1 1, mode := q 2 1, nc := q 3 2, scales := scalesAt (b.drop 0x64000) }
    wb1 := { type := q 16 1 % 32, pw := q 17 1, mode := q 18 1, nc := q 19 2, scales := scalesAt (b.drop 0x68000) }
    active := bitN (q 32 1) 0, discarded := bitN (q 32 1) 1, fmtType := q 40 4 % 32, fmtPa := q 44 4
    rowScale := tabAt one32 b 0x60030 256, colScale := tabAt one32 b 0x60430 512, bias := tabAt 0 b 0x60C30 512
    record := passAt k (b.drop 0x61430), running := none }

/-- The supervisor bank after a move to another slot is undefined (R53): free values. -/
def State.freeBank (s : State) (k : Nat) : State :=
  let sl := s.slot k
  let x := (List.range 64).foldl (fun t r => if r = 0 then t else Tab.set 0 r (Config.freeWord (s.free + r)) t) ([] : Tab Word)
  let s1 := s.setSlot k { sl with sup := { sl.sup with x := x, fpflags := low32 6 (Config.freeWord s.free) } }
  { s1 with free := s1.free + 64 }

/-- Saved tile and matrix contents written into the target core, and given to the slot in CORECFG (R375). -/
def State.loadTiles (s : State) (k : Nat) (mx : Option (List Byte)) (acc : List (Nat × List Byte)) : State :=
  let core := k / 4
  let s1 := acc.foldl (fun s (a, b) =>
    let c := s.core core
    let c1 := c.setAccum a { type := fieldAt b 0x80C00 4 % 32, statm := tabAt negInf32 b 0x80000 256, statl := tabAt 0 b 0x80400 256
                             stata := tabAt one32 b 0x80800 256, ovf := BitVec.ofNat 32 (fieldAt b 0x80C04 4) }
    let cfg := c.corecfg.toNat - c.ownerOf a * 4 ^ a + k % 4 * 4 ^ a
    { s.setCore core { c1 with corecfg := BitVec.ofNat 32 cfg } with mem := s.mem.writeBytes (accAddr core a 0 0) (b.take 0x80000) }) s
  match mx with
  | none => s1
  | some b =>
    let c := s1.core core
    let cfg := c.corecfg.toNat - c.ownerOf 8 * 4 ^ 8 + k % 4 * 4 ^ 8
    { s1.setCore core { c with matrix := matrixAt k b, corecfg := BitVec.ofNat 32 cfg } with
      mem := (s1.mem.writeBytes (wbAddr core false) (b.take 0x30000)).writeBytes (wbAddr core true) ((b.drop 0x30000).take 0x30000) }

/-- The slot that held the context holds nothing any more (R23). -/
def State.vacate (s : State) (src k id : Nat) : State :=
  let sl := s.slot src
  let same : Bool := match sl.task with | some t => decide (t.id = id) | none => false
  let s1 := if src ≠ k ∧ sl.mode = .preempted ∧ sl.psave ∧ same then
      s.setSlot src { sl with mode := .free, psave := false, halted := none, task := none, regs := { sl.regs with super := false } } else s
  { s1 with hub := { s1.hub with preempts := Tab.erase k (Tab.erase src s1.hub.preempts) } }

/-- Saved MGEMV operations run again from their start (R295, R375). -/
def State.restartMgemv (s : State) (k : Nat) (l : List Mgemv) : State :=
  l.foldl (fun s g =>
    let x := s.auxOf (k / 4)
    (s.setAux (k / 4) { x with mgemv := x.mgemv ++ [{ g with id := x.nextMg, slot := k, tc := [], rerun := true }], nextMg := x.nextMg + 1 }).later
      (.mgemvComplete (k / 32) (k / 4 % 8) x.nextMg)) s

/-- A slot that holds what a context would overwrite (R375). -/
def State.holds (s : State) (k n : Nat) : Bool :=
  let sl := s.slot (k / 4 * 4 + n)
  decide (n ≠ k % 4) && (decide (sl.mode = .running) || decide (sl.mode = .trapped) || (decide (sl.mode = .preempted) && !sl.psave))
/-- A slot of the tile is still saving into an area (R384). -/
def State.savingInto (s : State) (tile area : Nat) : Bool :=
  (s.slotsOf tile).any (fun j => decide ((s.slot j).mode = .preempted) && !(s.slot j).psave && decide ((s.slot j).regs.ctxbase.toNat = area))

/-- Everything a RESUME reads: the body, the matrix engine's bytes, and the tiles'. -/
def State.readContext (s : State) (tile area : Nat) (hd : List Byte) : Option (List Byte × Option (List Byte) × List (Nat × List Byte)) := do
  let body ← s.ctxRead tile area 0x2000
  let fl := fieldAt hd 24 1
  let mx ← if bitN fl 1 then (s.ctxRead tile (area + 0x2000) 0x6C000).map some else some none
  let acc ← ((List.range 8).filter (fun a => bitN (fieldAt hd 25 1) a)).mapM
    (fun a => (s.ctxRead tile (area + 0x80000 + 0x81000 * a) 0x81000).map (fun b => (a, b)))
  pure (body, mx, acc)

/-- The loading of a context whose header has been checked. -/
def State.loadContext (s : State) (tile k : Nat) (area : Word) (hd body : List Byte) (mx : Option (List Byte)) (acc : List (Nat × List Byte)) : State :=
  let fl := fieldAt hd 24 1
  let rec0 := (body.drop 0xE00).take 512
  let task := taskAt tile rec0
  let (mg, delivered, faults) := s.recordsAt tile k rec0
  let src := bits (BitVec.ofNat 64 (fieldAt hd 4 4)) 3 9
  let sl := s.slot k
  let s1 := s.setSlot k { sl with
    mode := .running, frozen := false, psave := false, halted := none, mgemv := []
    handles := (List.range 64).foldl (fun t r =>
      match handleOfBytes ((body.drop (0x1000 + 64 * r)).take 64) with | .ok v => Tab.set {} r v t | .error _ => t) []
    tack := (List.range 20).foldl (fun t i => Tab.set 0 i (min 16 (fieldAt body (0xC40 + i) 1)) t) []
    fifo := eventsAt hd body (!faults.isEmpty), faults := faults, delivered := delivered
    task := some task, mgPoison := fieldAt rec0 33 8, regs := sl.regs.ofBytes (body.drop 0x40) area }
  let s2 := (List.range 5).foldl (fun s f =>
    s.setStream (5 * k + f) (s.streamAt tile (s.stream (5 * k + f)) ((body.drop (0x100 + 0x240 * f)).take 576) (bitN (fieldAt rec0 32 1) f)
      (fieldAt rec0 (41 + 2 * f) 2))) s1
  let s3 := if src = k then s2 else s2.freeBank k
  let s4 := (s3.loadTiles k mx acc).vacate src k task.id
  let t := s4.tile tile
  let s5 := (s4.setTile tile { t with tcache := t.tcache.filter (fun e => e.key / 64 ≠ k ∨ 2 ^ 20 ≤ e.key) }).dropL1 (k / 4)
  let s6 : State := State.restartMgemv { s5 with held := s5.held.filter (fun x => x.task ≠ task.id) } k mg
  let f := if (s6.slot k).regs.fstrm < 5 then (s6.slot k).regs.fstrm else 0
  let s7 := if bitN fl 0 then s6.enterHandler (placeOfSlot k f) else s6.toRunning k
  let e : Event := { code := 0x11, info2 := BitVec.ofNat 64 (fieldAt hd 16 8), info3 := BitVec.ofNat 64 s.stitch }
  let s8 := ((s7.route tile task.id e).relend tile).deliverNext k
  (List.range 5).foldl (fun s f =>
    if (s.stream (5 * k + f)).push = [] then s else s.once (.pendingTackPush (placeOfSlot k f))) s8

/-- The command RESUME (R375, R384): refused with CMDERR, or the context is loaded and HELD cleared in its header; while
the header's page migrates the command is in progress (R350). -/
def State.resume (s : State) (tile k arg : Nat) : State :=
  let area := arg % 2 ^ 44 * 4096
  let hd := (s.ctxRead tile area 64).getD []
  let fl := fieldAt hd 24 1
  let owners := (if bitN fl 1 then [8] else []) ++ (List.range 8).filter (fun a => bitN (fieldAt hd 25 1) a)
  if !heldHeader hd || s.savingInto tile area || !s.available k || owners.any (fun a => s.holds k ((s.core (k / 4)).ownerOf a)) then s.cmdErr tile
  else match s.readContext tile area hd with
    | none => s.cmdErr tile
    | some (body, mx, acc) =>
      match State.areaWrite tile area [(24, leBytes 1 (fl - 4))] s with
      | (.ok _ _, s1) => s1.loadContext tile k (BitVec.ofNat 64 area) hd body mx acc
      | (.hold, s1) =>
        (s1.setTile tile { s1.tile tile with walker := { (s1.tile tile).walker with
          cmd := some (BitVec.ofNat 64 (4 + k / 4 % 8 * 2 ^ 8 + k % 4 * 2 ^ 11 + arg % 2 ^ 44 * 2 ^ 16)) } }).again (.walkerCommand tile)
      | (.fault _ _, _) => s.cmdErr tile
def execWResume (tile core slot : Nat) (arg : Nat) (s : State) : Out :=
  .next (if tile < 16 then s.resume tile (slotKey tile core slot) arg else s)

/-! ## ENTER and KILL (R368) -/

/-- The command ENTER: step 4 of R362 on a frozen slot. -/
def State.enter (s : State) (tile k : Nat) : State :=
  let sl := s.slot k
  if sl.mode = .trapped ∧ sl.frozen then s.enterHandler (placeOfSlot k (if sl.regs.fstrm < 5 then sl.regs.fstrm else 0)) else s.cmdErr tile
def execWEnter (tile core slot : Nat) (s : State) : Out := .next (if tile < 16 then s.enter tile (slotKey tile core slot) else s)

/-- The command KILL: the frozen slot's task ends with no done increment (R358, R368). -/
def State.kill (s : State) (tile k : Nat) : State :=
  let sl := s.slot k
  if sl.mode = .trapped ∧ sl.frozen then
    ((List.range 5).foldl (fun s f => s.setStream (5 * k + f) { s.stream (5 * k + f) with ended := true, wait := none }) s).dropTask k
  else s.cmdErr tile
def execWKill (tile core slot : Nat) (s : State) : Out := .next (if tile < 16 then s.kill tile (slotKey tile core slot) else s)

end Sys2Proof.Machine
end

