-- ==== Sys2Proof/Machine/Lining.lean ====
section
/-!
DEFINITION. The lining: points, their capture, drain and commit, power failure, the final flush and resume (R44,
R56, R193 to R197, R377 to R384, R466).
-/
namespace Sys2Proof.Machine

/-! ## What a capture holds (R56) -/

/-- A memory with one window's bytes from another. -/
def spliceMem (src : Memory) (m : Memory) (w : Nat) : Memory :=
  m.filter (fun c => decide (c.1 < w)) ++ src.filter (fun c => decide (w ≤ c.1) && decide (c.1 < w + 2 ^ 32)) ++
    m.filter (fun c => decide (w + 2 ^ 32 ≤ c.1))
/-- Poison marks with one window's from another list. -/
def splicePoison (src p : List Nat) (w : Nat) : List Nat :=
  p.filter (fun g => decide (64 * g < w)) ++ src.filter (fun g => decide (w ≤ 64 * g) && decide (64 * g < w + 2 ^ 32)) ++
    p.filter (fun g => decide (w + 2 ^ 32 ≤ 64 * g))
/-- Entries lo to hi − 1 of a table from another. -/
def spliceTab {α : Type} (lo hi : Nat) (src t : Tab α) : Tab α :=
  t.filter (fun e => decide (e.1 < lo)) ++ src ++ t.filter (fun e => decide (hi ≤ e.1))
def rangeTab {α : Type} (lo hi : Nat) (t : Tab α) : Tab α := t.filter (fun e => decide (lo ≤ e.1) && decide (e.1 < hi))

/-- A PFEN.LINING whose point, or a later one, this capture takes is complete in it (R153). -/
def State.pastFence (n : BitVec 32) (s : State) (q : Place) : State :=
  match (s.stream q.streamK).wait with
  | some (.lining m t) =>
    if semPasses n (BitVec.ofNat 32 m) then
      let s1 := if t.w then s.setSlot q.slotK ((s.slot q.slotK).takeTack (wChannel q.stream (s.at q)) 1) else s
      s1.retireAt q 4 t
    else s
  | _ => s

/-- The core-scope lined state at a boundary in front of every instruction that has not completed (R56, R135,
R380). -/
def State.snapCore (s : State) (tile core : Nat) (n : BitVec 32) : CoreSnap :=
  let k := coreKey tile core
  let places := (List.range 4).flatMap (fun j => (List.range 5).map (fun f => (⟨tile, core, j, f⟩ : Place)))
  let s1 := places.foldl (State.pastFence n) s
  let s2 := places.foldl (fun s p => s.setStream p.streamK (s.stream p.streamK).halt) s1
  { core := s2.core k, slots := rangeTab (4 * k) (4 * k + 4) s2.slots, streams := rangeTab (20 * k) (20 * k + 20) s2.streams
    engine := s2.engine (.core tile core), mgemv := (s2.auxOf k).mgemv, mem := s2.mem.within (coreWindows k)
    poison := s2.poison.filter (fun g => inWindows (coreWindows k) (64 * g)), seq := n, stitch := s.stitch }

/-- The tile-scope lined state. -/
def State.snapTile (s : State) (tile : Nat) : TileSnap :=
  let t := s.tile tile
  { sems := t.sems, walker := t.walker, supV := t.supV, supCore := t.supCore, supSlot := t.supSlot, rdrop := t.rdrop, frt := t.frt
    xfm0 := t.xfm0, xfm1 := t.xfm1, copy := t.copy, mem := s.mem.within (tileWindows tile)
    poison := s.poison.filter (fun g => inWindows (tileWindows tile) (64 * g)), stamp := t.captures, stitch := s.stitch }

/-- What the lining holds of a core and a tile in their reset state (R458). -/
def resetCore : CoreSnap :=
  { core := {}, slots := [], streams := [], engine := {}, mgemv := [], mem := [], poison := [], seq := 0, stitch := 0 }
def resetTile : TileSnap :=
  { sems := [], walker := {}, supV := false, supCore := 0, supSlot := 0, rdrop := 0, frt := [], xfm0 := {}, xfm1 := {}, copy := {}, mem := [], poison := [], stamp := 0, stitch := 0 }

/-! ## Points (R44, R380) -/

/-- The pass in a core's array stops at a row boundary (R280). -/
def State.stopPass (s : State) (k : Nat) : State :=
  match (s.core k).matrix.running with
  | some (ps, _) => s.interruptPass ps.slot
  | none => s

/-- LINING_CAPTURE (R380): a requested point, unless one is being drained, which it joins the next of. Before the first
launch after a boot the lining is not written (R458). -/
def State.capture (s : State) (tile core : Nat) : State :=
  let k := coreKey tile core
  if !(s.auxOf k).liningAsked || (s.lining k).drain.isSome || !s.dieOn tile || s.hub.fresh then s
  else
    let s1 := (s.settleCore k).stopPass k
    let snap := s1.snapCore tile core ((s1.core k).lpseq + 1)
    let s2 := s1.setTile tile { s1.tile tile with captures := (s1.tile tile).captures + 1 }
    let sh := s2.snapTile tile
    let s3 := s2.setAux k { s2.auxOf k with liningAsked := false }
    ((s3.setLining k { s3.lining k with drain := some snap, shared := some sh, left := s3.dirtyCore k ++ s3.dirtyTile tile }).nudge tile).later
      (.liningCommit tile core)
def execLiningCapture (tile core : Nat) (s : State) : Out := .next (s.capture tile core)

/-- PERIODIC_LINING_TIMER (R44): PERIOD µs of 2,000 core cycles since it last fired. -/
def State.linePeriod (s : State) (tile core : Nat) : State :=
  let k := coreKey tile core
  let period := (s.core k).lpcfg.toNat % 65536
  if period = 0 ∨ !s.dieOn tile ∨ s.hub.fresh ∨ s.clock < (s.auxOf k).timer + 2000 * period then s
  else ((s.setAux k { s.auxOf k with timer := s.clock }).askLining tile core).2
def execPeriodicLiningTimer (tile core : Nat) (s : State) : Out := .next (s.linePeriod tile core)

/-- What a point's shared-memory record commits: the newer of its capture and what is committed (R378). -/
def TileLining.newest (l : TileLining) (sh : Option TileSnap) : TileSnap :=
  match sh, l.committed with
  | some n, some c => if c.stamp < n.stamp then n else c
  | some n, none => n
  | none, c => c.getD resetTile

/-- LINING_COMMIT (R378, R380): with every block written, the shared-memory record, then the core's; LPSEQ and TSEQ
go up by one. A point asked for meanwhile is captured next. -/
def State.commit (s : State) (tile core : Nat) : State :=
  let k := coreKey tile core
  let l := s.lining k
  match l.drain with
  | none => s
  | some snap =>
    if l.left ≠ [] ∨ !s.dieOn tile then s
    else
      let x := s.tileLining tile
      let tseq := (s.tile tile).tseq + 1
      let s1 := (s.setTileLining tile (x.commit tile tseq (x.newest l.shared))).setLining k
        { l.commit k snap with drain := none, shared := none }
      let s2 := s1.setTile tile { s1.tile tile with tseq := tseq }
      let s3 := s2.setCore k { s2.core k with lpseq := snap.seq }
      if (s3.auxOf k).liningAsked then s3.once (.liningCapture tile core) else s3
def execLiningCommit (tile core : Nat) (s : State) : Out := .next (s.commit tile core)

/-! ## Power failure (R381, R466) -/

/-- POWER_FAIL_DETECT (R381): streams stop at boundaries, accesses under way reach their homes (R195), and one
capture of every core and of the tile is taken, in which a point already running is completed; none before the first
launch after a boot, when the lining stays unchanged (R458). The other ranks of the tile's collectives abort (R315). -/
def State.powerFail (s : State) (tile : Nat) : State :=
  if !s.dieOn tile ∨ 16 ≤ tile then s
  else
    let cores := List.range 8
    let s1 := cores.foldl (fun s c => (s.settleCore (coreKey tile c)).stopPass (coreKey tile c)) s
    let t := s1.tile tile
    let s3 := s1.setTile tile { t with flushing := true, captures := t.captures + 1 }
    let s4 := if s.hub.fresh then s3 else cores.foldl (fun s c =>
      let k := coreKey tile c
      let l := s.lining k
      let n := (s.core k).lpseq + (if l.drain.isSome then 2 else 1)
      (s.setLining k { l with drain := some (s.snapCore tile c n), shared := none, left := [] }).setAux k { s.auxOf k with liningAsked := false }) s3
    let x := s4.tileLining tile
    let s5 := (s4.setTileLining tile { x with drain := if s.hub.fresh then none else some (s4.snapTile tile), flush := none }).once (.finalFlushCommit tile)
    let g := s5.coll tile
    g.ops.foldl (fun s o => s.abortOthers tile o.plan (g.instOf o) 5) s5
def execPowerFailDetect (tile : Nat) (s : State) : Out := .next (s.powerFail tile)

/-- FINAL_FLUSH_COMMIT (R378, R381): every record of the flush becomes current when the tile commit record is good,
else none; the compute die loses power. -/
def State.finalFlush (s : State) (tile : Nat) (good : Bool) : State :=
  let t := s.tile tile
  if !t.flushing then s
  else
    let s1 := (List.range 8).foldl (fun s c =>
      let k := coreKey tile c
      let l := s.lining k
      let l1 := match l.drain with
        | some p => if good then l.commit k p else l
        | none => l
      s.setLining k { l1 with drain := none, shared := none, left := [] }) s
    let l := s1.tileLining tile
    let rec0 (p : TileSnap) : TileRecord :=
      { lpseqs := (List.range 8).map (fun c => (((s.lining (coreKey tile c)).drain).map (·.seq)).getD 0), tseq := t.tseq + 1
        stitch := p.stitch, good := good }
    let l1 := match l.drain with
      | some p => if good then l.commit tile (t.tseq + 1) p else l
      | none => l
    let s2 := s1.setTileLining tile { l1 with drain := none, flush := l.drain.map rec0 }
    s2.setTile tile { s2.tile tile with
      powered := false, flushing := false, offAt := s.clock, tseq := if good && l.drain.isSome then t.tseq + 1 else t.tseq }
def execFinalFlushCommit (tile : Nat) (good : Bool) (s : State) : Out := .next (s.finalFlush tile good)

/-- THERMAL_TRIP (R466): a power-fail detect on every compute die. -/
def execThermalTrip (s : State) : Out :=
  let s1 := (List.range 16).foldl (fun s t => s.powerFail t) s
  .next { s1 with hub := { s1.hub with hot := true } }

/-! ## Resume (R195, R196, R383) -/

/-- A core restored from a commit; its caches are empty (R56). -/
def State.restoreCore (s : State) (tile core : Nat) (p : CoreSnap) : State :=
  let k := coreKey tile core
  let ws := coreWindows k
  let x := s.auxOf k
  let s1 := { s with
    slots := spliceTab (4 * k) (4 * k + 4) p.slots s.slots, streams := spliceTab (20 * k) (20 * k + 20) p.streams s.streams
    mem := ws.foldl (spliceMem p.mem) s.mem, poison := ws.foldl (splicePoison p.poison) s.poison }
  (((s1.setLining k { s1.lining k with work := p.mem }).setCore k { p.core with lpseq := p.seq }).setEngine (.core tile core) p.engine).setAux k
    { x with l1 := [], stores := [], mgemv := p.mgemv.map (fun g => { g with tc := [], rerun := true }), liningAsked := false, timer := s.clock
             cycleBase := x.cycleBase + (s.clock - (s.tile tile).offAt) }
/-- A transform engine whose waiting records evaluate their semaphores afresh (R326). -/
def Xfm.afresh (g : Xfm) : Xfm := { g with queue := g.queue.map (fun o => if o.started then o else { o with passed := !bitN o.wsel 15 }) }
/-- A tile restored from a commit; the staging of its collectives is lost (R56). -/
def State.restoreTile (s : State) (tile : Nat) (p : TileSnap) : State :=
  let ws := tileWindows tile
  let s0 := s.setTileLining tile { s.tileLining tile with work := p.mem }
  let s1 := { s0 with mem := ws.foldl (spliceMem p.mem) s.mem, poison := ws.foldl (splicePoison p.poison) s.poison }
  s1.setTile tile { s1.tile tile with
    sems := p.sems, walker := p.walker, supV := p.supV, supCore := p.supCore, supSlot := p.supSlot, rdrop := p.rdrop, frt := p.frt
    xfm0 := p.xfm0.afresh, xfm1 := p.xfm1.afresh, copy := p.copy, powered := true, flushing := false
    tcache := [], pend := [], busy := false, ranges := [], coll := { (s1.tile tile).coll with fin := [] } }

/-- The transfers of a tile on a circuit end 0x09 (R307, R383). -/
def State.endTransfersOf (tile : Nat) (s : State) (c : Nat) : State :=
  let ci := s.circ c
  let mine := ci.transfers.filter (fun t => decide (t.place.tile = tile))
  if mine.isEmpty then s
  else
    let s1 := (s.setCirc c { ci with transfers := mine }).endTransfers c (fun _ => false)
    let rest := ci.keep (fun t => decide (t.place.tile ≠ tile))
    s1.setCirc c { s1.circ c with transfers := rest.transfers, turn := rest.turn }

/-- The tile's fabric copies end 0x09, whether or not their transfer still stood; its collectives abort with
reason 5. -/
def State.endFabricOf (s : State) (tile : Nat) : State :=
  let s1 := (s.circuits.map (·.1)).foldl (State.endTransfersOf tile) s
  let s2 := ((s1.engine (.tile tile)).ops.filter (·.waiting)).foldl (fun s o => s.endFabric o.pat.circ tile o.id 0x09 o.done) s1
  (s2.coll tile).ops.foldl (fun s o => s.abortColl tile o.ticket 5) s2

/-- A slot for which a PREEMPT had been accepted is PREEMPTED, and its save runs again (R383). -/
def State.preemptAgain (s : State) (k : Nat) (area : Word) : State :=
  let sl := s.slot k
  match sl.task with
  | none => { s with hub := { s.hub with preempts := Tab.erase k s.hub.preempts } }
  | some t =>
    if sl.mode = .free then s
    else
      let x := s.auxOf (k / 4)
      let body := (s.ctxRead (k / 32) sl.regs.ctxbase.toNat 0x1000).getD []
      let (mg, delivered, faults) := s.recordsAt (k / 32) k ((body.drop 0xE00).take 512)
      let sl1 := if sl.psave then { sl with fifo := eventsAt body body (!faults.isEmpty), faults := faults, delivered := delivered, mgemv := mg }
        else { sl with mgemv := sl.mgemv ++ x.mgemv.filter (fun g => g.slot = k) }
      let trapped := match sl.halted with | some x => x.2 | none => decide (sl.mode = .trapped)
      let s0 := { s.setAux (k / 4) { x with mgemv := x.mgemv.filter (fun g => g.slot ≠ k) } with held := s.held.filter (fun h => h.task ≠ t.id) }
      (s0.setSlot k { sl1 with
        mode := .preempted, frozen := false, psave := false, halted := some ((sl.halted.map (·.1)).getD s.stitch, trapped)
        regs := { sl1.regs with ctxbase := area, preq := false } }).once (.contextSaveComplete (k / 32) (k / 4 % 8) (k % 4))

/-- One slot after its core is restored: RESUMED and TORN, cause 0x10, its handler or its streams (R383). -/
def State.resumeSlot (torn : Bool) (s : State) (k : Nat) : State :=
  let sl := s.slot k
  match sl.task with
  | none => s
  | some t =>
    let s1 := s.setRegs k { sl.regs with resumed := true, torn := torn }
    let p := s.lining (k / 4)
    let e : Event := { code := 0x10, info2 := ((s.core (k / 4)).lpseq).setWidth 64
                       info3 := BitVec.ofNat 64 ((p.places.current.map (fun x => x.record.stitch)).getD 0) }
    let s2 := match (s1.hub.preempts.find? (fun (x : Nat × Word) => decide (x.1 = k))) with
      | some x => s1.preemptAgain k x.2
      | none =>
        match sl.mode with
        | .trapped => if sl.frozen then s1 else s1.enterHandler (placeOfSlot k (if sl.regs.fstrm < 5 then sl.regs.fstrm else 0))
        | .running => s1.toRunning k
        | .preempted => if sl.psave then s1 else s1.once (.contextSaveComplete (k / 32) (k / 4 % 8) (k % 4))
        | .free => s1
    let s3 := if torn then s2.route (k / 32) t.id e else s2
    let s4 := (List.range 5).foldl (fun s f =>
      if (s.stream (5 * k + f)).push = [] then s else s.later (.pendingTackPush (placeOfSlot k f))) s3
    s4.deliverNext k

/-- The engines of a tile go on from their lined progress (R56, R195, R295, R326). -/
def State.restartEngines (s : State) (tile : Nat) : State :=
  let engs := Eng.tile tile :: (List.range 8).map (Eng.core tile)
  let s1 := engs.foldl (fun s e => (s.engine e).ops.foldl (fun s o => if o.mayRun then s.later (.copyStart e o.id (2 ^ 64)) else s) s) s
  let s2 := (List.range 8).foldl (fun s c =>
    (s.auxOf (coreKey tile c)).mgemv.foldl (fun s g => s.later (.mgemvComplete tile c g.id)) s) s1
  let t := s2.tile tile
  let run (g : Xfm) : Bool := match g.queue with | o :: _ => o.started | [] => false
  let s3 := if run t.xfm0 then s2.once (.xfmRecordEnd tile 0) else s2
  let s4 := if run t.xfm1 then s3.once (.xfmRecordEnd tile 1) else s3
  s4.nudge tile

/-- LINING_RESUME (R383, R458): the compute die of a tile powers up. Until a launch has cleared the lining it
resumes in its reset state. -/
def State.liningResume (s : State) (tile : Nat) : State :=
  let t := s.tile tile
  if t.powered ∨ 16 ≤ tile ∨ s.hub.hot ∨ s.hub.off ∨ bitN s.hub.fenced tile then s
  else
    let l := s.tileLining tile
    let torn := !(l.flush.map (·.good)).getD false
    let snap (c : Nat) : CoreSnap := if s.hub.fresh then resetCore else (s.lining (coreKey tile c)).committed.getD resetCore
    let s1 := (List.range 8).foldl (fun s c => s.restoreCore tile c (snap c)) s
    let s2 := s1.restoreTile tile (if s.hub.fresh then resetTile else l.committed.getD resetTile)
    let s3 := (s2.setTileLining tile { s2.tileLining tile with flush := none }).endFabricOf tile
    if s.hub.fresh then s3
    else
      let s4 := ((List.range 32).map (fun j => 32 * tile + j)).foldl (State.resumeSlot torn) s3
      (s4.restartEngines tile).relend tile
def execLiningResume (tile : Nat) (s : State) : Out := .next (s.liningResume tile)

/-- THERMAL_RECOVERY (R466): every die is cool, and the compute dies resume. -/
def execThermalRecovery (s : State) : Out :=
  let s1 := { s with hub := { s.hub with hot := false } }
  .next (if s.hub.hot then (List.range 16).foldl (fun s t => s.liningResume t) s1 else s)

/-! ## The lining at a launch and at a loss of the module's power (R197, R458) -/

/-- The lining cleared, and the reset state of every core and tile committed (R458). -/
def State.clearLining (s : State) : State :=
  { s with
    linings := (List.range 128).map (fun k => (k, { ({} : Lining).commit k resetCore with work := s.mem.within (coreWindows k) }))
    tileLinings := (List.range 16).map (fun t => (t, { ({} : TileLining).commit t 0 resetTile with work := s.mem.within (tileWindows t) }))
    hub := { s.hub with window := false, fresh := false } }

/-- What the lining keeps without power: its commits. -/
def State.keptLinings (s : State) : Tab Lining :=
  (s.linings.map (fun (e : Nat × Lining) => (e.1, { places := e.2.places : Lining }))).filter (fun e => decide (e.2 ≠ {}))
def State.keptTileLinings (s : State) : Tab TileLining :=
  (s.tileLinings.map (fun (e : Nat × TileLining) => (e.1, { places := e.2.places : TileLining }))).filter (fun e => decide (e.2 ≠ {}))

/-- Sizes of the lined memories of a core in 4 KiB blocks, in the order of `coreWindows` (R28). -/
def windowBlocks : List Nat := [256, 2048, 1024, 48, 48]
/-- The address of block `b` of a core's lined memories; none past them. -/
def lineBlock : List Nat → List Nat → Nat → Option Nat
  | w :: ws, n :: ns, b => if b < n then some (w + 4096 * b) else lineBlock ws ns (b - n)
  | _, _, _ => none
/-- Byte `off` of a core's post-mortem window (R458): a committed block in the order of the block map, which no rule
gives. -/
def State.windowByte (s : State) (k off : Nat) : Byte :=
  match (s.lining k).committed with
  | none => 0
  | some p =>
    if !s.hub.window then 0
    else
      let b := Config.blockAt k (off / 4096)
      match lineBlock (coreWindows k) windowBlocks b with
      | some a => p.mem.readByte (a + off % 4096)
      | none => Config.packedByte k b (off % 4096)

end Sys2Proof.Machine
end

