-- ==== Sys2Proof/Machine/Optics.lean ====
section
/-!
DEFINITION. Ports, sources, training, and the making of circuits (R385, R390 to R397, R402 to R410, R417 to
R420, R424, R425, R467 to R472).
-/
namespace Sys2Proof.Machine

/-! ## Endpoints and sources -/

def State.ep (s : State) (e : Nat) : Endpoint := Tab.get {} e s.eps
def State.setEp (s : State) (e : Nat) (v : Endpoint) : State := { s with eps := Tab.set {} e v s.eps }
def State.laser (s : State) (j : Nat) : Laser := Tab.get {} j s.lasers
def State.setLaser (s : State) (j : Nat) (v : Laser) : State := { s with lasers := Tab.set {} j v s.lasers }
def State.link (s : State) (m : Nat) : Link := Tab.get {} m s.links
def State.setLink (s : State) (m : Nat) (v : Link) : State := { s with links := Tab.set {} m v s.links }

/-- First external endpoint (R385), and one past the last endpoint. -/
def extBase : Nat := 768
def epEnd : Nat := 1344

/-- The source feeding an endpoint (R390, R391). -/
def State.epSrc (s : State) (e : Nat) : Nat := (s.ep e).src.getD (e / 28)
/-- The endpoints a source feeds. -/
def State.fedBy (s : State) (j : Nat) : List Nat :=
  let own := if j < 48 then (List.range 28).map (fun k => 28 * j + k) else (s.eps.filter (fun e => decide (e.2.src = some j))).map (·.1)
  own.filter (fun e => decide (s.epSrc e = j))
/-- The spare of a source's group (R390). -/
def spareOf (j : Nat) : Nat := if j < 48 then 48 + j / 12 else j

/-- Data wavelengths in service, one of them through λ8 (R391). -/
def Endpoint.lanes (p : Endpoint) (up : Nat → Bool) : Bool :=
  (List.range 8).all (fun w => up w || (p.sv && decide (p.spare = w) && up 8))
/-- A port that can lock: READY, every data wavelength in service, its source lit (R403). -/
def State.portGood (s : State) (e : Nat) : Bool :=
  let p := s.ep e
  !p.svc && decide (p.state = 2) && p.lanes (fun w => !bitN p.failwl w) && decide ((s.laser (s.epSrc e)).state = 1)

/-- The tile whose table routes an event of an endpoint (log 23). -/
def epTile (e : Nat) : Nat := if e < extBase then e / 48 else 0

/-- An optical event (R424). -/
def opticalEvent (code : Nat) (c : Option Nat) (i2 i3 : Nat) : Event :=
  { code := code, info1 := tinfo1 (match c with | some c => 256 + c | none => 0) 0 false false 0
    info2 := BitVec.ofNat 64 i2, info3 := BitVec.ofNat 64 i3 }
/-- TINFO2 of a lost or mapped wavelength. -/
def laneInfo (e wl : Nat) (rx : Bool) : Nat := e + wl * 2 ^ 16 + (if rx then 2 ^ 20 else 0)

/-! ## The training cache (R405 to R408) -/

/-- The cache entries a port pair needs: endpoint and key. -/
def State.pairKeys (s : State) (near far : Nat) : List (Nat × Nat) :=
  if extBase ≤ near then [(near, (s.ep near).peerep)]
  else (near, far) :: (if extBase ≤ far then [(far, (s.ep far).peerep)] else [])
def State.pairCached (s : State) (near far : Nat) : Bool :=
  (s.pairKeys near far).all (fun k => (s.ep k.1).cache.contains k.2)
/-- An entry filled or used: it is the most recent of at most 8. -/
def Endpoint.touch (p : Endpoint) (key : Nat) : Endpoint := { p with cache := (key :: p.cache.filter (· ≠ key)).take 8 }
def State.pairTouch (s : State) (near far : Nat) : State :=
  (s.pairKeys near far).foldl (fun s k => s.setEp k.1 ((s.ep k.1).touch k.2)) s
/-- The entries of a pair that are there are the most recent ones: a use fills none (R405). -/
def State.pairUse (s : State) (near far : Nat) : State :=
  (s.pairKeys near far).foldl (fun s k => if (s.ep k.1).cache.contains k.2 then s.setEp k.1 ((s.ep k.1).touch k.2) else s) s

/-- Cache entries of this module's tile ports that an endpoint keys are invalid, and its own (R406). -/
def State.clearEntries (s : State) (e : Nat) : State :=
  (s.eps.map (fun x => x.1)).foldl (fun s k =>
    if k = e then s.setEp k { s.ep k with cache := [] }
    else if k < extBase then s.setEp k { s.ep k with cache := (s.ep k).cache.filter (· ≠ e) } else s) s

/-- A command runs on a port: of PBCMD, or of background training, which uses the same (R469). -/
def Endpoint.busy (p : Endpoint) : Bool := p.cmd.isSome || !p.training.isEmpty
/-- The wavelengths in service: λ0 to λ7 and, under WLMAP, λ8. -/
def Endpoint.inService (p : Endpoint) : Nat := ((255#9 &&& ~~~ BitVec.ofNat 9 p.failwl) ||| (if p.sv then 256#9 else 0#9)).toNat
/-- A port whose wavelengths in service hold lock and are trained is READY (R468, R469). -/
def Endpoint.up (p : Endpoint) : Endpoint :=
  { p with state := 2, locked := Nat.lor p.locked p.inService, trained := Nat.lor p.trained p.inService }

/-- The wavelengths of `a` that are not in `b`. -/
def without (a b : Nat) : Nat := (BitVec.ofNat 9 a &&& ~~~ BitVec.ofNat 9 b).toNat

/-- The event of a pair's training (R424). -/
def State.sayTraining (s : State) (near far : Nat) (c : Option Nat) (stage : Nat) : State :=
  s.raiseAt (epTile near) (opticalEvent 0x2B c (near + far * 2 ^ 16) stage)

/-- Background training of a pair starts, or waits behind what the port runs (R407). A make that misses a pair whose
training waits or runs already raises 0x2B too, with the stage it has reached (R403). -/
def State.train (s : State) (near far : Nat) (prep : Bool) (c : Option Nat) : State :=
  let p := s.ep near
  match p.training.find? (fun t => decide (t.1 = far)) with
  | some t => if prep then s else s.sayTraining near far c (if t.2.1 then 1 else 0)
  | none =>
    let s1 := s.setEp near { p with training := p.training ++ [(far, false, prep)] }
    let s2 := if prep && p.busy then s1 else s1.sayTraining near far c 0
    if p.busy then s2 else s2.once (.fastBringupEnd near far)

/-- The next training of a port starts, once what it ran has ended. -/
def State.trainNext (s : State) (e : Nat) : State :=
  if (s.ep e).cmd.isSome then s
  else match (s.ep e).training with
    | (far, _, _) :: _ => (if far = e ∨ 2048 ≤ far then s else s.sayTraining e far none 0).once (.fastBringupEnd e far)
    | [] => s
/-- A MAKE abandons every training of a PREP that one of its ports takes part in (R408). -/
def State.abandon (s : State) (ports : List Nat) : State :=
  let drop (x : Nat × Endpoint) (t : Nat × Bool × Bool) : Bool := t.2.2 && (ports.contains x.1 || ports.contains t.1)
  (s.eps.filter (fun x => x.2.training.any (drop x))).foldl (fun s (x : Nat × Endpoint) =>
    let l := (s.ep x.1).training
    let s1 := s.setEp x.1 { s.ep x.1 with training := l.filter (fun t => !drop x t) }
    if (l.take 1).any (drop x) then s1.trainNext x.1 else s1) s
/-- A port has been mapped anew: the trainings of the pairs it is the far end of begin again (R425). -/
def State.restartFar (s : State) (e : Nat) : State :=
  (s.eps.filter (fun x => decide (x.1 ≠ e) && x.2.training.any (fun t => decide (t.1 = e)))).foldl (fun s (x : Nat × Endpoint) =>
    let l := (s.ep x.1).training
    let s1 := s.setEp x.1 { s.ep x.1 with training := l.map (fun t => if t.1 = e then (t.1, false, t.2.2) else t) }
    if (l.take 1).any (fun t => decide (t.1 = e)) then s1.trainNext x.1 else s1) s

/-- The endpoints brought up for a source, all READY again (R396); a take-over by REPL raises nothing (R467). -/
def State.sourceBack (s : State) (j : Nat) : State :=
  if s.eps.any (fun e => e.2.training.any (fun t => decide (t.1 = 2048 + j))) then s
  else if (s.laser ((s.laser j).subst.getD 64)).byRepl then s
  else s.raiseAt 0 (opticalEvent 0x22 none j 1)

/-- A training of an endpoint ends well: its entry is filled and the port is READY. -/
def State.trained (s : State) (near far : Nat) : State :=
  let p := s.ep near
  let s1 := s.setEp near { p.up with training := p.training.drop 1 }
  if far = near then s1.raiseAt (epTile near) (opticalEvent 0x22 none (laneInfo near p.spare p.lostRx) 0)
  else if 2048 ≤ far then s1.sourceBack (far - 2048)
  else
    let s2 := (s1.pairTouch near far)
    let s3 := if extBase ≤ far ∧ (s2.ep far).state ≠ 3 then s2.setEp far (s2.ep far).up else s2
    s3.sayTraining near far none 2

/-- A far endpoint named in an event, for TINFO2. -/
def eventPair (near far : Nat) : Nat := near + (if far < 2048 then far else 0) * 2 ^ 16

/-- FAST_BRINGUP_END (R407): of PBCMD FAST, or of the training in progress. Failure starts full training, a LOCK and a TRAIN
(R469), which invalidates the port's entries (R406). -/
def State.fastEnd (s : State) (near far : Nat) (ok : Bool) : State :=
  let p := s.ep near
  match p.cmd with
  | some (3, wlm, farep) =>
    if farep ≠ far then s
    else
      let key := if extBase ≤ near then p.peerep else farep
      (s.setEp near (if ok then
          { p.touch key with cmd := none, fail := false, state := 2, locked := Nat.lor p.locked wlm, trained := Nat.lor p.trained wlm }
        else { p with cmd := none, fail := true })).trainNext near
  | some _ => s
  | none =>
    match p.training with
    | (f, false, prep) :: r =>
      if f ≠ far then s
      else if ok then (s.trained near far).trainNext near
      else
        ((s.setEp near { p with training := (far, true, prep) :: r, cache := [], state := 1 }).raiseAt (epTile near)
          (opticalEvent 0x2B none (eventPair near far) 1)).once (.fullTrainingEnd near far)
    | _ => s
/-- FULL_TRAINING_END (R407); a port that ends DOWN holds up neither its source's return (R396) nor the service circuit
(R420). -/
def State.fullEnd (s : State) (near far : Nat) (ok : Bool) : State :=
  let p := s.ep near
  match p.training with
  | (f, true, _) :: r =>
    if f ≠ far then s
    else if ok then (s.trained near far).trainNext near
    else
      let s1 := ((s.setEp near { p with state := 3, training := r }).raiseAt (epTile near)
        (opticalEvent 0x2B none (eventPair near far) 3)).trainNext near
      let s2 := if 2048 ≤ far then s1.sourceBack (far - 2048) else s1
      if p.svc then s2.once (.remakeService p.peermod) else s2
  | _ => s
def execFastBringupEnd (near far : Nat) (ok : Bool) (s : State) : Out := .next (s.fastEnd near far ok)
def execFullTrainingEnd (near far : Nat) (ok : Bool) (s : State) : Out := .next (s.fullEnd near far ok)

/-! ## Routes (R400, R409) -/

def MakeWord.width (w : MakeWord) : Nat := w.width1.toNat + 1
/-- The route of a word. -/
def State.routeOf (s : State) (route : Nat) : Route := s.seq.routes.getD route { kind := 0, peer := 0, near := [], far := [] }
/-- The port pairs of bonded port `i`: one, or one a leaf. -/
def Route.pairs (r : Route) (leaves i : Nat) : List (Nat × Nat) :=
  let n := r.near.getD i 0
  if r.kind = 3 then (List.range leaves).map (fun l => (n, r.far.getD l 0 + i)) else [(n, r.far.getD i 0)]
/-- Its endpoints. -/
def Route.ports (r : Route) (leaves i : Nat) : List Nat := r.near.getD i 0 :: (r.pairs leaves i).map (·.2)
def State.leafCount (s : State) (w : MakeWord) (tree : Bool) : Nat := if tree then (s.seq.leaves.getD (leafOf w) []).length else 1
/-- Bonded ports of a circuit's word: WIDTH, at most NPORT. -/
def State.bonded (s : State) (w : MakeWord) : Nat := min (w.width1.toNat + 1) (s.routeOf w.route.toNat).near.length

/-- A bonded port leaves its circuit (R394): its endpoints are free; a LIVE circuit below MINW fails at the next
stitch boundary. -/
def State.leavePort (s : State) (e cause : Nat) : State :=
  match (s.ep e).circ with
  | none => s
  | some c =>
    let ci := s.circ c
    match ci.word with
    | none => s.setEp e ((s.ep e).dark s.beat)
    | some w =>
      let r := s.routeOf w.route.toNat
      let n := s.leafCount w ci.tree
      let gone := ci.ports.filter (fun i => (r.ports n i).contains e)
      let left := ci.ports.filter (fun i => !(r.ports n i).contains e)
      let s1 := (e :: gone.flatMap (r.ports n)).foldl (fun s x =>
        if (s.ep x).circ = some c then s.setEp x ((s.ep x).dark s.beat) else s) s
      s1.setCirc c { ci with
        ports := left
        failing := if ci.state = .live ∧ left.length < ci.minw ∧ ci.failing.isNone then some cause else ci.failing }

/-! ## Making (R402 to R404, R407 to R410, R417) -/

/-- A measurement of a peer starts when it has no trust entry (R417); the event of a make it holds back. -/
def State.untrusted (s : State) (c peer : Nat) : State :=
  let l := s.link peer
  let s1 := if l.trust = 0 then s.setLink peer { l with trust := 2 } else s
  s1.raiseAt (s.circ c).owner (opticalEvent 0x2D (some c) peer (if l.trust = 3 then 1 else 0))

/-- The peers a word's circuit reaches. -/
def State.peersOf (s : State) (w : MakeWord) (tree : Bool) : List Nat :=
  let r := s.routeOf w.route.toNat
  if tree then ((s.seq.leaves.getD (leafOf w) []).map (·.2)).filter (fun m => m ≠ s.module)
  else if r.kind = 1 ∨ r.kind = 2 then [r.peer] else []

/-- MAKE and TREE at their stitch (R320, R402, R403): the handle is MAKING, and orders 1 to 4 are examined. A service port
is held by its service circuit (R385); a DOWN port counts as not kept, not as missing from the cache (R395). -/
def State.make (s : State) (w : MakeWord) (tree : Bool) : State :=
  let c := w.circuit.toNat
  let old := s.circ c
  if old.state = .making ∨ old.state = .live ∨ old.state = .breaking then
    s.report .thimble (opticalEvent 0x30 (some c) 0 0) 16 0
  else
    let r := s.routeOf w.route.toNat
    let idx := List.range (s.bonded w)
    let n := s.leafCount w tree
    let ports := idx.flatMap (r.ports n)
    let pairs := idx.flatMap (r.pairs n)
    let held := ports.any (fun e => (s.ep e).svc || (match (s.ep e).circ with | some d => decide (d ≠ c) | none => false))
    let noSlot := tree && decide (32 ≤ (s.circuits.filter (fun x => x.2.slot && decide (x.1 ≠ c))).length)
    let bad := (s.peersOf w tree).filter (fun m => decide ((s.link m).trust ≠ 1))
    let s0 := s.abandon ports
    let miss := pairs.filter (fun p => !s0.pairCached p.1 p.2 && decide ((s0.ep p.1).state ≠ 3) && decide ((s0.ep p.2).state ≠ 3))
    let found := if held then 0x30 else if noSlot then 0x25 else if bad ≠ [] then 0x2D else if miss ≠ [] then 0x2B else 0
    let waiting := (old.queue.map (fun q => q.2.seq)).dedup.length
    let s1 := s0.setCirc c { old with
      state := .making, word := some w, tree := tree, ports := idx, since := s.stitch, phase := s.phaseNo, found := found
      obs := none, minw := w.minw1.toNat + 1, failing := none, slot := tree && !noSlot, credits := 16 - waiting
      transfers := [], turn := 0 }
    let s2 := if held then s1 else ports.foldl (fun s e => s.setEp e { s.ep e with circ := some c }) s1
    let s3 := if held || noSlot then s2 else bad.foldl (fun s m => s.untrusted c m) s2
    if found = 0x2B then miss.foldl (fun s p => s.train p.1 p.2 false (some c)) s3
    else if found = 0 then pairs.foldl (fun s p => s.pairUse p.1 p.2) s3 else s3

/-- SPLIT(n) of R410, in hundredths of a dB. -/
def split (n : Nat) : Nat := [0, 0, 341, 557, 682, 819, 898, 965, 1023].getD n 1023
/-- The shortfall of a leaf, 0 when it passes (R410). -/
def shortfall (n loss : Nat) : Nat := split n + loss - 1400

/-- The failed make's event (R403): 0x2B and 0x2D have been raised at the make, 0x09 raises none. -/
def State.failMake (s : State) (c cause : Nat) (e : Option Event) : State :=
  let own := (s.circ c).owner
  let s1 := s.failCircuit c cause
  match e with
  | some e => s1.raiseAt own e
  | none => s1

/-- CIRCUIT_MAKE_RESOLVE at s + 8 (R402 to R404, R410). Without a measurement every port locks with no skew and
no loss, and no far module answers; of a tree's far modules the measurement holds the ports all of them keep and their
greatest MINW. -/
def State.resolveMake (s : State) (c : Nat) : State :=
  let ci := s.circ c
  match ci.word with
  | none => s
  | some w =>
    let o := ci.obs.getD { nolock := 0, skew := [], far := none, loss := [] }
    let r := s.routeOf w.route.toNat
    let n := s.leafCount w ci.tree
    let idx := List.range (s.bonded w)
    let away := s.circFar ci
    let there (i : Nat) : Bool := if away then (match o.far with | some (m, _) => bitN m i | none => false) else true
    let locks (i : Nat) : Bool := ci.ports.contains i && !bitN o.nolock i &&
      (r.ports n i).all (fun e => s.portGood e && decide ((s.ep e).circ = some c))
    let locked := idx.filter locks
    let lo := (locked.map (fun i => o.skew.getD i 0)).foldl min ((locked.map (fun i => o.skew.getD i 0)).headD 0)
    let late (i : Nat) : Nat := o.skew.getD i 0 - lo
    let kept := locked.filter (fun i => decide (late i ≤ 40000) && there i)
    let worst := (locked.map late).foldl max 0
    let minw := max ci.minw (match o.far with | some (_, m) => if away then m else 0 | none => 0)
    let mask := (idx.filter (fun i => !kept.contains i)).foldl (fun m i => m + 2 ^ i) 0
    let skewInfo := if locked.length < idx.length then 2 ^ 64 - 1 else worst
    let dark := if ci.tree then (List.range n).find? (fun l => decide (shortfall n (o.loss.getD l 0) ≠ 0)) else none
    let slotEvent := opticalEvent 0x25 (some c) (2 ^ 15) 0
    if ci.found = 0x30 then s.failMake c 0x30 (some (opticalEvent 0x30 (some c) 0 0))
    else if ci.found = 0x25 then s.failMake c 0x25 (some slotEvent)
    else if ci.found ≠ 0 then s.failMake c ci.found none
    else if (locked.filter there) = [] then s.failMake c 0x09 none
    else if kept.length < minw then s.failMake c 0x24 (some (opticalEvent 0x24 (some c) mask skewInfo))
    else match dark with
      | some l => s.failMake c 0x25 (some (opticalEvent 0x25 (some c) l (shortfall n (o.loss.getD l 0))))
      | none =>
        let drop := (idx.filter (fun i => !kept.contains i)).flatMap (r.ports n)
        let s1 := drop.foldl (fun s e => if (s.ep e).circ = some c ∧ !(kept.flatMap (r.ports n)).contains e then s.setEp e ((s.ep e).dark s.beat) else s) s
        let s1 := (kept.flatMap (r.ports n)).foldl (fun s e => s.setEp e ((s.ep e).light s.beat)) s1
        let s2 := s1.setCirc c { ci with state := .live, ports := kept, minw := minw, obs := none }
        if mask ≠ 0 then s2.raiseAt ci.owner (opticalEvent 0x24 (some c) mask skewInfo) else s2

/-- CIRCUIT_MAKE_RESOLVE: what the receivers measure is kept for s + 8; at s + 8 the make resolves. -/
def State.makeObserved (s : State) (c : Nat) (obs : MakeObs) : State :=
  let ci := s.circ c
  if ci.state = .making then
    let s1 := s.setCirc c { ci with obs := some obs }
    if ci.since + 8 ≤ s.stitch then s1.resolveMake c else s1
  else s
def execCircuitMakeResolve (c : Nat) (obs : MakeObs) (s : State) : Out := .next (s.makeObserved c obs)
/-- CIRCUIT_BREAK_COMPLETE at s + 2 (R320). -/
def State.breakComplete (s : State) (c : Nat) : State :=
  if (s.circ c).state = .breaking ∧ (s.circ c).since + 2 ≤ s.stitch then s.breakDone c else s
def execCircuitBreakComplete (c : Nat) (s : State) : Out := .next (s.breakComplete c)

/-- PREP (R408); no program uses a service port (R385). -/
def State.prep (s : State) (route : Nat) : State :=
  let r := s.routeOf route
  let pairs := (List.range r.near.length).flatMap (r.pairs r.far.length)
  pairs.foldl (fun s p =>
    if (s.ep p.1).circ.isSome || (s.ep p.2).circ.isSome || (s.ep p.1).svc || (s.ep p.2).svc then s
    else if s.pairCached p.1 p.2 then s.pairUse p.1 p.2
    else s.train p.1 p.2 true none) s

/-! ## Losses (R393 to R397) -/

/-- LOSS_OF_LOCK (R393, R395): the wavelength is out of service, the port leaves its circuit, 0x21; a mapping
follows when the sequencer gets the event, or the port is DOWN. -/
def State.loseLock (s : State) (e wl : Nat) (rx : Bool) : State :=
  if 8 < wl ∨ epEnd ≤ e then s
  else
    let c := (s.ep e).circ
    let p := s.ep e
    let s0 := (s.setEp e { p with
      failwl := Nat.lor p.failwl (2 ^ wl), locked := without p.locked (2 ^ wl), lostRx := rx }).leavePort e 0x21
    let s1 := if p.svc then s0.once (.remakeService p.peermod) else s0
    let s2 := s1.raiseAt (epTile e) (opticalEvent 0x21 c (laneInfo e wl rx) 0)
    if s2.frtDest (epTile e) 0x21 = 4 then
      if p.sv then
        (s2.setEp e { s2.ep e with state := 3 }).raiseAt (epTile e) (opticalEvent 0x23 none (laneInfo e wl rx) 0)
      else if wl < 8 then s2.once (.spareWavelengthMapping e wl) else s2
    else s2
def execLossOfLock (ep wl : Nat) (rx : Bool) (s : State) : Out := .next (s.loseLock ep wl rx)

/-- SPARE_WAVELENGTH_MAPPING (R395): λ8 takes the lost wavelength, the port's entries are invalid, and fast
bring-up of the lane runs before any other training of the port (R425). On an external port the loss may be the peer's:
this end's mapping follows at the stitch they agree, the row's own, and the port leaves its circuit here too (R393). Unless
0x21 goes to SEQ nothing is mapped (R397). A command that runs ends, as a write to WLMAP ends it (R469). -/
def State.mapSpare (s : State) (e wl : Nat) : State :=
  if (s.ep e).sv || !decide (wl < 8) || (!bitN (s.ep e).failwl wl && decide (e < extBase)) || decide (s.frtDest (epTile e) 0x21 ≠ 4) then s
  else
    let s := (s.leavePort e 0x21).clearEntries e
    let p := s.ep e
    ((s.setEp e { p with
      sv := true, spare := wl, cache := [], state := 1, cmd := none, fail := p.fail || p.busy
      training := (e, false, false) :: p.training.map (fun t => (t.1, false, t.2.2)) }).once (.fastBringupEnd e e)).restartFar e
def execSpareWavelengthMapping (ep wl : Nat) (s : State) : Out := .next (s.mapSpare ep wl)

/-- SPARE_SOURCE_SWITCH (R396): the spare feeds the source's endpoints, whose entries are invalid, and each is
brought up again. -/
def State.switchSource (s : State) (j spare : Nat) (byRepl : Bool) : State :=
  let l := s.fedBy j
  let s0 := s.setLaser spare { s.laser spare with state := 1, subst := some j, promised := none, byRepl := byRepl }
  let s1 := s0.setLaser j { s0.laser j with subst := some spare }
  l.foldl (fun s e =>
    let s := s.clearEntries e
    let p := s.ep e
    ((s.setEp e { p with
      src := some spare, cache := [], state := 1, cmd := none, fail := p.fail || p.busy
      training := (2048 + j, false, false) :: p.training.map (fun t => (t.1, false, t.2.2)) }).once (.fastBringupEnd e (2048 + j))).restartFar e) s1
/-- The sequencer switches only when 0x20 goes to it (R397). -/
def State.spareSwitch (s : State) (j : Nat) : State :=
  if j < 48 ∧ (s.laser j).state = 2 ∧ (s.laser (spareOf j)).state = 3 ∧ s.frtDest 0 0x20 = 4 then s.switchSource j (spareOf j) false else s
/-- A peer has switched a source of its own: the external ports here at the other ends of its endpoints leave their circuits,
and their entries are invalid (R396, R406). -/
def State.peerSwitch (s : State) (peer j : Nat) : State :=
  ((s.eps.filter (fun e => decide (extBase ≤ e.1) && decide (e.2.peermod = peer) && decide (e.2.peerep / 28 = j))).map (·.1)).foldl
    (fun s e => (s.leavePort e 0x20).clearEntries e) s
def execSpareSourceSwitch (site : SwitchSite) (s : State) : Out :=
  .next (match site with | .here j => s.spareSwitch j | .peer m j => s.peerSwitch m j)

/-- SOURCE_FAILURE (R396): a spare that is in use, or has been told to take another source, takes none. -/
def State.failSource (s : State) (j : Nat) : State :=
  if 52 ≤ j then s
  else
    let l := s.fedBy j
    let s0 := l.foldl (fun s e => s.leavePort e 0x20) (s.setLaser j { s.laser j with state := 2, power := 0, promised := none })
    let s1 := (l.filter (fun e => (s.ep e).svc)).foldl (fun s e => s.once (.remakeService (s.ep e).peermod)) s0
    let seq := decide (s1.frtDest 0 0x20 = 4)
    let spare := spareOf j
    let ready := decide ((s1.laser spare).state = 3) && (s1.laser spare).promised.isNone
    let take := seq && decide (j < 48) && ready
    let s2 := s1.raiseAt 0 (opticalEvent 0x20 none j (if take then spare + 256 else 0))
    if take then (s2.setLaser spare { s2.laser spare with promised := some j }).once (.spareSourceSwitch j)
    else if seq && (decide (48 ≤ j) || decide ((s1.laser spare).state = 1) || (s1.laser spare).promised.isSome) then
      (l.foldl (fun s e => s.setEp e { s.ep e with state := 3 }) s2).raiseAt 0 (opticalEvent 0x23 none j 1)
    else s2
def execSourceFailure (src : Nat) (s : State) : Out := .next (s.failSource src)

/-! ## Port controls (R391, R467 to R469) -/

/-- A write to WLMAP (R391, R406, R469): a command that runs ends, and trainings begin again after the mapping (R425). -/
def State.writeWlmap (s : State) (e : Nat) (v : Word) : State :=
  let s1 := s.leavePort e 0x21
  let p := s1.ep e
  (((s1.setEp e { p with
    sv := v.getLsbD 4, spare := bits v 0 3, cmd := none, fail := p.fail || p.busy
    training := p.training.map (fun t => (t.1, false, t.2.2)) }).clearEntries e).trainNext e).restartFar e
def execWlmapWrite (ep : Nat) (v : Word) (s : State) : Out := .next (if ep < epEnd then s.writeWlmap ep v else s)

/-- A spare's REPL names a data source of its group, or none (R467). -/
def replOk (j repl : Nat) : Bool := decide (repl = 63) || (decide (48 ≤ j) && decide (repl / 12 = j - 48))

/-- A spare that is lit and has a source to replace takes over its endpoints (R467). -/
def State.spareTakes (s : State) (j : Nat) : State :=
  let l := s.laser j
  if 48 ≤ j ∧ l.en ∧ l.repl ≠ 63 ∧ (l.state = 3 ∨ l.state = 1) ∧ l.subst = none then s.switchSource l.repl j true else s

/-- A write to LASERCTL (R467). A service port that goes dark has its circuit made again (R420). A spare takes the place of one source (R390): a second REPL is ignored and logged. -/
def State.writeLaserctl (s : State) (j : Nat) (v : Word) : State :=
  let l := s.laser j
  let repl := bits v 10 6
  let en := v.getLsbD 16
  let ok := replOk j repl && (l.subst.isNone || decide (repl = 63) || decide (l.subst = some repl))
  let l1 := { l with en := en, pset := bits v 0 8, repl := if 48 ≤ j ∧ ok then repl else l.repl }
  let s0 := if 48 ≤ j ∧ !ok then { s with hub := { s.hub with log := (0, BitVec.ofNat 64 (0x420000 + 8 * j)) :: s.hub.log } } else s
  if l.en && !en then
    (s0.fedBy j).foldl (fun s e =>
      let s1 := s.leavePort e 0x20
      if (s1.ep e).svc then s1.once (.remakeService (s1.ep e).peermod) else s1) (s0.setLaser j { l1 with state := 0, power := 0 })
  else if !l.en && en then (s0.setLaser j l1).once (.laserLockEnd j)
  else (s0.setLaser j l1).spareTakes j
def execLaserctlWrite (src : Nat) (v : Word) (s : State) : Out := .next (if src < 52 then s.writeLaserctl src v else s)

/-- LASER_LOCK_END (R467); a spare that feeds a source's endpoints is LOCKED, one that feeds none stands by. -/
def State.laserLocked (s : State) (j : Nat) (ok : Bool) : State :=
  let l := s.laser j
  if !l.en || decide (l.state = 1) || decide (l.state = 3) then s
  else if !ok then s.setLaser j { l with state := 2 }
  else if j < 48 then s.setLaser j { l with state := 1, power := l.pset }
  else (s.setLaser j { l with state := if l.subst.isSome then 1 else 3, power := l.pset }).spareTakes j
def execLaserLockEnd (src : Nat) (ok : Bool) (s : State) : Out := .next (s.laserLocked src ok)

/-- LASER_POWER_CONTROL (R472): a step of 0.1 dB towards the target. -/
def execLaserPowerControl (src : Nat) (s : State) : Out :=
  let l := s.laser src
  .next (if l.en && (decide (l.state = 1) || decide (l.state = 3)) && (List.range 16).all (fun t => s.dieOn t || bitN s.hub.fenced t) then
    s.setLaser src { l with power := if l.power < l.pset then l.power + 1 else if l.pset < l.power then l.power - 1 else l.power }
  else s)
/-- RING_THERMAL_LOCK (R472): rings of READY ports follow temperature; nothing a program sees changes. -/
def execRingThermalLock (_ep : Nat) (s : State) : Out := .next s

/-- A PBCMD command: refused with ERR, or begun (R469). -/
def State.pbBegin (s : State) (e op wlm farep : Nat) (k : Endpoint → State) : State :=
  let p := s.ep e
  let far := decide (op = 2 ∨ op = 3) && decide (e < extBase) && (decide (extBase ≤ farep) || (s.ep farep).circ.isSome)
  if epEnd ≤ e then s
  else if (decide (op ≠ 4) && p.busy) || p.circ.isSome || p.svc || far then s.setEp e { p with err := true }
  else k { p with cmd := if op = 4 then none else some (op, wlm % 512, farep), fail := if op = 4 then p.fail else false }
def State.pbLock (s : State) (e wlm : Nat) : State :=
  s.pbBegin e 1 wlm 0 (fun p => (s.setEp e { p with state := 1 }).once (.lockEnd e))
def State.pbTrain (s : State) (e wlm farep : Nat) : State :=
  s.pbBegin e 2 wlm farep (fun p => (s.setEp e p).once (.trainEnd e))
def State.pbFast (s : State) (e wlm farep : Nat) : State :=
  s.pbBegin e 3 wlm farep (fun p => (s.setEp e p).once (.fastBringupEnd e farep))
def State.pbAbort (s : State) (e : Nat) : State :=
  s.pbBegin e 4 0 0 (fun p => s.setEp e { p with locked := 0, trained := 0, state := 0, training := [] })
def execPbLock (ep wlm : Nat) (s : State) : Out := .next (s.pbLock ep wlm)
def execPbTrain (ep wlm farep : Nat) (s : State) : Out := .next (s.pbTrain ep wlm farep)
def execPbFast (ep wlm farep : Nat) (s : State) : Out := .next (s.pbFast ep wlm farep)
def execPbAbort (ep : Nat) (s : State) : Out := .next (s.pbAbort ep)

/-- LOCK_END (R469): `failed` are the wavelengths whose rings do not lock. -/
def State.lockEnd (s : State) (e failed : Nat) : State :=
  let p := s.ep e
  match p.cmd with
  | some (1, wlm, _) =>
    let bad := Nat.land wlm (failed % 512)
    (s.setEp e { p with cmd := none, locked := Nat.lor (without p.locked wlm) (without wlm failed), failwl := Nat.lor p.failwl bad
                        fail := decide (bad ≠ 0) }).trainNext e
  | _ => s
def execLockEnd (ep failed : Nat) (s : State) : Out := .next (s.lockEnd ep failed)

/-- TRAIN_END (R469): a named wavelength not locked fails; READY with the entry filled when λ0 to λ7 are all
trained, else DOWN. On an external port it measures the peer's endpoint and number and the fibre's delay (R470). -/
def State.trainEnd (s : State) (e : Nat) (obs : TrainObs) : State :=
  let failed := obs.failed
  let p := match obs.peer with
    | some (ep, m, d) => if extBase ≤ e then { s.ep e with peerep := ep % 2 ^ 11, peermod := m % 64, flight := d % 256 } else s.ep e
    | none => s.ep e
  match p.cmd with
  | some (2, wlm, farep) =>
    let good := Nat.land (without wlm failed) p.locked
    let p1 := { p with cmd := none, trained := Nat.lor (without p.trained wlm) good, fail := decide (good ≠ wlm), cache := [] }
    (s.setEp e (if p1.lanes (fun w => bitN p1.trained w) then { p1.touch (if extBase ≤ e then p.peerep else farep) with state := 2 }
      else { p1 with state := 3 })).trainNext e
  | _ => s
def execTrainEnd (ep : Nat) (obs : TrainObs) (s : State) : Out := .next (s.trainEnd ep obs)

/-! ## Peers (R416 to R420) -/

/-- PEER_RESET (R406, R419). -/
def State.peerReset (s : State) (peer : Nat) : State :=
  let s1 := s.setLink peer { s.link peer with trust := 0, digest := 0, keys := false }
  let s2 := { s1 with
    eps := s1.eps.foldl (fun t (e : Nat × Endpoint) => if extBase ≤ e.1 ∧ e.2.peermod = peer then Tab.set {} e.1 { e.2 with cache := [] } t else t) s1.eps
    circuits := s1.circuits.map (fun (e : Nat × Circuit) => match e.2.word with
      | some w => if (decide (e.2.state = CircState.live) || decide (e.2.state = CircState.making)) && (s1.peersOf w e.2.tree).contains peer then
          (e.1, { e.2 with failing := some 0x2D }) else e
      | none => e) }
  s2.raiseAt 0 (opticalEvent 0x2D none peer 2)
def execPeerReset (peer : Nat) (s : State) : Out := .next (s.peerReset peer)

/-- A peer passes measurement (R416): its chain ends in the owner's root, and its measurement blocks 1 to 3 appear in the
owner's allowed lists. -/
def SecConfig.passes (c : SecConfig) (m : Measurement) : Bool :=
  m.genuine && decide (c.root ≠ []) && decide (m.root = c.root) &&
    (match m.blocks with
      | [a, b, d] => c.allowed1.contains a && c.allowed2.contains b && c.allowed3.contains d
      | _ => false)

/-- MEASUREMENT_END (R416, R417). -/
def State.measured (s : State) (peer : Nat) (m : Measurement) (digest : Nat) : State :=
  let l := s.link peer
  if l.trust ≠ 2 then s
  else if s.hub.sec.passes m then s.setLink peer { l with trust := 1, digest := digest, keys := true }
  else (s.setLink peer { l with trust := 3, digest := digest }).raiseAt 0 (opticalEvent 0x2D none peer 1)
def execMeasurementEnd (peer : Nat) (m : Measurement) (digest : Nat) (s : State) : Out := .next (s.measured peer m digest)
/-- The thimble core clears a REJECTED entry (R417). -/
def State.clearTrust (s : State) (peer : Nat) : State :=
  if (s.link peer).trust = 3 then s.setLink peer { s.link peer with trust := 0, digest := 0 } else s

/-- Classes of service traffic, in strict priority (R421). -/
inductive ServiceClass where
  | clock
  | spdm
  | management
  | launch
  | hostCopy
  deriving DecidableEq, Repr
/-- What the service circuit towards a peer carries: only SPDM until the peer is TRUSTED (R420). -/
def State.serviceCarries (s : State) (peer : Nat) (k : ServiceClass) : Bool :=
  (s.link peer).service.isSome && (decide (k = .spdm) || decide ((s.link peer).trust = 1))
/-- Some service circuit carries a class of traffic out of the module. -/
def State.serviceOut (s : State) (k : ServiceClass) : Bool := s.links.any (fun (e : Nat × Link) => s.serviceCarries e.1 k)

/-- The flits this module has sent towards a peer (R418). -/
def State.flitsTo (s : State) (peer : Nat) : Nat :=
  ((s.eps.filter (fun (e : Nat × Endpoint) => decide (extBase ≤ e.1) && decide (e.2.peermod = peer))).map (fun e => e.2.sent s.beat)).sum
/-- The nonce of an external port's next flit (R418). -/
def State.nonce (s : State) (e : Nat) : BitVec 96 :=
  BitVec.ofNat 96 (Config.sessionId (s.ep e).peermod % 2 ^ 32 * 2 ^ 64 + (s.ep e).sent s.beat % 2 ^ 64)
/-- KEY_UPDATE (R418): agreed over the service circuit, the phase bit turns, and both keys are accepted for 1,024
stitches. -/
def State.keyUpdate (s : State) (peer : Nat) : State :=
  if s.hub.halted || !(s.link peer).keys || !s.serviceCarries peer .spdm then s
  else s.setLink peer { s.link peer with phase := !(s.link peer).phase, oldUntil := some (s.beat + 1024) }
def execKeyUpdate (peer : Nat) (s : State) : Out := .next (s.keyUpdate peer)
/-- Key updates that the count of flits towards a peer calls for, one every 2^40 (R418). -/
def State.countUpdates (s : State) (peer : Nat) : State :=
  let l := s.link peer
  if l.updates < s.flitsTo peer / 2 ^ 40 then (s.setLink peer { l with updates := l.updates + 1 }).once (.keyUpdate peer) else s
/-- The stitch at which the count of flits towards a peer next calls for an update; none while no port sends. -/
def State.updateAt (s : State) (peer : Nat) : Option Nat :=
  let lit := (s.eps.filter (fun (e : Nat × Endpoint) => decide (extBase ≤ e.1) && decide (e.2.peermod = peer) && e.2.litAt.isSome)).length
  if lit = 0 then none else some (s.stitch + ((((s.link peer).updates + 1) * 2 ^ 40 - s.flitsTo peer) + lit - 1) / lit)
/-- KEY_PHASE_WINDOW_END (R418). -/
def State.keyWindow (s : State) (peer : Nat) : State :=
  match (s.link peer).oldUntil with
  | some n => if n ≤ s.beat then s.setLink peer { s.link peer with oldUntil := none } else s
  | none => s
def execKeyPhaseWindowEnd (peer : Nat) (s : State) : Out := .next (s.keyWindow peer)

/-- The candidates of a service port in their order (R420). -/
def State.serviceCandidates (s : State) (peer : Nat) : List Nat :=
  (s.eps.filter (fun e => decide (extBase ≤ e.1) && decide (e.2.peermod = peer) && decide (e.2.state = 2) && e.2.circ.isNone)).map (·.1)
/-- SERVICE_CIRCUIT_REMAKE (R420): the next candidate after the present port, and 0x09 in the thimble core's
log; none while an alarm has halted the fabric (R463). -/
def State.remakeService (s : State) (peer : Nat) : State :=
  let old := (s.link peer).service
  let l := (s.serviceCandidates peer).filter (fun e => decide (some e ≠ old))
  let next := if s.hub.halted then none else (l.find? (fun e => decide (old.getD 0 < e))).or l.head?
  let s1 := match old with | some e => s.setEp e { (s.ep e).dark s.beat with svc := false } | none => s
  let s2 := match next with | some e => s1.setEp e { (s1.ep e).light s.beat with svc := true } | none => s1
  let s3 := s2.setLink peer { s2.link peer with service := next }
  { s3 with hub := { s3.hub with log := (0x09, BitVec.ofNat 64 peer) :: s3.hub.log } }
def execServiceCircuitRemake (peer : Nat) (s : State) : Out := .next (s.remakeService peer)

end Sys2Proof.Machine
end

