-- ==== Sys2Proof/Machine/Boot.lean ====
section
/-!
DEFINITION. Module reset and boot, loss of the module's power, alarms, and the background activities (R28, R197,
R336, R346, R416, R417, R420, R454 to R466, R472, R473).
-/
namespace Sys2Proof.Machine

/-! ## The journal (R455 to R457) -/

/-- A boot step's record. -/
def Hub.note (h : Hub) (n state detail : Nat) : Hub :=
  { h with journal := Tab.set {} n { state := state, attempts := 1, detail := detail } h.journal, step := n }
/-- A step failed last time (R456), or its failure is still recorded. -/
def Hub.failedLast (h : Hub) (n : Nat) : Bool :=
  let e := (Tab.get {} n h.lastBoot).state
  bitN h.failed n || decide (e = 1) || decide (e = 3)

/-! ## Identity (R416, R461) -/

/-- The device key, while the seed has not been erased. -/
def State.deviceKey (s : State) : Option (List Byte) :=
  if s.hub.seedErased then none else some (Config.hkdf Config.identitySeed ("device".toUTF8.toList.map (fun b => BitVec.ofNat 8 b.toNat)))
/-- Measurement block 2: the firmware image's digest (R459). -/
def State.firmwareDigest (s : State) : Nat := Config.digest s.hub.flash
/-- The alias key, which changes with every image. -/
def State.aliasKey (s : State) : Option (List Byte) :=
  if s.hub.seedErased then none
  else some (Config.hkdf Config.identitySeed
    ("alias".toUTF8.toList.map (fun b => BitVec.ofNat 8 b.toNat) ++ leBytes 64 s.firmwareDigest))
/-- The alias certificate: the alias public key, and the device key's signature over it. -/
def State.aliasCert (s : State) : List (List Byte) :=
  match s.deviceKey, s.aliasKey with
  | some d, some a => [Config.publicKey a ++ Config.sign d (Config.publicKey a)]
  | _, _ => []
/-- Certificate slot 0: owner root, endorsement of the device key, and the alias certificate. -/
def State.certificates (s : State) : List (List Byte) := [s.hub.sec.root, s.hub.sec.endorsement] ++ s.aliasCert
/-- What this module answers to a neighbour's measurement: blocks 1 to 3, signed with the alias key, and its identity
digest. -/
def State.answer (s : State) : Measurement × Nat :=
  let c := s.hub.sec
  ({ genuine := s.aliasKey.isSome, root := c.root
     blocks := [Config.romDigest, s.firmwareDigest, Config.secDigest c.root c.endorsement [c.allowed1, c.allowed2, c.allowed3] c.launchKey c.levels c.warn] },
    Config.digest ((s.deviceKey.map Config.publicKey).getD []))

/-! ## What the steps do (R454) -/

/-- Step 2's checks of an image in their order: 0, or the CODE R460 gives (R459). -/
def fwCheck (rollback : BitVec 6) (img : List Byte) : Nat :=
  if !Config.fwKeyOk img then 1 else if !Config.fwSigOk img then 2 else if Config.fwVersion img < rollback then 3 else 0

/-- Tiles fenced (R454): they take no launch, and their ports serve no circuit. -/
def State.fence (s : State) (mask : Nat) : State :=
  let s1 := (List.range 16).foldl (fun s t =>
    if bitN mask t then s.setTile t { s.tile t with powered := false, flushing := false } else s) s
  { s1 with hub := { s1.hub with fenced := Nat.lor s1.hub.fenced (mask % 65536) } }

/-- An endpoint as boot leaves it (R391, R454, R468): READY with every ring locked and every eye trained, DOWN where it fails or its tile is fenced; external ones with
their fibre's peer, and dark without one. -/
def bootEp (fenced : Nat) (obs : BootObs) (e : Nat) : Endpoint :=
  let down := obs.ports.contains e || (decide (e < extBase) && bitN fenced (e / 48))
  let st := if down then 3 else 2
  let lit := if down then 0 else 0x1FF
  if e < extBase then { state := st, locked := lit, trained := lit }
  else match obs.fibres.find? (fun f => decide (f.1 = e)) with
    | some (_, m, pe, fl) => { state := st, locked := lit, trained := lit, peermod := m % 64, peerep := pe % 2048, flight := fl % 256, cache := if down then [] else [pe % 2048] }
    | none => {}

/-- The service port of each neighbour: its first candidate that is READY (R420). -/
def State.bootService (s : State) (peers : List Nat) : State :=
  peers.foldl (fun s m =>
    match (s.serviceCandidates m).head? with
    | some e => (s.setEp e { (s.ep e).light s.beat with svc := true }).setLink m { s.link m with service := some e }
    | none => s) s
/-- The neighbours of the fibres. -/
def BootPeers (obs : BootObs) : List Nat := (obs.fibres.map (fun f => f.2.1 % 64)).eraseDups

/-- Step 9: every source driven, data sources LOCKED and spares in STANDBY, ports and service circuits up. -/
def State.bootOptics (s : State) (obs : BootObs) : State :=
  let s1 := { s with
    lasers := (List.range 52).map (fun j => (j, ({ en := true, state := if j < 48 then 1 else 3, power := 140 } : Laser)))
    eps := (List.range epEnd).foldl (fun t e => Tab.set {} e (bootEp s.hub.fenced obs e) t) [] }
  s1.bootService (BootPeers obs)

/-- Step 11: the device key signs the alias certificate (R461), and every neighbour is measured (R416, R417, R463): TRUSTED,
or REJECTED with 0x2D. -/
def State.bootTrust (s : State) (obs : BootObs) : State :=
  let s := { s with hub := { s.hub with chain := s.certificates, answer := if s.hub.seedErased then none else some s.answer } }
  (BootPeers obs).foldl (fun s m =>
    let answer := if s.hub.seedErased then none else (obs.peers.find? (fun p => decide (p.1 = m))).map (·.2)
    let l := { s.link m with digest := (answer.map (fun (a : Measurement × Nat) => a.2)).getD 0 }
    if (answer.map (fun (a : Measurement × Nat) => s.hub.sec.passes a.1)).getD false then s.setLink m { l with trust := 1 }
    else (s.setLink m { l with trust := 3 }).raiseAt 0 (opticalEvent 0x2D none m 1)) s

/-- The effect of a step's action, or of its alternative. -/
def State.bootAct (s : State) (obs : BootObs) (n : Nat) (alt : Bool) : State :=
  let h := s.hub
  match n with
  | 2 =>
    if Config.fwCommit h.flash ∧ h.rollback < Config.fwVersion h.flash then
      { s with hub := { h with rollback := Config.fwVersion h.flash } }
    else s
  | 3 | 5 => if alt then s.fence obs.tiles else s
  | 6 =>
    let s1 := if alt then { s with linings := s.linings.filter (fun e => !h.badCores.contains e.1 && !obs.cores.contains e.1) } else s
    { s1 with hub := { h with window := s1.linings.any (fun (e : Nat × Lining) => e.2.committed.isSome) } }
  | 9 => s.bootOptics obs
  | 10 => { s with hub := { h with cxlDown := if alt then obs.cxl else 0 } }
  | 11 => s.bootTrust obs
  | 12 => { s with hub := { h with ready := true } }
  | _ => s

/-- Whether a step's action fails. -/
def State.stepFails (s : State) (obs : BootObs) (n : Nat) : Bool :=
  decide (n < 12) && (bitN obs.fails n || (decide (n = 2) && s.hub.torn) || (decide (n = 2) && decide (fwCheck s.hub.rollback s.hub.flash ≠ 0)) ||
    (decide (n = 11) && s.hub.seedErased))

/-- Recovery mode (R460): CXL port 0 of the bridge, and the service ports, alone. -/
def State.recoveryMode (s : State) (obs : BootObs) : State :=
  let s1 := s.bootOptics obs
  { s1 with
    eps := s1.eps.filter (fun (e : Nat × Endpoint) => e.2.svc), lasers := s1.lasers, hub := { s1.hub with recovery := true, cxlDown := if Config.isBridge s.module then 0xFE else 0xFF } }

/-- One step (R454 to R457): whether the boot goes on. One that a reset or a loss of power cuts has STARTED and no end
(R456). -/
def State.bootStep (s : State) (obs : BootObs) (n : Nat) : Bool × State :=
  let s0 := { s with hub := { (s.hub.note n 1 0) with outcome := 0 } }
  let ended (s : State) (st out : Nat) : State := { s with hub := { (s.hub.note n st (if st = 2 then 0 else obs.tiles % 2 ^ 32)) with outcome := out } }
  if obs.cut = n then (false, s0) else
  let fatal (s : State) : State := let s1 := ended s 3 2; { s1 with hub := { s1.hub with fatal := true } }
  if !s.hub.failedLast n || decide (n = 1) || decide (n = 12) then
    if !s.stepFails obs n then (true, ended (s0.bootAct obs n false) 2 1)
    else if n = 1 then (false, fatal s0)
    else
      let s1 := ended s0 3 2
      (false, { s1 with hub := { s1.hub with
        failed := Nat.lor s1.hub.failed (2 ^ n), badCores := if n = 6 then obs.cores.eraseDups else s1.hub.badCores } })
  else
    let s1 := { s0 with hub := { s0.hub with failed := Nat.lor s0.hub.failed (2 ^ n) } }
    if bitN obs.altFails n then (false, fatal s1)
    else if n = 2 then (false, ended (s1.recoveryMode obs) 4 3)
    else (true, ended (s1.bootAct obs n true) 4 3)
/-- The steps from `n` on. -/
def State.bootFrom (obs : BootObs) : List Nat → State → State
  | [], s => s
  | n :: r, s =>
    let q := s.bootStep obs n
    if q.1 then State.bootFrom obs r q.2 else q.2

/-- A turn of the schedule that the outside placed. -/
def Turn.outside : Turn → Bool
  | .due _ => false
  | _ => true

/-- What outlives a reset or loss of the module in the hub: the flash, the fuses, the hub's lining (R455, R459, R462, R463),
and that a die is still hot (R466). -/
def Hub.kept (h : Hub) : Hub :=
  { journal := h.journal, lastBoot := h.lastBoot, flash := h.flash, torn := h.torn, rollback := h.rollback, levels := h.sec.levels
    seedErased := h.seedErased, sec := h.sec, failed := h.failed, badCores := h.badCores, hot := h.hot }

/-- The module's state at reset, before its boot: memory with power all along keeps its contents, and the on-die
memories read zero (R28, R331, R481); while a die is hot no compute die has power (R466). -/
def State.resetModule (s : State) : State :=
  { State.reset with
    mem := s.mem.filter (fun c => decide (c.1 < 2 ^ 52)), poison := s.poison.filter (fun g => decide (64 * g < 2 ^ 52))
    linings := s.keptLinings, tileLinings := s.keptTileLinings, hub := s.hub.kept, module := s.module
    tiles := if s.hub.hot then (List.range 16).map (fun t => (t, { powered := false })) else State.reset.tiles
    turns := s.turns.filter Turn.outside, free := s.free }

/-- MODULE_RESET (R454). -/
def State.reboot (s : State) (obs : BootObs) : State :=
  let s1 := s.resetModule
  State.bootFrom obs [1, 2, 3, 4, 5, 6, 7, 8, 9, 10, 11, 12]
    { s1 with hub := { s1.hub with journal := [], lastBoot := s1.hub.journal } }
def execModuleReset (obs : BootObs) (s : State) : Out := .next (s.reboot obs)

/-! ## Resets and losses of the whole module -/

/-- The surroundings of a reset the module makes itself: the fibres and neighbours it had; what had failed, and been left out by
the step's alternative, fails as before, and nothing else does. -/
def State.sameObs (s : State) : BootObs :=
  { fails := 0, altFails := 0, tiles := s.hub.fenced, cores := s.hub.badCores, cxl := if bitN s.hub.failed 10 then s.hub.cxlDown else 0
    ports := if bitN s.hub.failed 9 then (s.eps.filter (fun (e : Nat × Endpoint) => decide (e.2.state = 3))).map (·.1) else []
    fibres := (s.eps.filter (fun (e : Nat × Endpoint) => decide (extBase ≤ e.1) && decide (e.2.peerep ≠ 0))).map
      (fun (e : Nat × Endpoint) => (e.1, e.2.peermod, e.2.peerep, e.2.flight))
    peers := (s.links.filter (fun (e : Nat × Link) => decide (e.2.trust = 1))).map (fun (e : Nat × Link) =>
      (e.1, { genuine := true, root := s.hub.sec.root
              blocks := [s.hub.sec.allowed1.headD 0, s.hub.sec.allowed2.headD 0, s.hub.sec.allowed3.headD 0] }, e.2.digest)) }

/-- MODULE_POWER_LOSS (R197): retained and volatile state is lost; the lining, the flash and what lies outside the
module stay, and nothing runs. -/
def execModulePowerLoss (s : State) : Out :=
  .next { State.reset with
    mem := s.mem.filter (fun c => decide (2 ^ 47 ≤ c.1) && decide (c.1 < 2 ^ 52))
    poison := s.poison.filter (fun g => decide (2 ^ 47 ≤ 64 * g) && decide (64 * g < 2 ^ 52))
    linings := s.keptLinings, tileLinings := s.keptTileLinings, hub := { s.hub.kept with off := true }, module := s.module
    tiles := (List.range 16).map (fun t => (t, { powered := false })), turns := s.turns.filter Turn.outside, free := s.free }

/-! ## Alarms and the background -/

/-- ALARM_TRIP (R463). -/
def execAlarmTrip (sensor : Nat) (s : State) : Out := .next (if sensor < 6 then s.trip sensor else s)

/-- HBM_REFRESH (R472): a bank is blocked; no value changes. -/
def execHbmRefresh (_tile _bank : Nat) (s : State) : Out := .next s
/-- TELEMETRY_SAMPLING (R472): nothing a program sees changes. -/
def execTelemetrySampling (s : State) : Out := .next s
/-- MRAM_SCRUB (R472, R473): moves lining copies between commits, and no block map a resume reads. -/
def execMramScrub (_tile _core : Nat) (s : State) : Out := .next s

/-- PATROL_SCRUB (R346, R472, R473): what the code of a granule of the tile's HBM holds. -/
def State.scrub (s : State) (tile granule : Nat) (err : EccKind) : State :=
  if !s.dieOn tile then s else s.granuleError (tile * 2 ^ 30 + granule % 10 ^ 9) err
def execPatrolScrub (tile granule : Nat) (err : EccKind) (s : State) : Out := .next (s.scrub tile granule err)

end Sys2Proof.Machine
end

