-- ==== Sys2Proof/Machine/Compact.lean ====
section
/-!
DEFINITION. The 16-bit forms (R110): each is its 32-bit instruction with W = 0 and P = 0 on registers x0 to
x31, two bytes long.
-/
namespace Sys2Proof.Machine

/-- A register field of five bits. -/
def reg5 (r : BitVec 5) : Reg := r.setWidth 6
def noTack : Tack := ⟨false, false⟩
/-- imm5 sign-extended. -/
def immS5 (i : BitVec 5) : Word := i.signExtend 64
/-- A 16-bit form that writes xD. -/
def compact (d : BitVec 5) (f : State → Word) (s : State) : Out :=
  issue 2 noTack (fun s => .done (s.setX (reg5 d) (f s))) s

def execCNop (s : State) : Out := issue 2 noTack (fun s => .done s) s
def execCTkw (imm : BitVec 5) (s : State) : Out := issue 2 noTack (tkwBody (imm.toNat % 4) (imm.toNat / 4 + 1)) s
def execCTkp (imm : BitVec 5) (s : State) : Out := issue 2 noTack (tkpBody (imm.toNat % 4) (imm.toNat / 4 + 1)) s
def execCMov (d a : BitVec 5) (s : State) : Out := compact d (fun s => s.x (reg5 a) ||| s.x 0) s
def execCAdd (d a : BitVec 5) (s : State) : Out := compact d (fun s => s.x (reg5 d) + s.x (reg5 a)) s
def execCSub (d a : BitVec 5) (s : State) : Out := compact d (fun s => s.x (reg5 d) - s.x (reg5 a)) s
def execCAnd (d a : BitVec 5) (s : State) : Out := compact d (fun s => s.x (reg5 d) &&& s.x (reg5 a)) s
def execCOr (d a : BitVec 5) (s : State) : Out := compact d (fun s => s.x (reg5 d) ||| s.x (reg5 a)) s
def execCXor (d a : BitVec 5) (s : State) : Out := compact d (fun s => s.x (reg5 d) ^^^ s.x (reg5 a)) s
def execCAddi (d : BitVec 5) (imm : BitVec 5) (s : State) : Out := compact d (fun s => s.x (reg5 d) + immS5 imm) s
def execCLi (d : BitVec 5) (imm : BitVec 5) (s : State) : Out := compact d (fun _ => immS5 imm) s
def execCShli (d : BitVec 5) (imm : BitVec 5) (s : State) : Out := compact d (fun s => aluShl (s.x (reg5 d)) imm.toNat) s
def execCShrli (d : BitVec 5) (imm : BitVec 5) (s : State) : Out := compact d (fun s => aluShrl (s.x (reg5 d)) imm.toNat) s
def execCBz (d : BitVec 5) (imm : BitVec 5) (s : State) : Out :=
  issue 2 noTack (fun s => if s.x (reg5 d) = 0 then land (s.relTarget imm.toInt) id s else .done s) s
def execCBnz (d : BitVec 5) (imm : BitVec 5) (s : State) : Out :=
  issue 2 noTack (fun s => if s.x (reg5 d) ≠ 0 then land (s.relTarget imm.toInt) id s else .done s) s
def execCEnd (s : State) : Out := afterEnd s.cur.slotK (issue 2 noTack (fun s => .done (endStream s)) s)

end Sys2Proof.Machine
end

