-- ==== Sys2Proof/Machine/Translate.lean ====
section
/-!
DEFINITION. Translation controls: invalidations, table roots, the split of the base die (R302, R331, R343 to R345,
R350, R481). Tile 16 holds the thimble core's own translations.
-/
namespace Sys2Proof.Machine

/-- Whether an entry covers a page of 64 KiB. -/
def TcEntry.covers (vpn : Nat) (e : TcEntry) : Bool := decide (65536 * vpn / 2 ^ e.size = e.page)

/-- An invalidation of one page or of all (R344, R345): entries dropped, pending faults released; BUSY until it
completes. -/
def State.invalidate (s : State) (tile : Nat) (vpn : Option Nat) : State :=
  let t := s.tile tile
  let hit (e : TcEntry) : Bool := match vpn with | some v => e.covers v | none => true
  let rel (e : Nat × Nat × Nat) : Bool := match vpn with
    | some v =>
      let sh := s.pageSize tile (65536 * v)
      pendHas (65536 * v) e || decide (e.1 * 2 ^ e.2.1 / 2 ^ sh = 65536 * v / 2 ^ sh)
    | none => true
  (s.setTile tile { t with
    tcache := t.tcache.filter (fun e => !hit e), pend := t.pend.filter (fun e => !rel e)
    busy := true, busyPage := if t.busy then none else vpn, busyUpTo := t.copy.next
    busySize := match vpn with
      | some v => (t.tcache.filter hit).foldl (fun m e => max m e.size) (s.pageSize tile (65536 * v))
      | none => 16 }).once (.invalidationComplete tile)

def execInvalidatePage (tile vpn : Nat) (s : State) : Out := .next (s.invalidate tile (some (vpn % 2 ^ 40)))
def execInvalidateAll (tile : Nat) (s : State) : Out := .next (s.invalidate tile none)
def execHubInvalidatePage (vpn : Nat) (s : State) : Out := .next (s.invalidate 16 (some (vpn % 2 ^ 40)))
def execHubInvalidateAll (s : State) : Out := .next (s.invalidate 16 none)

/-- A fabric copy accepted before the invalidation holds a translation it dropped (R302): of any 64 KiB piece of the page
that covers the named one, whose size `busySize` was noted at the command. -/
def State.heldByCopy (s : State) (tile : Nat) : Bool :=
  let t := s.tile tile
  t.copy.ops.any (fun o => decide (o.id < t.busyUpTo) &&
    (match t.busyPage with
      | some v => o.pages.any (fun e => decide (65536 * e.1 / 2 ^ t.busySize = 65536 * v / 2 ^ t.busySize))
      | none => !o.pages.isEmpty))

/-- INVALIDATION_COMPLETE (R344): every access that translated through a dropped entry is performed at its home; an
MGEMV accepted with such translations has completed. -/
def State.invalidated (s : State) (tile : Nat) : State :=
  if !(s.tile tile).busy then s
  else if s.heldByCopy tile || (List.range 8).any (fun c => !(s.auxOf (coreKey tile c)).mgemv.isEmpty) then
    s.again (.invalidationComplete tile)
  else
    let s1 := (List.range 8).foldl (fun s c => s.settleCore (coreKey tile c)) s
    s1.setTile tile { s1.tile tile with busy := false, busyPage := none }
def execInvalidationComplete (tile : Nat) (s : State) : Out := .next (s.invalidated tile)

/-! ## Populated regions (R334, R336) -/

/-- A run of physical addresses lies in the populated HBM of a tile (R334). -/
def inHbm (t a n : Nat) : Bool := decide (t * 2 ^ 36 ≤ a) && decide (a + n ≤ t * 2 ^ 36 + 64 * 10 ^ 9)
/-- It lies in the second tier of the module: in the device on a port that is up, which port 0 of the bridge has not (R334,
R336, R454). -/
def State.inTier (s : State) (a n : Nat) : Bool :=
  decide (2 ^ 47 ≤ a) && decide (a < 2 ^ 47 + 8 * 2 ^ 40) &&
    (let p := (a - 2 ^ 47) / 2 ^ 40
     !bitN s.hub.cxlDown p && !(decide (p = 0) && Config.isBridge s.module) &&
       decide (a % 2 ^ 40 + n ≤ min (Config.tierBytes s.module p) (768 * 10 ^ 9)))
/-- It lies in a populated region (R334). -/
def State.populated (s : State) (a n : Nat) : Bool :=
  inHbm (a / 2 ^ 36 % 16) a n || s.inTier a n || (decide (0xC00000000000 ≤ a) && decide (a + n ≤ 0xC00000000000 + 2 ^ 46))

/-! ## Page migration (R350) -/

/-- `n` bytes at `a` copied to `b`. -/
def Memory.copyRange (m : Memory) (a b n : Nat) : Memory :=
  m.filter (fun c => decide (c.1 < b)) ++
    (m.filter (fun c => decide (a ≤ c.1) && decide (c.1 < a + n))).map (fun c => (c.1 - a + b, c.2)) ++
    m.filter (fun c => decide (b + n ≤ c.1))
/-- The poison marks of the `n` granules from `a` on at those from `b` on as well. -/
def copyMarks (p : List Nat) (a b n : Nat) : List Nat :=
  p.filter (fun g => decide (g < b)) ++ (p.filter (fun g => decide (a ≤ g) && decide (g < a + n))).map (fun g => g - a + b) ++
    p.filter (fun g => decide (b + n ≤ g))

/-- A page of the thimble core's migration (R350). A leaf without MIG is marked and its page invalidated (step 1). One with
MIG, once that invalidation is done, has its bytes and poison marks copied to the new home and the leaf written with the
new page number, MIG cleared, and is invalidated (steps 2 and 3, between which nothing reads or writes the page). Without
power on the die of the page's tile nothing moves, and the migration goes on once it has resumed: the old copy has not
changed meanwhile. A request to map an address that is not populated is refused, the table unchanged (R334). -/
def State.migrate (s : State) (tile va ppn : Nat) : State :=
  let t := s.tile tile
  match (if t.ptroot.getLsbD 0 then leafAt s.mem va walkLevels (bits t.ptroot 13 39 * 8192) else none) with
  | none => s
  | some (at_, e, sh) =>
    let vpn := some (va / 65536 % 2 ^ 40)
    if !s.populated (ppn % 2 ^ 36 * 65536 / 2 ^ sh * 2 ^ sh) (2 ^ sh) then s
    else if !leafMig e then { s with mem := s.mem.writeNat at_ 8 (e ||| BitVec.ofNat 64 (2 ^ 58)).toNat }.invalidate tile vpn
    else
      let a := leafPa e sh 0
      let b := ppn % 2 ^ 36 * 65536 / 2 ^ sh * 2 ^ sh
      let up : Bool := match tileOfAddr a with | some k => s.dieOn k | none => true
      if t.busy || !up then s
      else
        let leaf := e.toNat - bits e 16 36 * 65536 - 2 ^ 58 + ppn % 2 ^ 36 * 65536
        { s with
          mem := (s.mem.copyRange a b (2 ^ sh)).writeNat at_ 8 leaf
          poison := copyMarks s.poison (a / 64) (b / 64) (2 ^ sh / 64) }.invalidate tile vpn

/-- PTROOT's fields, bits 51:13 and 0. -/
def rootBits (v : Word) : Word := BitVec.ofNat 64 (bits v 13 39 * 8192 + bits v 0 1)
/-- A write to PTROOT, with an invalidation of all translations (R343). -/
def State.writeRoot (s : State) (tile : Nat) (v : Word) : State :=
  (s.setTile tile { s.tile tile with ptroot := rootBits v }).invalidate tile none
def execPtrootWrite (tile : Nat) (v : Word) (s : State) : Out := .next (s.writeRoot tile v)
def execHptrootWrite (v : Word) (s : State) : Out := .next (s.writeRoot 16 v)

/-- A write to MSPLIT: held until the split may change; 9 to 15 are ignored (R331). -/
def State.writeSplit (s : State) (tile : Nat) (v : Word) : State :=
  let n := bits v 0 4
  if 8 < n then s else (s.setTile tile { s.tile tile with bspWant := some n }).once (.splitChange tile)
def execMsplitWrite (tile : Nat) (v : Word) (s : State) : Out := .next (s.writeSplit tile v)

/-- A slot of the tile is RUNNING or TRAPPED, or an engine operation of it is outstanding (R331). -/
def State.tileBusy (s : State) (tile : Nat) : Bool :=
  let t := s.tile tile
  (s.slotsOf tile).any (fun k => decide ((s.slot k).mode = .running) || decide ((s.slot k).mode = .trapped)) ||
    !t.copy.ops.isEmpty || !t.xfm0.queue.isEmpty || !t.xfm1.queue.isEmpty || !t.coll.ops.isEmpty ||
    (List.range 8).any (fun c => !(s.engine (.core tile c)).ops.isEmpty || !(s.auxOf (coreKey tile c)).mgemv.isEmpty)

/-- SPLIT_CHANGE (R331): once every access under way is performed, bytes that leave the base scratchpad are discarded, and
new ones read zero. -/
def State.changeSplit (s : State) (tile : Nat) : State :=
  let t := s.tile tile
  match t.bspWant with
  | none => s
  | some n =>
    if s.tileBusy tile then s.again (.splitChange tile)
    else
      let lo := sram kBase tile (n * 2 ^ 24)
      let s := (List.range 8).foldl (fun s c => s.settleCore (coreKey tile c)) s
      { s.setTile tile { s.tile tile with bsp := n, bspWant := none } with
        mem := s.mem.zero lo (2 ^ 32 - n * 2 ^ 24)
        poison := s.poison.filter (fun g => !(decide (lo ≤ 64 * g) && decide (64 * g < sram kBase tile (2 ^ 32)))) }
def execSplitChange (tile : Nat) (s : State) : Out := .next (s.changeSplit tile)

end Sys2Proof.Machine
end

