-- ==== Sys2Proof/Machine/Device.lean ====
section
/-!
DEFINITION. Device registers, space 9 (R13, R14, R168, R343, R352, R391, R392, R450, R451, R457, R458, R464, R467,
R468, R481), and the row of a register write.
-/
namespace Sys2Proof.Machine

/-- The registers of space 9. -/
inductive DevReg where
  | bootstat
  | almcfg
  | almstat
  | hptroot
  | htccmd
  | htcstat
  | journal (off : Nat)
  | mbcmd
  | mbaddr
  | mblen
  | mbstat
  | ptroot (t : Nat)
  | tccmd (t : Nat)
  | tcstat (t : Nat)
  | msplit (t : Nat)
  | ecccnt (t : Nat)
  | wgbase (t : Nat)
  | wgcnt (t : Nat)
  | wcmd (t : Nat)
  | wstat (t : Nat)
  | supslot (t : Nat)
  | rdrop (t : Nat)
  | frt (t code : Nat)
  | portstat (e : Nat)
  | wlmap (e : Nat)
  | laserctl (j : Nat)
  | laserstat (j : Nat)
  | pbcmd (e : Nat)
  | pbstat (e : Nat)
  | window (k off : Nat)
  deriving DecidableEq, Repr

/-- A tile's register at offset `o` of its block (R343, R352). -/
def tileReg (t o : Nat) : Option DevReg :=
  match o with
  | 0x000 => some (.ptroot t)
  | 0x008 => some (.tccmd t)
  | 0x010 => some (.tcstat t)
  | 0x018 => some (.msplit t)
  | 0x020 => some (.ecccnt t)
  | 0x100 => some (.wgbase t)
  | 0x108 => some (.wgcnt t)
  | 0x110 => some (.wcmd t)
  | 0x118 => some (.wstat t)
  | 0x120 => some (.supslot t)
  | 0x128 => some (.rdrop t)
  | _ => if 0x200 ≤ o ∧ o < 0x240 then some (.frt t (o - 0x200)) else none

/-- The register at an 8-byte-aligned offset (R450). -/
def devReg (a : Nat) : Option DevReg :=
  if a = 0x000 then some .bootstat
  else if a = 0x010 then some .almcfg
  else if a = 0x018 then some .almstat
  else if a = 0x020 then some .hptroot
  else if a = 0x028 then some .htccmd
  else if a = 0x030 then some .htcstat
  else if 0x1000 ≤ a ∧ a < 0x2000 then some (.journal (a - 0x1000))
  else if a = 0x10000 then some .mbcmd
  else if a = 0x10008 then some .mbaddr
  else if a = 0x10010 then some .mblen
  else if a = 0x10018 then some .mbstat
  else if 0x200000 ≤ a ∧ a < 0x210000 then tileReg ((a - 0x200000) / 0x1000) (a % 0x1000)
  else if 0x400000 ≤ a ∧ a < 0x415000 then
    (if a % 0x40 = 0 then some (.portstat ((a - 0x400000) / 0x40)) else if a % 0x40 = 8 then some (.wlmap ((a - 0x400000) / 0x40)) else none)
  else if 0x420000 ≤ a ∧ a < 0x420000 + 8 * 52 then some (.laserctl ((a - 0x420000) / 8))
  else if 0x430000 ≤ a ∧ a < 0x430000 + 8 * 52 then some (.laserstat ((a - 0x430000) / 8))
  else if 0x440000 ≤ a ∧ a < 0x455000 then
    (if a % 0x40 = 0 then some (.pbcmd ((a - 0x440000) / 0x40)) else if a % 0x40 = 8 then some (.pbstat ((a - 0x440000) / 0x40)) else none)
  else if 0x800000 ≤ a ∧ a < 0x100800000 then some (.window ((a - 0x800000) / 0x2000000) ((a - 0x800000) % 0x2000000))
  else none

def flagBit (b : Bool) (n : Nat) : Nat := if b then 2 ^ n else 0

/-- The journal's fields in order: of this boot, then of the last (R455). -/
def Hub.journalFields (h : Hub) : List Nat :=
  [h.journal, h.lastBoot].flatMap (fun j => (List.range 13).flatMap (fun n =>
    let e := Tab.get {} n j
    [e.state, e.attempts, e.detail]))

/-- WSTAT (R352). -/
def State.wstat (s : State) (t : Nat) : Nat :=
  let w := (s.tile t).walker
  let psave := ((List.range 32).filter (fun j => decide ((s.slot (32 * t + j)).mode = .preempted) && (s.slot (32 * t + j)).psave)).foldl
    (fun m j => m + 2 ^ (32 + j)) 0
  psave + flagBit w.cmderr 3 + flagBit w.cmd.isSome 2 + flagBit w.done 1 + flagBit w.run 0

/-- What a 64-bit read of a register gives. -/
def State.readReg (s : State) (r : DevReg) : Nat :=
  let h := s.hub
  let p (e : Nat) : Endpoint := s.ep e
  match r with
  | .bootstat => h.fenced * 2 ^ 16 + flagBit h.fatal 9 + flagBit h.ready 8 + h.outcome * 16 + h.step
  | .almcfg => h.levels
  | .almstat => h.maxl * 256 + h.seen
  | .hptroot => (s.tile 16).ptroot.toNat
  | .htcstat => (s.tile 16).pend.length * 256 + flagBit (s.tile 16).busy 0
  | .journal o => leNat ((List.range 8).map (fun i => Config.journalByte h.journalFields (o + i)))
  | .mbaddr => h.mbaddr
  | .mblen => h.mblen
  | .mbstat => h.detail * 2 ^ 32 + h.code * 256 + flagBit h.done 1 + flagBit h.busy 0
  | .ptroot t => (s.tile t).ptroot.toNat
  | .tcstat t => (s.tile t).pend.length * 256 + flagBit (s.tile t).busy 0
  | .msplit t => flagBit (s.tile t).bspWant.isSome 8 + (s.tile t).bsp
  | .ecccnt t => (s.tile t).unc.toNat * 2 ^ 32 + (s.tile t).cor.toNat
  | .wgbase t => (s.tile t).walker.base.toNat
  | .wgcnt t => (s.tile t).walker.cnt
  | .wstat t => s.wstat t
  | .supslot t => flagBit (s.tile t).supV 7 + (s.tile t).supSlot * 8 + (s.tile t).supCore
  | .rdrop t => (s.tile t).rdrop.toNat
  | .frt t c => leNat ((List.range 8).map (fun i => BitVec.ofNat 8 (s.frt t (c + i))))
  | .portstat e =>
    (p e).peerep * 2 ^ 48 + (p e).peermod * 2 ^ 42 + (p e).flight * 2 ^ 34 + (p e).failwl * 2 ^ 25 + flagBit (p e).svc 24 +
      ((p e).circ.getD 0) * 2 ^ 16 + flagBit (p e).circ.isSome 15 + (p e).state * 2 ^ 12 + s.epSrc e * 64
  | .wlmap e => flagBit (p e).sv 4 + (p e).spare
  | .laserctl j => flagBit (s.laser j).en 16 + (s.laser j).repl * 1024 + (s.laser j).pset
  | .laserstat j => ((s.laser j).subst.getD (if j < 48 then j else 63)) * 1024 + (s.laser j).state * 256 + (s.laser j).power
  | .pbstat e =>
    (p e).trained * 2 ^ 32 + (p e).locked * 2 ^ 16 + flagBit (p e).err 3 + flagBit (p e).fail 1 + flagBit (p e).busy 0
  | .window k o => leNat ((List.range 8).map (fun i => s.windowByte k (o + i)))
  | .mbcmd | .htccmd | .tccmd _ | .wcmd _ | .pbcmd _ => 0

/-- The fields of a register that keep their value in a write merged from half of it: its RW fields (R168). -/
def State.keptFields (s : State) (r : DevReg) : Nat :=
  match r with
  | .hptroot | .mbaddr | .mblen | .ptroot _ | .ecccnt _ | .wgbase _ | .wgcnt _ | .supslot _ | .rdrop _ | .frt _ _ | .wlmap _
  | .laserctl _ => s.readReg r
  | .msplit t => ((s.tile t).bspWant.getD (s.tile t).bsp)
  | _ => 0

/-- An access to an unlisted address in the runtime log (R450). -/
def State.logDev (s : State) (a : Nat) : State := { s with hub := { s.hub with log := (0, BitVec.ofNat 64 a) :: s.hub.log } }

/-- A command register's operation (R343, R352). -/
def State.translateCmd (s : State) (t : Nat) (v : Word) : State :=
  match bits v 0 2 with
  | 0 => s
  | 1 => s.invalidate t (some (bits v 24 40))
  | _ => s.invalidate t none
def State.walkerCmd (s : State) (t : Nat) (v : Word) : State :=
  let k := slotKey t (bits v 8 3) (bits v 11 2)
  match bits v 0 3 with
  | 1 => s.walkStart t
  | 2 => s.walkStop t
  | 3 => s.preempt t k (bits v 16 44)
  | 4 => s.resume t k (bits v 16 44)
  | 5 => s.enter t k
  | 6 => s.kill t k
  | _ => s
/-- The walker command in progress carried out (R352). -/
def State.walkerCommand (s : State) (t : Nat) : State :=
  match (s.tile t).walker.cmd with
  | none => s
  | some v => (s.setTile t { s.tile t with walker := { (s.tile t).walker with cmd := none } }).walkerCmd t v
/-- PBCMD's operation (R468). -/
def State.portCmd (s : State) (e : Nat) (v : Word) : State :=
  match bits v 0 3 with
  | 1 => s.pbLock e (bits v 16 9)
  | 2 => s.pbTrain e (bits v 16 9) (bits v 32 11)
  | 3 => s.pbFast e (bits v 16 9) (bits v 32 11)
  | 4 => s.pbAbort e
  | _ => s

/-- A 64-bit write of a register; reserved and read-only fields ignore it (R13, R14). -/
def State.writeReg (s : State) (r : DevReg) (v : Word) : State :=
  let h := s.hub
  match r with
  | .almstat => { s with hub := { h with seen := (BitVec.ofNat 8 h.seen &&& ~~~ BitVec.ofNat 8 (bits v 0 8)).toNat } }
  | .hptroot => s.writeRoot 16 v
  | .htccmd => s.translateCmd 16 v
  | .mbcmd => if h.busy then s else { s with hub := { h with busy := true } }.later (.mailbox (bits v 0 8))
  | .mbaddr => { s with hub := { h with mbaddr := bits v 0 46 } }
  | .mblen => { s with hub := { h with mblen := bits v 0 32 } }
  | .mbstat => if v.getLsbD 1 then { s with hub := { h with done := false } } else s
  | .ptroot t => s.writeRoot t v
  | .tccmd t => s.translateCmd t v
  | .msplit t => s.writeSplit t v
  | .ecccnt t => s.setTile t { s.tile t with unc := BitVec.ofNat 32 (bits v 32 32), cor := BitVec.ofNat 32 (bits v 0 32) }
  | .wgbase t => s.setTile t { s.tile t with walker := { (s.tile t).walker with base := BitVec.ofNat 64 (bits v 8 48 * 256) } }
  | .wgcnt t => s.setTile t { s.tile t with walker := { (s.tile t).walker with cnt := bits v 0 16 } }
  | .wcmd t =>
    if bits v 0 3 = 0 ∨ bits v 0 3 = 7 then s
    else (s.setTile t { s.tile t with walker := { (s.tile t).walker with cmd := some v } }).soon (.walkerCommand t)
  | .wstat t => if v.getLsbD 3 then s.setTile t { s.tile t with walker := { (s.tile t).walker with cmderr := false } } else s
  | .supslot t => s.setTile t { s.tile t with supV := v.getLsbD 7, supSlot := bits v 3 2, supCore := bits v 0 3 }
  | .rdrop t => s.setTile t { s.tile t with rdrop := BitVec.ofNat 32 (bits v 0 32) }
  | .frt t c => (List.range 8).foldl (fun s i =>
      s.setTile t { s.tile t with frt := Tab.set (frtReset (c + i)) (c + i) (bits v (8 * i) 4) (s.tile t).frt }) s
  | .wlmap e => s.writeWlmap e v
  | .laserctl j => s.writeLaserctl j v
  | .pbcmd e => s.portCmd e v
  | .pbstat e => if v.getLsbD 3 then s.setEp e { s.ep e with err := false } else s
  | .bootstat | .almcfg | .htcstat | .journal _ | .tcstat _ | .portstat _ | .laserstat _ | .window _ _ => s

/-- A write to TCCMD or HTCCMD stalls while an invalidation runs (R344), one to WCMD while a command is in progress
(R352). -/
def State.devStalls (s : State) (r : DevReg) : Bool :=
  match r with
  | .tccmd t => (s.tile t).busy
  | .htccmd => (s.tile 16).busy
  | .wcmd t => (s.tile t).walker.cmd.isSome
  | _ => false

/-- A read of the register at an aligned offset; an unlisted one reads zero and is logged. -/
def State.devRead (s : State) (off : Nat) : Word × State :=
  match devReg off with
  | some r => (BitVec.ofNat 64 (s.readReg r), s)
  | none => (0, s.logDev off)

/-- A store of `bytes` bytes at byte `lo` of the register at an aligned offset (R168); none while it stalls. -/
def State.devStore (s : State) (off lo bytes v : Nat) : Option State :=
  match devReg off with
  | none => some (s.logDev off)
  | some r =>
    if s.devStalls r then none
    else if bytes = 8 then some (s.writeReg r (BitVec.ofNat 64 v))
    else
      let old := s.keptFields r
      let m := 2 ^ (8 * lo)
      let keep := old - old / m % 2 ^ (8 * bytes) * m
      some (s.writeReg r (BitVec.ofNat 64 (keep + v % 2 ^ (8 * bytes) * m)))

/-- REGISTER_WRITE (R13, R14, R168): a 64-bit write; past the end of space 9 nothing is written. -/
def execRegisterWrite (offset : Nat) (v : Word) (s : State) : Out :=
  .next (if 0x100800000 ≤ offset then s else (s.devStore (offset / 8 * 8) 0 8 v.toNat).getD s)

end Sys2Proof.Machine
end

