-- ==== Sys2Proof/Machine/Load.lean ====
section
/-!
DEFINITION. Scalar loads and stores, handle instructions, prefetch and cache maintenance (R168, R202 to
R209, R337, R338).
-/
namespace Sys2Proof.Machine

/-! ## Scalar loads and stores (R202 to R205) -/

/-- The bit address past BASE of the unit at `off` for a scalar access, and its width (R204, R205). -/
def Handle.scalarBits (h : Handle) (off : Int) (bytes : Nat) : Nat × Nat :=
  if elemUnit h.type then (((h.wstart + off) * typeWidth h.type).toNat, typeWidth h.type)
  else (((h.wstart + off) * 8).toNat, 8 * bytes)

/-- What a scalar access of `bytes` bytes asks (R201, R204); `dev` for the four mnemonics that reach space 9. -/
def Handle.scalarWant (h : Handle) (off : Int) (bytes : Nat) (store dev thimble : Bool) : Want :=
  let b := h.scalarBits off bytes
  let sub := elemUnit h.type
  { acc := if store then .write else .read
    spaces := [1, 2, 3, 4] ++ (if dev && thimble then [9] else [])
    pr := !store, pw := store
    typeOk := !isPB h.type && (!sub || decide (bytes = 1))
    align := if sub then 1 else bytes
    n := if sub then 1 else bytes
    ranges := [(b.1 / 8, (b.1 % 8 + b.2 + 7) / 8)] }

/-- Bytes loaded under a policy (R178, R202): a cached line when one is held, else the core's view, filling a
line unless `na`. An uncached load drops the line, so that the stream never goes backwards (R171). -/
def State.loadBytes (s : State) (core space pol : Nat) (na : Bool) (a n : Nat) : List Byte × State :=
  if space ≠ 4 then (s.coreView core a n, s)
  else if pol = 0 then (s.coreView core a n, s.dropLines core a n)
  else match s.line core a with
    | some l => ((l.bytes.drop (a % 64)).take n, s)
    | none => (s.coreView core a n, if na then s else s.fillLine core a)

/-- A load (R205). -/
def loadBody (d : Reg) (m : MemOp) (f : BitVec 3) (bytes : Nat) (signed dev : Bool) (s : State) : Eff :=
  let h := s.h m.h
  let off := s.offM m
  let b := h.scalarBits off bytes
  (s.checkMem h m.h.toNat off (h.scalarWant off bytes false dev s.cur.thimble)).andThen fun segs leaf s =>
    if h.space = 9 then
      let a := h.base + b.1 / 8
      let r := s.devRead (a / 8 * 8)
      .done (r.2.setX d (BitVec.ofNat 64 (r.1.toNat / 2 ^ (8 * (a % 8)) % 2 ^ b.2)))
    else
      let s := s.performCore s.cur.coreK
      let r := s.loadBytes s.cur.coreK h.space (if s.cur.thimble then 0 else h.policy f leaf) (f.getLsbD 2 || leafNa leaf) (firstAddr segs) ((b.1 % 8 + b.2 + 7) / 8)
      let v := leNat r.1 / 2 ^ (b.1 % 8) % 2 ^ b.2
      .done (r.2.setX d (if signed then word (sext b.2 v) else BitVec.ofNat 64 v))

/-- A store entry made visible on its core (R202, R205): performed at once for the core's own scratchpad
and under persist-through, else buffered. `fill`: a miss fills the line. -/
def State.storeEntry (s : State) (p : Place) (space : Nat) (through fill : Bool) (e : StoreEntry) (a : Nat) : State :=
  let k := p.coreK
  let s1 :=
    if space = 1 then s.performEntry e
    else if through then (s.drainCore k).performEntry e
    else (s.setAux k { s.auxOf k with stores := (s.auxOf k).stores ++ [e] }).later (.storePerformedAtHome p.tile p.core 0)
  let s2 := s1.updateLine k e
  if fill && (s2.line k a).isNone then s2.fillLine k a else s2

/-- A store (R205). -/
def storeBody (d : Reg) (m : MemOp) (f : BitVec 3) (bytes : Nat) (dev : Bool) (s : State) : Eff :=
  let h := s.h m.h
  let off := s.offM m
  let b := h.scalarBits off bytes
  (s.checkMem h m.h.toNat off (h.scalarWant off bytes true dev s.cur.thimble)).andThen fun segs leaf s =>
    let v := (s.x d).toNat % 2 ^ b.2
    if h.space = 9 then
      let a := h.base + b.1 / 8
      match s.devStore (a / 8 * 8) (a % 8) bytes v with
      | some s1 => .done s1
      | none => .wait false s
    else
      let a := firstAddr segs
      .done ((s.performCore s.cur.coreK).storeEntry s.cur h.space (f.getLsbD 2 || leafPt leaf || s.cur.thimble)
        (decide (h.space = 4) && decide (h.policy f leaf = 2) && !s.cur.thimble)
        ⟨s.cur.lane, 8 * a + b.1 % 8, b.2, v⟩ a)

def execLdb (d : Reg) (m : MemOp) (f : BitVec 3) (t : Tack) (s : State) : Out := issueX 4 t (loadBody d m f 1 false false) s
def execLdh (d : Reg) (m : MemOp) (f : BitVec 3) (t : Tack) (s : State) : Out := issueX 4 t (loadBody d m f 2 false false) s
def execLdw (d : Reg) (m : MemOp) (f : BitVec 3) (t : Tack) (s : State) : Out := issueX 4 t (loadBody d m f 4 false true) s
def execLdd (d : Reg) (m : MemOp) (f : BitVec 3) (t : Tack) (s : State) : Out := issueX 4 t (loadBody d m f 8 false true) s
def execLdbs (d : Reg) (m : MemOp) (f : BitVec 3) (t : Tack) (s : State) : Out := issueX 4 t (loadBody d m f 1 true false) s
def execLdhs (d : Reg) (m : MemOp) (f : BitVec 3) (t : Tack) (s : State) : Out := issueX 4 t (loadBody d m f 2 true false) s
def execLdws (d : Reg) (m : MemOp) (f : BitVec 3) (t : Tack) (s : State) : Out := issueX 4 t (loadBody d m f 4 true false) s
def execStb (d : Reg) (m : MemOp) (f : BitVec 3) (t : Tack) (s : State) : Out := issueX 4 t (storeBody d m f 1 false) s
def execSth (d : Reg) (m : MemOp) (f : BitVec 3) (t : Tack) (s : State) : Out := issueX 4 t (storeBody d m f 2 false) s
def execStw (d : Reg) (m : MemOp) (f : BitVec 3) (t : Tack) (s : State) : Out := issueX 4 t (storeBody d m f 4 true) s
def execStd (d : Reg) (m : MemOp) (f : BitVec 3) (t : Tack) (s : State) : Out := issueX 4 t (storeBody d m f 8 true) s

/-! ## Handles (R206 to R208) -/

/-- HLD (R206). It reads past the L1, and leaves no older line behind for the stream (R171). -/
def execHld (d a : Reg) (imm : BitVec 9) (t : Tack) (s : State) : Out :=
  issueX 4 t (fun s =>
    let idx := s.x a + word (s.immI imm)
    let r := s.mySlot.regs
    let va := (r.htbase.toNat + 64 * idx.toNat) % 2 ^ 56
    let ev (c : Nat) (i0 i2 : Word) (sp : Nat) : Event := Event.mk' c i0 (tinfo1 0 sp false true d.toNat) i2
    if r.htcnt ≤ idx.toNat then .trap (ev 0x01 0 idx 0) s
    else
      match State.xlate s.cur.tile (2 ^ 21) .read (!s.cur.thimble) 1 s va 64 with
      | (.hold, s1) => .wait false s1
      | (.fault c w, s1) =>
        let q := s1.streamFault s.cur w
        if q.1 then .trap (ev c (BitVec.ofNat 64 va) 0 4) q.2 else .wait false q.2
      | (.ok segs _, s1) =>
        if (poisonIn s1 segs).isSome then .trap (ev 0x05 (BitVec.ofNat 64 va) 0 4) s1
        else
          match handleOfBytes ((s1.performCore s.cur.coreK).coreView s.cur.coreK (firstAddr [segs]) 64) with
          | .error c => .trap (ev c 0 0 0) s1
          | .ok h => .done (((s1.performCore s.cur.coreK).dropLines s.cur.coreK (firstAddr [segs]) 64).setHandle d h)) s

/-- HINFO (R207). -/
def execHinfo (d a : Reg) (f : BitVec 3) (t : Tack) (s : State) : Out :=
  issue 4 t (fun s => .done (s.setX d ((s.h a).info f.toNat))) s

/-- HSUB (R208). -/
def execHsub (d a b : Reg) (f : BitVec 3) (t : Tack) (s : State) : Out :=
  issue 4 t (fun s =>
    let h := s.h a
    let off := (s.x b).toNat
    let len := (s.x (b + 1)).toNat
    let ev (c : Nat) : Event := Event.mk' c 0 (tinfo1 0 0 false true a.toNat) (s.x b)
    if h.bound < off + len then .trap (ev 0x01) s
    else if isPB h.type && (decide (off % 768 ≠ 0) || decide (len % 768 ≠ 0)) then .trap (ev 0x0C) s
    else .done (s.setHandle d { h with
      wstart := (h.wstart + off) % 2 ^ 64, bound := len
      pw := h.pw && !f.getLsbD 0, pa := h.pa && !f.getLsbD 1, pr := h.pr && !f.getLsbD 2 })) s

/-! ## Prefetch and cache maintenance (R209) -/

/-- PREF (R209): a line of near memory into the L1 when every check passes. -/
def execPref (m : MemOp) (t : Tack) (s : State) : Out :=
  issueX 4 t (fun s =>
    let h := s.h m.h
    let off := s.offM m
    match s.checkMem h m.h.toNat off { acc := .read, spaces := [1, 2, 3, 4], pr := true, pw := false, typeOk := true
                                       layoutOk := h.layoutOk off, n := 1, ranges := [((h.unitByte off).toNat, 1)] } with
    | .ok segs leaf s1 =>
      if h.space = 4 ∧ !s.cur.thimble ∧ 1 ≤ h.policy 0 leaf ∧ (s1.line s.cur.coreK (firstAddr segs)).isNone then
        .done (s1.fillLine s.cur.coreK (firstAddr segs))
      else .done s
    | _ => .done s) s
/-- PREF.L2 warms the L2 (R209), which keeps what the home holds (R332). -/
def execPrefL2 (_m : MemOp) (t : Tack) (s : State) : Out := issueX 4 t (fun s => .done s) s

/-- The 64 KiB page of an address holds a poisoned granule. -/
def State.pagePoisoned (s : State) (a : Nat) : Bool := s.poison.any (fun g => decide (g / 1024 = a / 65536))
/-- The L1 lines of `d` units dropped, those of unmapped or poisoned pages apart (R209; DEDUCED, log 83). -/
def cinvBody (d : Reg) (m : MemOp) (s : State) : Eff :=
  let h := s.h m.h
  let rs := s.flatRanges (h.view s.cur m.h.toNat) (h.unitRanges (s.offM m) (s.x d).toNat)
  .done (s.dropRuns s.cur.coreK (rs.filter (fun r => !s.pagePoisoned r.1)))
def execCinv (d : Reg) (m : MemOp) (t : Tack) (s : State) : Out := issueX 4 t (cinvBody d m) s
/-- CINV.L2 also writes L2 lines back and evicts them: L2 and HBM are one retained store (R56, R332). -/
def execCinvL2 (d : Reg) (m : MemOp) (t : Tack) (s : State) : Out := issueX 4 t (cinvBody d m) s

end Sys2Proof.Machine
end

