-- ==== Sys2Proof/Machine/Sequencer.lean ====
section
/-!
DEFINITION. The fabric sequencer's words, phases, stitch boundaries and the passing of time (R4, R317 to R321,
R376, R394, R399, R402, R463).

A word's row executes the word at the present stitch; the sequencer itself executes the words of its program at
the boundaries R319 gives, through the same operations.
-/
namespace Sys2Proof.Machine

/-- The next word stands `n` stitches later (R319). -/
def State.seqNext (s : State) (n : Nat) : State := { s with seq := { s.seq with pc := s.seq.pc + 1, nextAt := s.stitch + n } }
/-- The sequencer executes words. -/
def State.seqRuns (s : State) : Bool := s.seq.running && !s.seq.aligning && !s.seq.paused && !s.hub.halted

/-! ## Phases (R307, R320) -/

/-- The present phase ends at this stitch: its transfers without their last acknowledgement end 0x0A with their circuits
broken, and the circuits with SPAN = 0 made in it break; a FAILED one stays so until a word names it (R407). -/
def State.closePhase (s : State) : State :=
  match s.seq.phase with
  | none => s
  | some _ =>
    let ph := s.seq.phases
    let late (t : Transfer) : Bool := decide (t.phase = some ph)
    let s1 := s.circuits.foldl (fun s (e : Nat × Circuit) =>
      let ci := s.circ e.1
      let short := decide (ci.phase = some ph) && (match ci.word with | some w => !w.span | none => false)
      if ci.state = .live ∨ ci.state = .making then
        (if ci.transfers.any late || short then s.overrun e.1 late else s)
      else s) s
    { s1 with seq := { s1.seq with phase := none, lastEnd := s.stitch } }
/-- PHASE_END (R320): the end stitch of the present phase. -/
def State.phaseEnds (s : State) : State :=
  match s.seq.phase with
  | some (_, stop) => if stop ≤ s.stitch then s.closePhase else s
  | none => s
def execPhaseEnd (s : State) : Out := .next s.phaseEnds

/-! ## Words (R317 to R321) -/

/-- ALIGN (R399): the module has reported, and waits for the release. -/
def State.seqAlign (s : State) : State := let s1 := s.seqNext 1; { s1 with seq := { s1.seq with aligning := true } }
/-- PHASE (R320). -/
def State.seqPhase (s : State) (n : Nat) : State :=
  let s1 := s.closePhase
  { s1 with seq := { s1.seq with phase := some (s.stitch, s.stitch + n), phases := s1.seq.phases + 1 } }.seqNext 1
def State.seqMake (s : State) (w : MakeWord) (tree : Bool) : State := (s.make w tree).seqNext 1
def State.seqBreak (s : State) (c : Nat) : State := (s.breakCircuit c).seqNext 1
def State.seqPrep (s : State) (route : Nat) : State := (s.prep route).seqNext 1
/-- WAIT (R319). -/
def State.seqWait (s : State) (n : Nat) : State := s.seqNext (max 1 n)
/-- SIGT (R320); on a tile without power its increment waits for the resume (R195). -/
def State.seqSigt (s : State) (sel tile core : Nat) (v : BitVec 32) : State :=
  (if selBad sel then s else if s.dieOn tile then s.semAdd tile core sel v else s.later (.fsigArrival tile core sel v)).seqNext 1
/-- Every circuit the program still holds breaks. -/
def State.breakAll (s : State) : State := s.circuits.foldl (fun s (e : Nat × Circuit) => s.breakCircuit e.1) s
/-- PAUSEPT (R321): a requested pause breaks the circuits and stops the sequencer. -/
def State.seqPause (s : State) : State :=
  if s.seq.pauseAsked then
    let s1 := s.breakAll.seqNext 1
    { s1 with seq := { s1.seq with paused := true, pauseAsked := false } }
  else s.seqNext 1
/-- LOOP and NEXT (R319). -/
def State.seqLoop (s : State) (n : Nat) : State :=
  let s1 := s.seqNext 1
  { s1 with seq := { s1.seq with loops := (s.seq.pc, n) :: s.seq.loops } }
def State.seqNextWord (s : State) : State :=
  let s1 := s.seqNext 1
  match s.seq.loops with
  | (p, n) :: r =>
    if 1 < n then { s1 with seq := { s1.seq with pc := p + 1, loops := (p, n - 1) :: r } }
    else { s1 with seq := { s1.seq with loops := r } }
  | [] => s1
def State.seqChunk (s : State) (c plan step : Nat) : State := (s.chunkStep c plan step).seqNext 1
/-- END (R320). -/
def State.seqEnd (s : State) : State :=
  let s1 := s.breakAll
  { s1 with
    seq := { s1.seq with running := false }
    circuits := s1.circuits.map (fun (e : Nat × Circuit) => (e.1, { e.2 with slot := false })) }

/-- A word's row: the sequencer executes it when it runs. -/
def State.word (s : State) (f : State → State) : Out := .next (if s.seqRuns then f s else s)
def execSqAlign (s : State) : Out := s.word State.seqAlign
def execSqPhase (n : BitVec 16) (s : State) : Out := s.word (fun s => s.seqPhase n.toNat)
def execSqMake (w : MakeWord) (s : State) : Out := s.word (fun s => s.seqMake w false)
def execSqTree (w : MakeWord) (s : State) : Out := s.word (fun s => s.seqMake w true)
def execSqBreak (c : BitVec 8) (s : State) : Out := s.word (fun s => s.seqBreak c.toNat)
def execSqPrep (route : BitVec 9) (s : State) : Out := s.word (fun s => s.seqPrep route.toNat)
def execSqWait (n : BitVec 16) (s : State) : Out := s.word (fun s => s.seqWait n.toNat)
def execSqSigt (sel : BitVec 9) (tile : BitVec 4) (core : BitVec 3) (addend : BitVec 32) (s : State) : Out :=
  s.word (fun s => s.seqSigt sel.toNat tile.toNat core.toNat addend)
def execSqLoop (n : BitVec 16) (s : State) : Out := s.word (fun s => s.seqLoop n.toNat)
def execSqNext (s : State) : Out := s.word State.seqNextWord
def execSqChunk (c : BitVec 8) (plan step : BitVec 10) (s : State) : Out :=
  s.word (fun s => s.seqChunk c.toNat plan.toNat step.toNat)
def execSequencerEnd (s : State) : Out := s.word State.seqEnd
/-- PAUSEPT as an event (R321): the job's pause has been requested. At a PAUSEPT whose stitch has come it takes effect;
before, the request stands until the sequencer reaches one. -/
def execSqPausept (s : State) : Out :=
  let s1 := { s with seq := { s.seq with pauseAsked := true } }
  let at_ := (s.seq.words.getD s.seq.pc 0).toNat % 256 = 9 ∧ s.seq.pc < s.seq.words.length ∧ s.seq.nextAt ≤ s.stitch
  .next (if s.seqRuns ∧ at_ then s1.seqPause else if s.seqRuns then s1 else s)
/-- PAUSE_RESUME (R321): every module executes the word after its PAUSEPT at one stitch. -/
def execPauseResume (s : State) : Out :=
  .next (if s.seq.paused then { s with seq := { s.seq with paused := false, nextAt := s.stitch + 1 } } else s)

/-- The fields of a MAKE or TREE word (R317). -/
def makeWordOf (w : Word) : MakeWord :=
  { circuit := w.extractLsb' 8 8, stile := w.extractLsb' 60 4, dmod := w.extractLsb' 54 6, dtile := w.extractLsb' 50 4
    width1 := w.extractLsb' 46 4, minw1 := w.extractLsb' 42 4, span := w.getLsbD 41, rcore := w.extractLsb' 38 3
    rbob := w.extractLsb' 34 4, route := w.extractLsb' 25 9, rx := w.getLsbD 24 }

/-- The word at the sequencer's place executes; past the program it ends. -/
def State.seqStep (s : State) : State :=
  let w := s.seq.words.getD s.seq.pc 0
  let n := bits w 8 16
  match w.toNat % 256 with
  | 0x01 => s.seqAlign
  | 0x02 => s.seqPhase n
  | 0x03 => s.seqMake (makeWordOf w) false
  | 0x04 => s.seqMake (makeWordOf w) true
  | 0x05 => s.seqBreak (n % 256)
  | 0x06 => s.seqPrep (n % 512)
  | 0x07 => s.seqWait n
  | 0x08 => s.seqSigt (n % 512) (n / 512 % 16) (n / 8192) (BitVec.ofNat 32 (bits w 24 32))
  | 0x09 => s.seqPause
  | 0x0A => s.seqLoop n
  | 0x0B => s.seqNextWord
  | 0x0C => s.seqChunk (n % 256) (bits w 54 10) (bits w 44 10)
  | _ => s.seqEnd

/-! ## Stitch boundaries -/

/-- The level of an alarm acts (R463): every circuit, service circuits included, breaks and the sequencer stops;
level 3 also erases the seed and resets the module. -/
def State.alarmActs (s : State) (level : Nat) : State :=
  let s1 := s.breakAll
  let s2 := { s1 with
    eps := s1.eps.foldl (fun t (e : Nat × Endpoint) => if e.2.svc then Tab.set {} e.1 { e.2.dark s.beat with svc := false } t else t) s1.eps
    links := s1.links.foldl (fun t (e : Nat × Link) => Tab.set {} e.1 { e.2 with service := none, oldUntil := none } t) s1.links
    seq := { s1.seq with running := false }
    hub := { s1.hub with alarm := none, halted := true, seedErased := s1.hub.seedErased || decide (3 ≤ level) } }
  if 3 ≤ level then s2.soon .moduleReset else s2

/-- What a circuit has due at this stitch: failure (R394, R419), its make's outcome (R402), the end of its break. -/
def State.circuitDue (s : State) (c : Nat) : State :=
  let ci := s.circ c
  match ci.failing with
  | some cause => if ci.state = .live ∨ ci.state = .making then s.failCircuit c cause else s.setCirc c { ci with failing := none }
  | none =>
    if ci.state = .making ∧ ci.since + 8 ≤ s.stitch then s.resolveMake c
    else if ci.state = .breaking ∧ ci.since + 2 ≤ s.stitch then s.breakDone c else s

/-- Everything due at the present stitch boundary, in this order: acknowledgements, circuits, an alarm, the end of a phase,
the sequencer's word, session keys (R418). -/
def State.boundary (s : State) : State :=
  let s0 := s.circuits.foldl (fun (s : State) (e : Nat × Circuit) => s.acksCome e.1) s
  let s1 := s0.circuits.foldl (fun (s : State) (e : Nat × Circuit) => s.circuitDue e.1) s0
  let s2 := match s1.hub.alarm with | some l => s1.alarmActs l | none => s1
  let s3 := s2.phaseEnds
  let s4 := if s3.seqRuns ∧ s3.seq.nextAt ≤ s3.stitch then s3.seqStep else s3
  s4.links.foldl (fun s (e : Nat × Link) => (s.keyWindow e.1).countUpdates e.1) s4

/-- The stitches at which something is due. -/
def State.deadlines (s : State) : List Nat :=
  s.circuits.filterMap (fun (e : Nat × Circuit) =>
    if e.2.failing.isSome then some 0
    else match e.2.state with
      | .making => some (e.2.since + 8)
      | .breaking => some (e.2.since + 2)
      | _ => none) ++
  s.circuits.flatMap (fun (e : Nat × Circuit) =>
    (if e.2.state = .live ∧ !s.hub.halted ∧ (s.nextFlit e.2 true).isSome then [0] else []) ++
      (if e.2.state = .live then e.2.transfers.filterMap (·.acked) else [])) ++
  (if s.hub.alarm.isSome then [0] else []) ++ (match s.seq.phase with | some (_, stop) => [stop] | none => []) ++
  (if s.seqRuns then [s.seq.nextAt] else []) ++ s.links.flatMap (fun (e : Nat × Link) => (e.2.oldUntil.toList.map (· + s.jumped)) ++ (s.updateAt e.1).toList)

/-- Time passes to a clock, by way of every stitch at which something is due (R4); a circuit's flits leave stitch by stitch
(R386, R388). -/
def State.passTo (target : Nat) : Nat → State → State
  | 0, s => { s with clock := max s.clock target }
  | fuel + 1, s =>
    match s.deadlines with
    | [] => { s with clock := max s.clock target }
    | d :: r =>
      let at_ := max (s.stitch + 1) (r.foldl min d)
      let c := (at_ - s.jumped) * 16
      if c ≤ target then State.passTo target fuel ({ s.flitsLeave with clock := c }).boundary
      else { s with clock := max s.clock target }

/-- `n` core cycles pass (R4, R48). -/
def State.passTime (s : State) (n : Nat) : State := State.passTo (s.clock + n) (n / 16 + 1) s

/-! ## ALIGN's release and the job's start (R351, R352, R399) -/

/-- The least multiple of 1,024 at least 12,500 above a count. -/
def releaseStitch (high : Nat) : Nat := (high + 12500 + 1023) / 1024 * 1024

/-- ALIGN_RELEASE: it reaches a module of a larger job over its service circuits (R351, R420); the count jumps forward to the release stitch, the sequencer's word 1 executes there, and the
job's walkers start. -/
def State.alignReleased (s : State) (high : Nat) : State :=
  match s.hub.job with
  | none => s
  | some j =>
    if j.started then s
    else if s.seq.running && !s.seq.aligning then s.again .alignRelease
    else if (List.range 64).any (fun m => decide (m ≠ s.module) && bitN j.mask m) ∧ !s.serviceOut .clock then s.again .alignRelease
    else
      let S := max (releaseStitch high) s.stitch
      let s1 := { s with
        jumped := s.jumped + (S - s.stitch), hub := { s.hub with job := some { j with started := true } }
        seq := { s.seq with aligning := false, nextAt := S } }
      j.tiles.foldl (fun s t => s.walkStart t) s1.boundary
def execAlignRelease (high : Nat) (s : State) : Out := .next (s.alignReleased high)

end Sys2Proof.Machine
end

