-- ==== Sys2Proof/Machine/Launch.lean ====
section
/-!
DEFINITION. Launch: the image, the code scanner, the tables of a job, and collective groups (R111, R112, R122,
R123, R317, R318, R334, R339, R351, R400, R401, R411, R412, R453, R480).
-/
namespace Sys2Proof.Machine

/-! ## The image (R453) -/

/-- A section entry. -/
structure Section where
  type : Nat
  module : Nat
  tile : Nat
  misc : Nat
  space : Nat
  target : Nat
  len : Nat
  off : Nat
  deriving DecidableEq, Repr

def sectionOf (b : List Byte) : Section :=
  { type := fieldAt b 0 1, module := fieldAt b 1 1, tile := fieldAt b 2 1, misc := fieldAt b 3 1, space := fieldAt b 4 4
    target := fieldAt b 8 8, len := fieldAt b 16 8, off := fieldAt b 24 8 }
/-- The section table, as far as the body reaches. -/
def sectionsOf (img : List Byte) : List Section :=
  (List.range (min (fieldAt img 16 4) (img.length / 32))).map (fun i => sectionOf ((img.drop (64 + 32 * i)).take 32))
def Section.bytes (x : Section) (img : List Byte) : List Byte := (img.drop x.off).take x.len
/-- Stream class of a code section; core of a data section; slot of a handle table. -/
def Section.cls (x : Section) : Nat := x.misc % 8
def Section.slot (x : Section) : Nat := x.misc / 8 % 4
def Section.core (x : Section) : Nat := x.misc / 32
/-- Whether a section's contents stand in memory behind a page table. -/
def Section.paged (x : Section) : Bool :=
  decide (x.type = 1) || decide (x.type = 3) || decide (x.type = 4) || (decide (x.type = 2) && (decide (x.space = 4) || decide (x.space = 7)))

/-- Whether step 1 rejects an image (R351, R453). -/
def imageBad (img : List Byte) (key : Option (List Byte)) : Bool :=
  let total := fieldAt img 8 8
  let signed := bitN (fieldAt img 20 4) 0
  let stop := if signed then total - 64 else total
  let ss := sectionsOf img
  decide (fieldAt img 0 4 ≠ 0x4B58494D) || decide (fieldAt img 4 4 ≠ 1) || decide (img.length < total) ||
    decide (stop < 64 + 32 * fieldAt img 16 4) ||
    ss.any (fun x => decide (stop < x.off + x.len) || decide (x.type = 0) || decide (10 < x.type) ||
      (decide (x.type = 2) && [5, 6, 8, 9].contains x.space)) ||
    (!signed && key.isSome) ||
    (signed && !(match key with
      | some k => Config.ed25519Ok k (img.take (total - 64)) ((img.drop (total - 64)).take 64)
      | none => false)) ||
    (List.range 256).any (fun m => decide (1 < (ss.filter (fun x => decide (x.type = 5) && decide (x.module = m))).length))

/-! ## The code scanner (R123) -/

/-- Whether R122 permits a 32-bit opcode in a class. -/
def opPermitted (cls op : Nat) : Bool :=
  if op ≤ 0x47 then true
  else if op = 0x71 ∨ op = 0x72 then decide (cls = 3) || decide (cls = 4)
  else if op ≤ 0x7F then decide (cls = 0) || decide (cls = 3) || decide (cls = 4)
  else if op ≤ 0x9F then decide (cls = 2)
  else if op ≤ 0xAF then decide (cls = 1)
  else if op ≤ 0xBB then decide (cls = 0) || decide (cls = 3) || decide (cls = 4)
  else if op ≤ 0xBF then decide (cls = 0)
  else true

/-- The least reason whose offence stands at a halfword; 0 for none. -/
def leastReason (l : List (Bool × Nat)) : Nat := ((l.filter (·.1)).map (·.2)).foldl (fun m r => if m = 0 then r else min m r) 0

/-- Halfwords of a run. -/
def runHalves : List Byte → List Nat
  | a :: b :: r => (a.toNat + 256 * b.toNat) :: runHalves r
  | [a] => [a.toNat]
  | [] => []

/-- Where a scan stands: at a header, or in a body that ends at a halfword. -/
inductive ScanAt where
  | header
  | body (stop : Nat)
  deriving DecidableEq, Repr

/-- What one word of a run answers: an offence, or the size of the word and where the scan then stands. -/
inductive ScanWord where
  | bad (reason : Nat)
  | ok (size : Nat) (next : ScanAt)
  deriving DecidableEq, Repr

/-- The word at halfword `i` of a run of `n`, `h` and `h2` its halfwords. A header that the run's end cuts shows no REP and no
LEN: it is reason 5. -/
def scanWord (cls n : Nat) (st : ScanAt) (i h h2 : Nat) : ScanWord :=
  let op := h / 2 % 256
  let wide := decide (h % 2 = 1)
  let w := h + 65536 * h2
  let isHdr := wide && (decide (op = 1) || decide (op = 2))
  let len := w / 2 ^ 13 % 512
  let early := [(wide && decide (0xE0 ≤ op), 1), (!wide && decide (16 ≤ h / 2 % 32), 2),
    (isHdr && decide (i + 2 ≤ n) && decide (op = 1) && decide (w / 2 ^ 22 % 64 = 63), 3),
    (isHdr && decide (i + 2 ≤ n) && decide (len = 0), 4)]
  match st with
  | .body stop =>
    let r := leastReason (early ++ [(wide && decide (stop < i + 2), 5), (isHdr, 6), (wide && !opPermitted cls op, 7)])
    let size := if wide then 2 else 1
    if r ≠ 0 then .bad r else .ok size (if i + size = stop then .header else .body stop)
  | .header =>
    if !isHdr then .bad (leastReason (early ++ [(true, 6)]))
    else if n < i + 2 then .bad 5
    else
      let r := leastReason (early ++ [(decide (n < i + 2 + len), 5)])
      if r ≠ 0 then .bad r else .ok 2 (.body (i + 2 + len))

/-- The scan from halfword `i` on: reason and halfword of the lowest offence. -/
def scanFrom (cls n : Nat) : Nat → ScanAt → Nat → List Nat → Option (Nat × Nat)
  | 0, _, _, _ => none
  | _ + 1, _, _, [] => none
  | fuel + 1, st, i, h :: rest =>
    match scanWord cls n st i h (rest.headD 0) with
    | .bad r => some (r, i)
    | .ok size next => scanFrom cls n fuel next (i + size) (rest.drop (size - 1))

/-- The scanner's answer for a run of `n` halfwords of a class, whose bytes are `bs` and zeros after them. A header is not
asked for in those zeros, which no block of the run reaches (DEDUCED, log 40). -/
def scanRun (cls n : Nat) (bs : List Byte) : Option (Nat × Nat) :=
  let hs := runHalves bs
  scanFrom cls n hs.length .header 0 hs

/-! ## Circuit programs and routes (R317, R318, R400, R401) -/

/-- A leaf table entry: its count and leaves. -/
def leavesOf (b : List Byte) : List (Nat × List (Nat × Nat)) :=
  (List.range (b.length / 32)).map (fun i =>
    let e := (b.drop (32 * i)).take 32
    let n := fieldAt e 0 1
    (n, (List.range (min n 8)).map (fun j => (fieldAt e (16 + 2 * j) 2 % 16, fieldAt e (16 + 2 * j) 2 / 16 % 64))))
def plansOf (b : List Byte) : List Plan :=
  (List.range (b.length / 16)).map (fun i =>
    let e := (b.drop (16 * i)).take 16
    { group := fieldAt e 0 1, tree := decide (fieldAt e 1 1 = 1), nc := fieldAt e 2 2, steps := fieldAt e 4 2 })
/-- The greatest leaf count with which a TREE word of the program names a route: the leaves its FAR list is for (R409). -/
def treeLeaves (leaves : List (Nat × List (Nat × Nat))) (ws : List Word) (route : Nat) : Nat :=
  (ws.map (fun w => if w.toNat % 256 = 4 ∧ (makeWordOf w).route.toNat = route then
    (leaves.getD (leafOf (makeWordOf w)) (0, [])).2.length else 0)).foldl max 0
/-- A route table entry, with its NPORT as it stands (R400): FAR names a port's far end, or for KIND 3 a leaf's first one. -/
def routesOf (b : List Byte) (leafCount : Nat → Nat) : List (Nat × Route) :=
  (List.range (b.length / 128)).map (fun i =>
    let e := (b.drop (128 * i)).take 128
    let n := fieldAt e 0 1
    let ports (o k : Nat) : List Nat := (List.range (min k 16)).map (fun j => fieldAt e (o + 2 * j) 2 % 2048)
    (n, { kind := fieldAt e 1 1, peer := fieldAt e 2 2 % 64, near := ports 8 n, far := ports 40 (if fieldAt e 1 1 = 3 then leafCount i else n) }))

/-- Whether a word offends by itself (R318). -/
def wordBad (leaves : List (Nat × List (Nat × Nat))) (plans routes i : Nat) (w : Word) : Bool :=
  let op := w.toNat % 256
  let mk := makeWordOf w
  decide (0x0D ≤ op) || (decide (op = 1) && decide (i ≠ 0)) || (decide (op = 0x0A) && decide (bits w 8 16 = 0)) ||
    ((decide (op = 3) || decide (op = 4)) && (decide (routes ≤ mk.route.toNat) || decide (mk.width1.toNat < mk.minw1.toNat))) ||
    (decide (op = 4) && (match leaves[leafOf mk]? with | some e => decide (e.1 = 0) || decide (8 < e.1) | none => true)) ||
    (decide (op = 6) && decide (routes ≤ bits w 8 9)) || (decide (op = 0x0C) && decide (plans ≤ bits w 54 10))

/-- Words that offend by the nesting of loops. -/
def loopBad : Nat → List Nat → List Word → List Nat
  | _, open_, [] => open_
  | i, open_, w :: r =>
    match w.toNat % 256 with
    | 0x0A => (if 4 ≤ open_.length then [i] else []) ++ loopBad (i + 1) (i :: open_) r
    | 0x0B => (match open_ with | [] => [i] | _ :: _ => []) ++ loopBad (i + 1) (open_.drop 1) r
    | _ => loopBad (i + 1) open_ r

/-- The first offending word of a program (R318); none when it is accepted. -/
def programBad (leaves : List (Nat × List (Nat × Nat))) (plans routes : Nat) (ws : List Word) : Option Nat :=
  let own := (ws.zipIdx.filter (fun (w, i) => wordBad leaves plans routes i w)).map (·.2)
  let last := if ws ≠ [] ∧ ((ws.getLast?.getD 0).toNat % 256 ≠ 0) then [ws.length - 1] else []
  let long := if 65536 < ws.length then [65536] else []
  (own ++ loopBad 0 [] ws ++ last ++ long).min?

/-- Whether R401 rejects a route; every consecutive endpoint of a tree's leaf counts (R409). -/
def State.routeBad (s : State) (e : Nat × Route) : Bool :=
  let r := e.2
  let tile (x : Nat) : Bool := decide (x < extBase)
  let ext (x : Nat) : Bool := decide (extBase ≤ x) && decide (x < epEnd)
  let block (x : Nat) : List Nat := if r.kind = 3 then (List.range r.near.length).map (x + ·) else [x]
  let far := r.far.flatMap block
  let nearOk := r.near.all (fun x => if r.kind = 2 then ext x else tile x)
  let farOk := r.far.all (fun x => match r.kind with | 1 => ext x | 3 => (block x).all tile || (block x).all ext | _ => tile x)
  let peerOk := (r.near ++ far).all (fun x => tile x || decide (r.kind = 3) || decide ((s.ep x).peermod = r.peer))
  decide (3 < r.kind) || decide (e.1 = 0) || decide (16 < e.1) || !nearOk || !farOk || !peerOk ||
    (r.near ++ far).any (fun x => (s.ep x).svc)

/-! ## Groups (R411, R412) -/

/-- Status of a group's creation, in the order of R411's table; `others` is the status of the other members' modules, 0 when
each would create it. -/
def State.groupStatus (s : State) (d : List Byte) (others : Nat) : Nat :=
  let id := fieldAt d 0 1
  let slots := fieldAt d 1 1
  let n := fieldAt d 2 2
  let raw := (List.range (min n 1024)).map (fun r => fieldAt d (8 + 2 * r) 2)
  let mask := (s.hub.job.map (·.mask)).getD 0
  if s.groups.any (fun e => decide (e.1 = id)) then 1
  else if 64 ≤ s.groups.length then 2
  else if 32 < (s.groups.map (fun (e : Nat × CollGroup) => e.2.tslots)).sum + slots then 3
  else if 63 < id ∨ 8 < slots ∨ n = 0 ∨ 1024 < n ∨ fieldAt d 4 4 ≠ 0 ∨ raw.any (fun v => decide (1024 ≤ v)) ∨ raw.eraseDups.length ≠ n then 4
  else if raw.any (fun v => !bitN mask (v / 16 % 64)) then 5
  else min others 6
/-- A group created when its status is 0. -/
def State.createGroup (s : State) (d : List Byte) (others : Nat) : Nat × State :=
  let st := s.groupStatus d others
  if st = 0 then
    let g : CollGroup := {
      tslots := fieldAt d 1 1
      ranks := (List.range (fieldAt d 2 2)).map (fun r => (fieldAt d (8 + 2 * r) 2 % 16, fieldAt d (8 + 2 * r) 2 / 16 % 64)) }
    (0, { s with groups := Tab.insert (fieldAt d 0 1) g s.groups })
  else (st, s)
/-- A group deleted: 1 while a COLL naming it is accepted and not ended (R412). -/
def State.deleteGroup (s : State) (id : Nat) : Nat × State :=
  if s.tiles.any (fun (e : Nat × Tile) => e.2.coll.ops.any (fun o => decide (o.group = id))) then (1, s)
  else (0, { s with groups := Tab.erase id s.groups })

/-! ## Page tables (R334, R339, R340) -/

/-- A leaf of 64 KiB put into a table; new tables are taken from `next` on. -/
def mapPage (va leaf : Nat) : List (Nat × Nat) → Nat → Nat × Memory → Nat × Memory
  | [], _, q => q
  | [(lo, n)], base, (next, m) => (next, m.writeNat (base + 8 * (va / 2 ^ lo % 2 ^ n)) 8 leaf)
  | (lo, n) :: r, base, (next, m) =>
    let a := base + 8 * (va / 2 ^ lo % 2 ^ n)
    let e := m.readNat a 8
    if bitN e 63 then mapPage va leaf r (e / 2 ^ 7 % 2 ^ 45 * 128) (next, m)
    else mapPage va leaf r next (next + 65536, ((m.zero next 65536).writeNat a 8 (2 ^ 63 + next)))

/-- A section placed on a tile at a physical base. -/
structure Placed where
  sec : Section
  tile : Nat
  base : Nat
  deriving DecidableEq, Repr

/-- The pages of 64 KiB it covers, and whether one of them is the page `v`. -/
def Placed.pages (p : Placed) : Nat := if p.sec.len = 0 then 0 else (p.sec.target + p.sec.len - 1) / 65536 - p.sec.target / 65536 + 1
def Placed.vpages (p : Placed) : List Nat := (List.range p.pages).map (p.sec.target / 65536 + ·)
def Placed.covers (v : Nat) (p : Placed) : Bool :=
  decide (p.sec.target / 65536 ≤ v) && decide (v < p.sec.target / 65536 + p.pages)
/-- The sections of a tile that stand on a page (R480). -/
def onPage (ps : List Placed) (t v : Nat) : List Placed := ps.filter (fun p => decide (p.tile = t) && p.covers v)
/-- The physical page of a virtual one: where the first section that stands on it was placed (log 85). -/
def pageHome (ps : List Placed) (t v : Nat) : Nat :=
  match onPage ps t v with
  | [] => 0
  | p :: _ => p.base / 65536 * 65536 + 65536 * (v - p.sec.target / 65536)
/-- The leaf of a page: V, LEAF, CEIL = C, the permissions of the sections on it and its physical page. A page with code is
executable for the code's class and never writable (R123; log 85). -/
def pageLeaf (ps : List Placed) (t v : Nat) : Nat :=
  let on := onPage ps t v
  2 ^ 63 + 2 ^ 62 + 2 * 2 ^ 60 + 2 ^ 57 +
    (match on.find? (fun p => decide (p.sec.type = 1)) with
      | some p => 2 ^ 55 + p.sec.cls * 2 ^ 52
      | none => if on.any (fun p => decide (p.sec.type = 2)) then 2 ^ 56 else 0) + pageHome ps t v
/-- The part of a section's bytes that stands on a page, and its offset in the page. -/
def Placed.piece (img : List Byte) (p : Placed) (v : Nat) : List Byte :=
  ((p.sec.bytes img).drop (65536 * v - p.sec.target)).take (65536 * (v + 1) - max p.sec.target (65536 * v))

/-- Bytes put into a run at an offset, zeros before them where it was shorter. -/
def layOver (l : List Byte) (o : Nat) (b : List Byte) : List Byte :=
  (l ++ List.replicate (o - l.length) 0).take o ++ b ++ l.drop (o + b.length)
/-- What stands on the pages of a placed section, as far as any section of the tile reaches: the page run the scanner walks
(R123). -/
def runBytes (img : List Byte) (ps : List Placed) (p : Placed) : List Byte :=
  (p.vpages.flatMap (fun v => (onPage ps p.tile v).map (fun x => (x, v)))).foldl (fun l (x, v) =>
    layOver l (max x.sec.target (65536 * v) - p.sec.target / 65536 * 65536) (x.piece img v)) []
/-- The scanner's answer for a code section (R123): its run is every halfword of its pages. -/
def scanPlaced (img : List Byte) (ps : List Placed) (p : Placed) : Option (Nat × Nat) :=
  scanRun p.sec.cls (32768 * p.pages) (runBytes img ps p)

/-- Its leaves point into the region of its space: the second tier for space 7, else the tile's own HBM (R334, R335,
R480). -/
def State.regionOk (s : State) (ps : List Placed) (p : Placed) : Bool :=
  p.vpages.all (fun v =>
    if p.sec.type = 2 ∧ p.sec.space = 7 then s.inTier (pageHome ps p.tile v) 65536 else inHbm p.tile (pageHome ps p.tile v) 65536)

/-- A tile's page tables and pages written from `root` on (R351 step 3, R480): each page is cleared and mapped once, and
each section's bytes stand at its addresses. -/
def State.placeTile (img : List Byte) (ps : List Placed) (root : Nat) (s : State) (t : Nat) : State :=
  let own := ps.filter (fun p => decide (p.tile = t))
  let vs := (own.flatMap Placed.vpages).eraseDups
  let q := vs.foldl (fun (q : Nat × Memory) v =>
    mapPage (65536 * v) (pageLeaf ps t v) walkLevels root (q.1, q.2.zero (pageHome ps t v) 65536)) (root + 65536, s.mem.zero root 8192)
  { s with
    mem := own.foldl (fun m p => p.vpages.foldl (fun m v =>
      m.writeBytes (pageHome ps t v + (p.sec.target - 65536 * v)) (p.piece img v)) m) q.2
    poison := s.poison.filter (fun g => !(vs.any (fun v => decide (64 * g / 65536 = pageHome ps t v / 65536)) ||
      (decide (root ≤ 64 * g) && decide (64 * g < q.1)))) }

/-! ## The steps of a launch (R351) -/

/-- Tiles a section is for. -/
def Section.tiles (x : Section) (all : List Nat) : List Nat := if x.tile = 0xFF then all else [x.tile % 16]
/-- The sections of this module, and the tiles they involve. -/
def moduleSections (img : List Byte) (m : Nat) : List Section := (sectionsOf img).filter (fun x => decide (x.module = m))
/-- The tiles of a module-wide section (R480): those other sections name. DESIGN CHOICE, log 72. -/
def involved (ss : List Section) : List Nat := (List.range 16).filter (fun t => ss.any (fun x => decide (x.tile = t)))

/-- Where firmware puts each section's contents on each tile: `pages` in order. -/
def placements (ss : List Section) (tiles : List Nat) (pages : List Nat) : List Placed :=
  ((ss.filter Section.paged).flatMap (fun x => (x.tiles tiles).map (fun t => (x, t)))).zipIdx.map
    (fun (e, i) => ⟨e.1, e.2, pages.getD i 0⟩)

/-- Step 3's failures: a region not populated, a memory too small, or a fenced tile (R331, R334, R454). -/
def State.regionsBad (s : State) (ss : List Section) (tiles : List Nat) (ps : List Placed) (tables : List Nat) : Bool :=
  ps.any (fun p => !s.regionOk ps p) || (tiles.zipIdx).any (fun (_, i) => !s.populated (tables.getD i 0) 8192) ||
    tiles.any (fun t => bitN s.hub.fenced t) ||
    ss.any (fun x => decide (x.type = 2) && decide (x.space < 4) &&
      (x.tiles tiles).any (fun t => decide (spaceSize s t x.space < x.target + x.len)))

/-- A section of an on-die memory written (R480). -/
def State.loadDirect (img : List Byte) (tiles : List Nat) (s : State) (x : Section) : State :=
  if x.type = 2 ∧ x.space < 4 then
    (x.tiles tiles).foldl (fun s t => { s with mem := s.mem.writeBytes (spaceAddr ⟨t, x.core, 0, 0⟩ x.space x.target) (x.bytes img) }) s
  else s

/-- A receive window table (R304). -/
def State.loadWindows (img : List Byte) (tiles : List Nat) (s : State) (x : Section) : State :=
  if x.type = 9 then
    let b := x.bytes img
    let tab := (List.range (min 64 (b.length / 64))).foldl (fun t i =>
      match handleOfBytes ((b.drop (64 * i)).take 64) with | .ok h => Tab.set {} i h t | .error _ => t) []
    (x.tiles tiles).foldl (fun s t => s.setTile t { s.tile t with windows := tab }) s
  else s

/-- The slots of an involved tile: handle tables, handler entry, context areas. -/
def State.loadSlots (ss : List Section) (obs : LaunchObs) (tiles : List Nat) (s : State) (t : Nat) : State :=
  (List.range 32).foldl (fun s j =>
    let k := 32 * t + j
    let x := ss.find? (fun x => decide (x.type = 3) && decide (x.slot = j % 4) && (x.tiles tiles).contains t)
    let r := (s.slot k).regs
    s.setRegs k { r with
      htbase := addrBits 6 (BitVec.ofNat 64 ((x.map (fun (y : Section) => y.target)).getD 0)), htcnt := min 64 ((x.map (fun (y : Section) => y.len / 64)).getD 0)
      tvec := addrBits 1 obs.tvec, ctxbase := addrBits 12 (obs.ctx + BitVec.ofNat 64 (j * 0x488000)) }) s

/-- Step 5: the graph of an involved tile. -/
def State.loadGraph (ss : List Section) (tiles : List Nat) (s : State) (t : Nat) : State :=
  let x := ss.find? (fun x => decide (x.type = 4) && (x.tiles tiles).contains t)
  s.setTile t { s.tile t with walker := { (s.tile t).walker with
    base := BitVec.ofNat 64 ((x.map (fun (y : Section) => y.target)).getD 0 % 2 ^ 56 / 256 * 256), cnt := (x.map (fun (y : Section) => y.len / 256)).getD 0 % 65536 } }

/-- The bytes of this module's section of a type. -/
def tableBytes (img : List Byte) (ss : List Section) (type : Nat) : List Byte :=
  ((ss.find? (fun x => decide (x.type = type))).map (fun x => x.bytes img)).getD []
def wordsOf (b : List Byte) : List Word := (List.range (b.length / 8)).map (fun i => BitVec.ofNat 64 (fieldAt b (8 * i) 8))

/-- The step a level-2 alarm cancels a launch in (R465), past the last when none has tripped. -/
def State.alarmAt (s : State) (obs : LaunchObs) : Nat := if s.hub.halted then min 5 (max 1 obs.alarmStep) else 6
/-- A launch cancelled in a step: CODE, an unstated DETAIL as a free value (log 17), and the state. -/
def State.launchFails (s : State) (code : Nat) : Nat × Nat × State := (code, Config.freeNat s.free % 2 ^ 32, { s with free := s.free + 1 })

/-- Steps 3 to 6 once nothing has failed (R351, R399). -/
def State.launchRuns (s : State) (img : List Byte) (obs : LaunchObs) (ss : List Section) (tiles : List Nat) (ps : List Placed)
    (ws : List Word) : State :=
  let leaves := leavesOf (tableBytes img ss 6)
  let routes := routesOf (tableBytes img ss 8) (treeLeaves leaves ws)
  let tab (t : Nat) : Nat := obs.tables.getD (tiles.idxOf t) 0 / 8192 * 8192
  let s1 := tiles.foldl (fun s t => s.placeTile img ps (tab t) t) s
  let s2 := tiles.foldl (fun s t => s.setTile t { s.tile t with
    ptroot := BitVec.ofNat 64 (tab t + 1), tcache := [], pend := [], coll := { (s.tile t).coll with insts := [], words := [] } }) s1
  let s3 := ss.foldl (State.loadWindows img tiles) (ss.foldl (State.loadDirect img tiles) s2)
  let s4 := tiles.foldl (State.loadSlots ss obs tiles) s3
  let s5 := tiles.foldl (State.loadGraph ss tiles) s4
  let al := decide (((ws.headD 0).toNat % 256) = 1)
  let s6 := { s5 with
    seq := { words := ws, leaves := leaves.map (fun (x : Nat × List (Nat × Nat)) => x.2), plans := plansOf (tableBytes img ss 7)
             routes := routes.map (fun (x : Nat × Route) => x.2), running := true, aligning := !al, nextAt := s5.stitch + 1 }
    hub := { s5.hub with groupResults := [], job := some { mask := fieldAt img 24 8, tiles := tiles } } }
  let s7 := (ss.filter (fun x => decide (x.type = 10))).foldl (fun s x =>
    let r := s.createGroup (x.bytes img) obs.others
    { r.2 with hub := { r.2.hub with groupResults := r.1 :: r.2.hub.groupResults } }) s6
  s7.once .alignRelease

/-- Steps 2 to 6 on a state whose image has passed step 1 (R351, R465): CODE, DETAIL, and the state. A failure elsewhere
ends it with a step of 1 to 5 that is free (log 17). -/
def State.launchTables (s : State) (img : List Byte) (obs : LaunchObs) : Nat × Nat × State :=
  let s := { s with module := obs.module % 64 }
  let ss := moduleSections img s.module
  let tiles := involved ss
  let ps := placements ss tiles obs.pages
  let leaves := leavesOf (tableBytes img ss 6)
  let ws := wordsOf (tableBytes img ss 5)
  let routes := routesOf (tableBytes img ss 8) (treeLeaves leaves ws)
  if s.alarmAt obs = 2 then s.launchFails 2
  else match (ps.filter (fun p => decide (p.sec.type = 1))).filterMap (scanPlaced img ps) with
  | (r, o) :: _ => (2, o % 2 ^ 32, { s with hub := { s.hub with scan := some (r, o) } })
  | [] =>
    if s.alarmAt obs = 3 ∨ s.regionsBad ss tiles ps obs.tables then s.launchFails 3
    else if s.alarmAt obs = 4 then s.launchFails 4
    else match programBad leaves (plansOf (tableBytes img ss 7)).length routes.length ws with
      | some i => (4, i, { s with free := s.free + 1 })
      | none =>
        if routes.any s.routeBad then s.launchFails 4
        else if s.alarmAt obs = 5 then s.launchFails 5
        else if !obs.othersOk then s.launchFails (1 + Config.freeNat s.free % 5)
        else (0, 0, s.launchRuns img obs ss tiles ps ws)

/-- LAUNCH's six steps (R351): CODE, DETAIL, and the state. -/
def State.launch (s : State) (img : List Byte) (obs : LaunchObs) : Nat × Nat × State :=
  let s0 := if s.hub.fresh then s.clearLining else s
  if s0.alarmAt obs = 1 ∨ imageBad img s0.hub.sec.launchKey then s0.launchFails 1
  else s0.launchTables img obs

/-- Firmware's placement of a launch the host asked for by a register write: one after another in each tile's HBM, and
those of space 7 in the second tier's port 1 (log 25). -/
def State.placeLaunch (s : State) (img : List Byte) : LaunchObs :=
  let ss := moduleSections img s.module
  let tiles := involved ss
  let units := (ss.filter Section.paged).flatMap (fun x => (x.tiles tiles).map (fun t =>
    (if x.type = 2 ∧ x.space = 7 then 2 ^ 47 + 2 ^ 40 else t * 2 ^ 36 + 2 ^ 30, (x.len + x.target % 65536 + 65535) / 65536 * 65536)))
  let pages := (units.foldl (fun (q : Tab Nat × List Nat) u =>
    let at_ := Tab.get 0 u.1 q.1
    (Tab.set 0 u.1 (at_ + u.2) q.1, q.2 ++ [u.1 + at_])) ([], [])).2
  { pages := pages, tables := tiles.map (fun t => t * 2 ^ 36 + 2 ^ 20), module := s.module, tvec := Config.freeWord s.free
    ctx := Config.freeWord (s.free + 1), othersOk := true, others := 0 }

end Sys2Proof.Machine
end

