-- ==== Sys2Proof/Machine/Management.lean ====
section
/-!
DEFINITION. The launch mailbox and its requests (R423, R451, R452, R456, R459, R460, R462, R464).
-/
namespace Sys2Proof.Machine

/-- The request's body in host memory (R422, R451). -/
def State.bodyAddr (s : State) : Nat := 0xC00000000000 + s.hub.mbaddr
def State.body (s : State) : List Byte := s.mem.readBytes s.bodyAddr s.hub.mblen

/-- A request ends: CODE, DETAIL, DONE, and MSI-X vector 64 (R423, R451). -/
def State.endRequest (s : State) (code detail : Nat) : State :=
  { s with hub := { s.hub with busy := false, done := true, code := code % 256, detail := detail % 2 ^ 32, msix := 64 :: s.hub.msix } }

/-- A request from outside reaches the module (R420, R422, R451): over CXL port 0 of the bridge, or over a service circuit
whose peer is TRUSTED. In recovery mode, where no peer has been measured, any service circuit carries it (R460;
DEDUCED, log 71). -/
def State.requestReaches (s : State) : Bool :=
  (Config.isBridge s.module && !bitN s.hub.cxlDown 0) ||
    s.links.any (fun (e : Nat × Link) => e.2.service.isSome && (s.hub.recovery || decide (e.2.trust = 1)))
/-- A mailbox row: one that does not reach the module does nothing; while BUSY a write to MBCMD is ignored (R451). -/
def State.served (s : State) (f : State → State) : Out := .next (if !s.requestReaches || s.hub.busy then s else f s)
/-- In recovery mode RECOVER is served (R460), and CLEARJ, without which the module would stay there (R456; DESIGN CHOICE,
log 41); every other row ends with 0xFF. -/
def State.request (s : State) (f : State → State) : Out :=
  s.served (fun s => if s.hub.recovery then s.endRequest 0xFF 0 else f s)

/-- LAUNCH. -/
def State.doLaunch (obs : LaunchObs) (s : State) : State :=
  let r := s.launch s.body obs
  r.2.2.endRequest r.1 r.2.1
def execLaunch (obs : LaunchObs) (s : State) : Out := s.request (State.doLaunch obs)

/-- CANCEL: the job's walkers stop and its circuit program ends; 1 when there is no job. -/
def State.doCancel (s : State) : State :=
  match s.hub.job with
  | none => s.endRequest 1 0
  | some j =>
    let s1 := j.tiles.foldl (fun s t => s.walkStop t) s
    let s2 := if s1.seq.running then s1.seqEnd else s1
    { s2 with hub := { s2.hub with job := none } }.endRequest 0 0
def execCancel (s : State) : Out := s.request State.doCancel

/-- RECOVER (R459, R460): the image is checked, then written; the module resets. A write that an alarm or a loss of power
ends leaves an image that fails step 2, and the next boot enters recovery mode (R460, R465). -/
def State.doRecover (write : FlashWrite) (s : State) : State :=
  let img := s.body
  let c := fwCheck s.hub.rollback img
  if c ≠ 0 then s.endRequest c 0
  else match write with
    | .failed => s.endRequest 4 0
    | .torn => { s with hub := { s.hub with torn := true, failed := Nat.lor s.hub.failed 4 } }
    | .written => ({ s with hub := { s.hub with flash := img, torn := false } }.endRequest 0 0).soon .moduleReset
def execRecover (write : FlashWrite) (s : State) : Out := s.served (State.doRecover write)

/-- GROUP create and delete (R411, R412). -/
def State.doGroup (others : Nat) (s : State) : State :=
  let r := s.createGroup s.body others
  r.2.endRequest r.1 0
def execGroupCreate (others : Nat) (s : State) : Out := s.request (State.doGroup others)
def State.doUngroup (s : State) : State :=
  let r := s.deleteGroup (fieldAt s.body 0 1)
  r.2.endRequest r.1 0
def execGroupDelete (s : State) : Out := s.request State.doUngroup

/-- SECCFG (R462, R464): signed by the installed owner root, or any well-formed one when there is none; no block has more
than 16 allowed digests. -/
def State.doSeccfg (s : State) : State :=
  let b := s.body
  let h := s.hub
  if h.sec.root ≠ [] ∧ !Config.secSigned h.sec.root b then s.endRequest 1 0
  else if !Config.secOk b ∨ [1, 2, 3].any (fun n => decide (16 < (Config.secAllowed b n).length)) then s.endRequest 2 0
  else
    let c : SecConfig := { root := Config.secRoot b, endorsement := Config.secEndorsement b, allowed1 := Config.secAllowed b 1
                           allowed2 := Config.secAllowed b 2, allowed3 := Config.secAllowed b 3, launchKey := Config.secLaunchKey b
                           levels := Config.secLevels b % 65536, warn := Config.secWarn b }
    { s with hub := { h with sec := c, levels := c.levels } }.endRequest 0 0
def execSeccfg (s : State) : Out := s.request State.doSeccfg

/-- LOGREAD: the journal and runtime log at the body address, as much as the body holds. -/
def State.doLogread (s : State) : State :=
  let l := s.hub.journalFields ++ s.hub.log.flatMap (fun e => [e.1, e.2.toNat])
  { s with mem := s.mem.writeBytes s.bodyAddr ((Config.logBytes l).take s.hub.mblen) }.endRequest 0 0
def execLogread (s : State) : Out := s.request State.doLogread

/-- A journal without its failures. -/
def clearFailures (j : Tab JournalEntry) : Tab JournalEntry :=
  (j.map (fun e => (e.1, if e.2.state = 2 then e.2 else ({} : JournalEntry)))).filter (fun e => decide (e.2 ≠ {}))
/-- CLEARJ (R456). -/
def State.doClearj (s : State) : State :=
  { s with hub := { s.hub with failed := 0, badCores := [], journal := clearFailures s.hub.journal, lastBoot := clearFailures s.hub.lastBoot } }.endRequest 0 0
def execClearj (s : State) : Out := s.served State.doClearj

/-- Any other request code: 0xFF. -/
def execMbcmdInvalid (op : Nat) (s : State) : Out :=
  if 1 ≤ op ∧ op ≤ 8 then .next s else s.request (fun s => s.endRequest 0xFF 0)

/-- The request a write to MBCMD started, with BUSY set; what the rows leave to the outside is as firmware and the
other modules do it when nothing fails (log 25). -/
def State.mailbox (s : State) (op : Nat) : State :=
  if !s.hub.busy then s
  else if s.hub.recovery ∧ op ≠ 3 ∧ op ≠ 8 then s.endRequest 0xFF 0
  else match op with
    | 1 => { s with free := s.free + 2 }.doLaunch (s.placeLaunch s.body)
    | 2 => s.doCancel
    | 3 => s.doRecover .written
    | 4 => s.doGroup 0
    | 5 => s.doUngroup
    | 6 => s.doSeccfg
    | 7 => s.doLogread
    | 8 => s.doClearj
    | _ => s.endRequest 0xFF 0

end Sys2Proof.Machine
end

