-- ==== Sys2Proof/Machine/Scalar.lean ====
section
/-!
DEFINITION. Integer register, immediate, bit and random-number instructions (R156 to R160).
-/
namespace Sys2Proof.Machine

/-- An R-form instruction that writes xD from registers and sets no flag (R134, R156). -/
def aluR (t : Tack) (d : Reg) (f : State → Word) (s : State) : Out :=
  issue 4 t (fun s => .done (s.setX d (f s))) s
/-- An I-form or U-form instruction that writes xD (R157, R158). -/
def aluI (t : Tack) (d : Reg) (f : State → Word) (s : State) : Out :=
  issueX 4 t (fun s => .done (s.setX d (f s))) s

def execAddR (d a b : Reg) (t : Tack) (s : State) : Out := aluR t d (fun s => s.x a + s.x b) s
def execSubR (d a b : Reg) (t : Tack) (s : State) : Out := aluR t d (fun s => s.x a - s.x b) s
def execMulR (d a b : Reg) (t : Tack) (s : State) : Out := aluR t d (fun s => s.x a * s.x b) s
def execMulh (d a b : Reg) (t : Tack) (s : State) : Out := aluR t d (fun s => aluMulh (s.x a) (s.x b)) s
def execMulhu (d a b : Reg) (t : Tack) (s : State) : Out := aluR t d (fun s => aluMulhu (s.x a) (s.x b)) s
def execDivI (d a b : Reg) (t : Tack) (s : State) : Out := aluR t d (fun s => aluDiv (s.x a) (s.x b)) s
def execDivu (d a b : Reg) (t : Tack) (s : State) : Out := aluR t d (fun s => aluDivu (s.x a) (s.x b)) s
def execRemI (d a b : Reg) (t : Tack) (s : State) : Out := aluR t d (fun s => aluRem (s.x a) (s.x b)) s
def execRemu (d a b : Reg) (t : Tack) (s : State) : Out := aluR t d (fun s => aluRemu (s.x a) (s.x b)) s
def execAndR (d a b : Reg) (t : Tack) (s : State) : Out := aluR t d (fun s => s.x a &&& s.x b) s
def execOrR (d a b : Reg) (t : Tack) (s : State) : Out := aluR t d (fun s => s.x a ||| s.x b) s
def execXorR (d a b : Reg) (t : Tack) (s : State) : Out := aluR t d (fun s => s.x a ^^^ s.x b) s
def execShl (d a b : Reg) (t : Tack) (s : State) : Out := aluR t d (fun s => aluShl (s.x a) (s.x b).toNat) s
def execShrl (d a b : Reg) (t : Tack) (s : State) : Out := aluR t d (fun s => aluShrl (s.x a) (s.x b).toNat) s
def execShra (d a b : Reg) (t : Tack) (s : State) : Out := aluR t d (fun s => aluShra (s.x a) (s.x b).toNat) s
def execMinS (d a b : Reg) (t : Tack) (s : State) : Out := aluR t d (fun s => aluMin (s.x a) (s.x b)) s
def execMaxS (d a b : Reg) (t : Tack) (s : State) : Out := aluR t d (fun s => aluMax (s.x a) (s.x b)) s
def execMinu (d a b : Reg) (t : Tack) (s : State) : Out := aluR t d (fun s => aluMinu (s.x a) (s.x b)) s
def execMaxu (d a b : Reg) (t : Tack) (s : State) : Out := aluR t d (fun s => aluMaxu (s.x a) (s.x b)) s
def execSeq (d a b : Reg) (t : Tack) (s : State) : Out := aluR t d (fun s => aluBool (s.x a == s.x b)) s
def execSlt (d a b : Reg) (t : Tack) (s : State) : Out :=
  aluR t d (fun s => aluBool (decide ((s.x a).toInt < (s.x b).toInt))) s
def execSltu (d a b : Reg) (t : Tack) (s : State) : Out :=
  aluR t d (fun s => aluBool (decide ((s.x a).toNat < (s.x b).toNat))) s
/-- SEL reads D before writing it (R156). -/
def execSel (d a b : Reg) (t : Tack) (s : State) : Out := aluR t d (fun s => if s.x d ≠ 0 then s.x a else s.x b) s
def execClz (d a : Reg) (t : Tack) (s : State) : Out := aluR t d (fun s => aluClz (s.x a)) s

def execAddi (d a : Reg) (imm : BitVec 9) (t : Tack) (s : State) : Out :=
  aluI t d (fun s => s.x a + word (s.immI imm)) s
def execAndi (d a : Reg) (imm : BitVec 9) (t : Tack) (s : State) : Out :=
  aluI t d (fun s => s.x a &&& word (s.immI imm)) s
def execOri (d a : Reg) (imm : BitVec 9) (t : Tack) (s : State) : Out :=
  aluI t d (fun s => s.x a ||| word (s.immI imm)) s
def execXori (d a : Reg) (imm : BitVec 9) (t : Tack) (s : State) : Out :=
  aluI t d (fun s => s.x a ^^^ word (s.immI imm)) s
def execShli (d a : Reg) (imm : BitVec 9) (t : Tack) (s : State) : Out :=
  aluI t d (fun s => aluShl (s.x a) (word (s.immI imm)).toNat) s
def execShrli (d a : Reg) (imm : BitVec 9) (t : Tack) (s : State) : Out :=
  aluI t d (fun s => aluShrl (s.x a) (word (s.immI imm)).toNat) s
def execShrai (d a : Reg) (imm : BitVec 9) (t : Tack) (s : State) : Out :=
  aluI t d (fun s => aluShra (s.x a) (word (s.immI imm)).toNat) s
def execSlti (d a : Reg) (imm : BitVec 9) (t : Tack) (s : State) : Out :=
  aluI t d (fun s => aluBool (decide ((s.x a).toInt < s.immI imm))) s
def execMuli (d a : Reg) (imm : BitVec 9) (t : Tack) (s : State) : Out :=
  aluI t d (fun s => s.x a * word (s.immI imm)) s

def execLi (d : Reg) (imm : BitVec 15) (t : Tack) (s : State) : Out := aluI t d (fun s => word (s.immUS imm)) s
/-- LIH (R158): bits 63:38 from the immediate, bits 37:0 kept. -/
def execLih (d : Reg) (imm : BitVec 15) (t : Tack) (s : State) : Out :=
  aluI t d (fun s => BitVec.ofNat 64 ((s.x d).toNat % 2 ^ 38 + s.immU imm % 2 ^ 26 * 2 ^ 38)) s

def execPopc (d a : Reg) (t : Tack) (s : State) : Out := aluR t d (fun s => aluPopc (s.x a)) s
def execBfx (d a b : Reg) (signed : Bool) (t : Tack) (s : State) : Out :=
  aluR t d (fun s => aluBfx (s.x a) (s.x b) signed) s
def execBfi (d a b : Reg) (t : Tack) (s : State) : Out := aluR t d (fun s => aluBfi (s.x d) (s.x a) (s.x b)) s
def execClamp (d a b : Reg) (uns : Bool) (t : Tack) (s : State) : Out :=
  aluR t d (fun s => aluClamp (s.x d) (s.x a) (s.x b) uns) s

/-- The two words RNDC writes (R100, R160). -/
def rndcWords (a b e : Word) : Word × Word :=
  let y := cg8 (bits a 0 32) (bits a 32 32) (bits b 0 32) (bits b 32 32) (bits e 0 32) (bits e 32 32)
  (BitVec.ofNat 64 (y.2.1 * 2 ^ 32 + y.1), BitVec.ofNat 64 (y.2.2.2 * 2 ^ 32 + y.2.2.1))
/-- RNDC (R160): both results written after all operands are read. -/
def execRndc (d a b : Reg) (t : Tack) (s : State) : Out :=
  issue 4 t (fun s =>
    let y := rndcWords (s.x a) (s.x b) (s.x (b + 1))
    .done ((s.setX d y.1).setX (d + 1) y.2)) s

end Sys2Proof.Machine
end

