-- ==== Sys2Proof/Machine/Transform.lean ====
section
/-!
DEFINITION. The transform engines and SEMS.DISARM (R148, R149, R189, R229, R323 to R327, R477).
-/
namespace Sys2Proof.Machine

/-! ## Engines and records (R323) -/

def State.xfm (s : State) (tile e : Nat) : Xfm := if e = 0 then (s.tile tile).xfm0 else (s.tile tile).xfm1
def State.setXfm (s : State) (tile e : Nat) (g : Xfm) : State :=
  let t := s.tile tile
  s.setTile tile (if e = 0 then { t with xfm0 := g } else { t with xfm1 := g })

/-- Groups of the tensor of a PLYSPLIT or PLYJOIN record. -/
def XfmOp.rowGroups (o : XfmOp) : Nat := (o.p0 * o.p1 + 15) / 16
/-- Its handles' widths. -/
def XfmOp.ws (o : XfmOp) : Nat := typeWidth o.src.type
def XfmOp.wd (o : XfmOp) : Nat := typeWidth o.dst.type

/-- Units and bytes a side covers from its offset (R324): of an element-unit handle its elements, else bytes. -/
def sideUnits (h : Handle) (elems bytes : Nat) : Nat := if elemUnit h.type then elems else bytes
/-- The unit counts of source and destination. -/
def XfmOp.units (o : XfmOp) : Nat × Nat :=
  match o.opc with
  | 0 => (768 * o.p0, o.p1)
  | 1 => (o.p1, 768 * o.p0)
  | 2 => (sideUnits o.src (o.p0 * o.p1) (o.p0 * o.p1 * o.ws / 8), sideUnits o.dst (o.p0 * o.p1) (o.p0 * o.p1 * o.wd / 8))
  | 3 => (2048 * o.p0, 768 * o.rowGroups)
  | 4 => (768 * o.rowGroups, 2048 * o.p0)
  | _ => (sideUnits o.src o.p0 ((o.p0 * o.ws + 7) / 8), sideUnits o.dst o.p0 ((o.p0 * o.wd + 7) / 8))

/-- First group of a PB side, and the bytes of S0 and the plies of `G` groups (R85, R324). -/
def firstGroup (h : Handle) (off : Int) : Nat := ((h.wstart + off) / 768).toNat
def rawSize (G q : Nat) : Nat := 16 + scaleSlab G + 192 * G * q

/-- The byte ranges past BASE a side covers. -/
def sideRanges (h : Handle) (off : Int) (units : Nat) : List (Nat × Nat) :=
  if units = 0 then []
  else if isPB h.type then
    let g := firstGroup h off
    let n := (units + 767) / 768
    (16 * g, 16 * n) :: (List.range (pbPlies h.type)).map (fun k => (scaleSlab h.groups + 192 * h.groups * k + 192 * g, 192 * n))
  else if elemUnit h.type then
    let b := ((h.wstart + off) * typeWidth h.type).toNat
    [(b / 8, (b % 8 + units * typeWidth h.type + 7) / 8)]
  else [((h.wstart + off).toNat, units)]
/-- The flat runs of a side. -/
def sideRuns (p : Place) (h : Handle) (hidx : Nat) (off : Int) (units : Nat) : List (Nat × Nat) :=
  (sideRanges h off units).map (fun r => (spaceAddr (h.view p hidx).place h.space (h.base + r.1), r.2))

/-- A byte window: a byte-unit handle (R324). -/
def byteWin (t : Nat) : Bool := !elemUnit t && !isPB t && decide (typeWidth t ≠ 0)
def rowType (t : Nat) : Bool := decide (t = 0) || decide (t = 1)
/-- A record that is wrong by itself: its OPC, SR in CAST, NB (R324). -/
def XfmOp.recordBad (o : XfmOp) : Bool :=
  decide (5 < o.opc) || (decide (o.opc = 5) && decide (o.mode % 8 = 5)) ||
    ((decide (o.opc = 3) || decide (o.opc = 4)) && (decide (o.p1 = 0) || decide (10 < o.p1)))
/-- The rules of R324 on types. -/
def XfmOp.formatBad (o : XfmOp) : Bool :=
  let st := o.src.type
  let dt := o.dst.type
  match o.opc with
  | 0 => !(isPB st && byteWin dt)
  | 1 => !(byteWin st && isPB dt)
  | 2 => !(decide (st = dt) && !isPB st && [8, 16, 32, 64].contains o.ws)
  | 3 => !(rowType st && isPB dt) || (decide (st = 0) && decide (4 < pbPlies dt))
  | 4 => !(isPB st && rowType dt) || (decide (dt = 0) && decide (4 < pbPlies st))
  | _ => isPB st || isPB dt || decide (o.ws = 0) || decide (o.wd = 0)

/-- The two sides' runs share a byte. -/
def XfmOp.overlaps (o : XfmOp) : Bool :=
  let u := o.units
  let d := sideRuns o.place o.dst o.didx o.doff u.2
  (sideRuns o.place o.src o.sidx o.soff u.1).any (fun a => d.any (fun b => decide (a.1 < b.1 + b.2) && decide (b.1 < a.1 + a.2)))

/-- A side reaches outside its window or memory (R200). -/
def State.sideOut (s : State) (h : Handle) (hidx : Nat) (off : Int) (units : Nat) : Bool :=
  decide (off < 0) || decide (off + units > h.bound) ||
    (sideRanges h off units).any (fun r => decide (spaceSize s (h.view s.cur hidx).place.tile h.space < h.base + r.1 + r.2))

/-- Acceptance (R324), in the order its text lists the faults; a handle's empty window and space 9 come before the checks
of its types (R20, R54, R200). -/
def State.xfmChecks (s : State) (a : Nat) (o : XfmOp) (wv sv : Bool) : Option Event :=
  let u := o.units
  let ev (c : Nat) (src : Bool) : Event :=
    if src then endFault c o.src o.sidx false (max 8 o.ws) o.soff u.1 else endFault c o.dst o.didx true (max 8 o.wd) o.doff u.2
  let on (bad : Bool) (e : Event) : Option Event := if bad then some e else none
  let sel (v : Bool) (n : Nat) : Option Event := on (v && selBad n) { code := 0x01, info1 := tinfo1 n 0 false true a, info2 := BitVec.ofNat 64 n }
  let q := if o.opc = 0 then pbPlies o.src.type else pbPlies o.dst.type
  firstBad [
    on o.recordBad (patFault 0x0B a 0),
    on (decide (u.1 ≠ 0) && decide (o.src.bound = 0)) (ev 0x01 true), on (decide (u.2 ≠ 0) && decide (o.dst.bound = 0)) (ev 0x01 false),
    on (decide (o.src.space = 9) && !s.cur.thimble) (ev 0x0D true), on (decide (o.dst.space = 9) && !s.cur.thimble) (ev 0x0D false),
    on o.formatBad (patFault 0x0B a 0), on o.overlaps (patFault 0x0B a 0),
    on (!(decide (o.src.space = 1) || decide (o.src.space = 2)) || !o.src.pr) (ev 0x04 true),
    on (!(decide (o.dst.space = 1) || decide (o.dst.space = 2)) || !o.dst.pw) (ev 0x04 false),
    on (s.sideOut o.src o.sidx o.soff u.1) (ev 0x01 true), on (s.sideOut o.dst o.didx o.doff u.2) (ev 0x01 false),
    sel wv o.wsel, sel sv o.ssel,
    on (!o.src.layoutOk o.soff) (ev 0x0C true), on (!o.dst.layoutOk o.doff) (ev 0x0C false),
    on ((decide (o.opc = 0) || decide (o.opc = 1)) &&
      (decide (o.p1 % 64 ≠ 0) || decide (o.p1 < 64 * ((rawSize o.p0 q + 63) / 64)))) (patFault 0x0B a (BitVec.ofNat 64 o.p1))]

/-- The record at an operand (R323). -/
def State.xfmOf (s : State) (bs : List Byte) (recOff ticket : Nat) : XfmOp :=
  let q (o n : Nat) : Nat := leNat ((bs.drop o).take n)
  { ticket := ticket, place := s.cur, task := (s.mySlot.task.map (·.id)).getD 0, opc := q 0 1, mode := q 3 1 % 16
    wsel := q 4 2, ssel := q 6 2, wthr := BitVec.ofNat 32 (q 8 4), sinc := BitVec.ofNat 32 (q 12 4)
    src := s.h (BitVec.ofNat 6 (q 1 1)), dst := s.h (BitVec.ofNat 6 (q 2 1)), sidx := q 1 1 % 64, didx := q 2 1 % 64
    soff := sext 64 (q 16 8), doff := sext 64 (q 24 8), p0 := q 32 4, p1 := q 36 4, p2 := q 40 4, recOff := recOff }

/-- XFM (R323). -/
def execXfm (d : Reg) (m : MemOp) (e1 : Bool) (t : Tack) (s : State) : Out :=
  issueX 4 t (fun s =>
    let e := if e1 then 1 else 0
    let g := s.xfm s.cur.tile e
    if 32 ≤ g.queue.length then .wait false s
    else
      let h := s.h m.h
      let off := s.offM m
      let n := if elemUnit h.type then 512 / max 1 (typeWidth h.type) else 64
      (s.checkMem h m.h.toNat off { acc := .read, spaces := [1], pr := true, pw := false, typeOk := !isPB h.type
                                    align := 64, n := n, ranges := [((h.unitByte off).toNat, 64)] }).andThen fun segs _ s =>
        let ticket := (g.accepted + 1).toNat
        let o := s.xfmOf (readSegs s.settle.mem segs.flatten) ((h.base : Int) + h.unitByte off).toNat ticket
        let wv := bitN o.wsel 15
        let sv := bitN o.ssel 15
        let o := { o with
          wsel := o.wsel % 512 + (if wv then 2 ^ 15 else 0), ssel := o.ssel % 512 + (if sv then 2 ^ 15 else 0)
          passed := !wv || semPasses (s.sem s.cur.tile s.cur.core (o.wsel % 512)).v o.wthr }
        match s.xfmChecks m.h.toNat { o with wsel := o.wsel % 512, ssel := o.ssel % 512 } wv sv with
        | some ev => .trap ev s
        | none =>
          let s0 := s.settle
          let s1 := s0.setXfm s.cur.tile e { g with queue := g.queue ++ [o], accepted := g.accepted + 1, status := ((ticket, 0) :: g.status).take 64 }
          let s2 := { s1 with mem := s1.mem.writeNat (spaceAddr s.cur 1 o.recOff + 44) 4 0 }
          .done ((s2.once (.xfmRecordStart s.cur.tile e)).setX d (BitVec.ofNat 64 (ticket + e * 2 ^ 32)))) s

/-! ## What a record writes (R324, R325) -/

/-- A record's result: its output in units, each of writes (bit address, width, value) made together; whether they are ply
writes (R192), STATUS, what OUTSZ counts for a unit, and which units have saturated. -/
structure XfmResult where
  units : List (List (Nat × Nat × Nat)) := []
  ply : Bool := false
  status : Nat := 0x01
  size : Nat := 0
  sats : List Bool := []
  deriving DecidableEq, Repr

/-- What OUTSZ counts for a unit of `bytes` bytes and `elems` elements: "bytes or elements written" (R323), which of the two
is the implementation's for UNPACK, PLYSPLIT and PLYJOIN (log 24). -/
def unitSize (opc bytes elems : Nat) : Nat := if Config.outszInBytes opc then bytes else elems

/-- The first flat address of a side. -/
def sideAddr (p : Place) (h : Handle) (hidx : Nat) (byte : Nat) : Nat := spaceAddr (h.view p hidx).place h.space (h.base + byte)
/-- A run of bytes as one write. -/
def byteRun (a : Nat) (bs : List Byte) : Nat × Nat × Nat := (8 * a, 8 * bs.length, leNat bs)
/-- A group's writes into a tensor: scales, then plies (R85). -/
def groupWrites (p : Place) (h : Handle) (hidx g : Nat) (gr : Group) : List (Nat × Nat × Nat) :=
  byteRun (sideAddr p h hidx (16 * g)) (gr.scales.map (fun x => BitVec.ofNat 8 x)) ::
    (gr.plies.zipIdx).map (fun (r, k) =>
      byteRun (sideAddr p h hidx (scaleSlab h.groups + 192 * h.groups * k + 192 * g)) (r.flatMap (fun n => leBytes 12 n)))
/-- `n` groups of a tensor from group `g`. -/
def State.groupsAt (s : State) (p : Place) (h : Handle) (hidx g n q : Nat) : List Group :=
  (List.range n).map (fun i => s.readGroup (h.view p hidx) h.groups (g + i) q)

/-- The tensor bytes of R85 of groups that stand alone. -/
def rawGroups (G q : Nat) (gs : List Group) : List Byte :=
  let sc := gs.flatMap (fun g => g.scales.map (fun x => BitVec.ofNat 8 x))
  sc ++ List.replicate (scaleSlab G - 16 * G) 0 ++
    (List.range q).flatMap (fun k => gs.flatMap (fun g => (g.plies.getD k []).flatMap (fun n => leBytes 12 n)))
/-- The records of groups in the order group, ply, block (R325). -/
def packRecords (gs : List Group) : List Nat := gs.flatMap (fun g => g.plies.flatten)
/-- A header of R325. -/
def packHeader (G q : Nat) (raw : Bool) (used : Nat) : List Byte :=
  leBytes 4 G ++ leBytes 1 q ++ leBytes 1 (if raw then 1 else 0) ++ leBytes 2 0 ++ leBytes 4 used ++ leBytes 4 0
/-- The bitmap word of one ply of one group. -/
def bitmapOf (r : List Nat) : Nat := ((r.zipIdx).map (fun (n, b) => if n = 0 then 0 else 2 ^ b)).foldl (· + ·) 0

/-- PACK (R325); stepping B1 stores the tensor raw when the packed form fills PSIZE exactly (R477). -/
def State.xfmPack (s : State) (o : XfmOp) : XfmResult :=
  let q := pbPlies o.src.type
  let G := o.p0
  let gs := s.groupsAt o.place o.src o.sidx (firstGroup o.src o.soff) G q
  let n := (packRecords gs).countP (· ≠ 0)
  let used := 16 + 16 * G + 2 * q * G + 12 * n
  let raw := decide (o.p1 ≤ used)
  let body :=
    if raw then packHeader G q true (rawSize G q) ++ rawGroups G q gs
    else packHeader G q false used ++ gs.flatMap (fun g => g.scales.map (fun x => BitVec.ofNat 8 x)) ++
      gs.flatMap (fun g => g.plies.flatMap (fun r => leBytes 2 (bitmapOf r))) ++
      ((packRecords gs).filter (· ≠ 0)).flatMap (fun n => leBytes 12 n)
  let bytes := body ++ List.replicate (o.p1 - body.length) 0
  let a := sideAddr o.place o.dst o.didx (o.dst.wstart + o.doff).toNat
  { units := (List.range (o.p1 / 64)).map (fun i => [byteRun (a + 64 * i) ((bytes.drop (64 * i)).take 64)])
    status := if raw then 0x03 else 0x01, size := 64 }

/-- The plies of one group from its bitmap words and the records left. -/
def unpackPlies : List Nat → List Nat → List (List Nat) × List Nat
  | [], rs => ([], rs)
  | m :: ms, rs =>
    let r := (List.range 16).foldl (fun (acc : List Nat × List Nat) b =>
      if bitN m b then (acc.1 ++ [acc.2.headD 0], acc.2.drop 1) else (acc.1 ++ [0], acc.2)) (([], rs) : List Nat × List Nat)
    let rest := unpackPlies ms r.2
    (r.1 :: rest.1, rest.2)
/-- Groups from scale bytes, bitmap words and records. -/
def unpackGroups (q : Nat) : Nat → List Nat → List Nat → List Nat → List Group
  | 0, _, _, _ => []
  | n + 1, sc, ms, rs =>
    let r := unpackPlies (ms.take q) rs
    { scales := sc.take 16, plies := r.1 } :: unpackGroups q n (sc.drop 16) (ms.drop q) r.2
/-- Sixteen-bit words. -/
def halves : Nat → List Byte → List Nat
  | 0, _ => []
  | n + 1, bs => leNat (bs.take 2) :: halves n (bs.drop 2)

/-- UNPACK (R325): a bad header or bitmap leaves the destination untouched. -/
def State.xfmUnpack (s : State) (o : XfmOp) : XfmResult :=
  let q := pbPlies o.dst.type
  let G := o.p0
  let bs := s.mem.readBytes (sideAddr o.place o.src o.sidx (o.src.wstart + o.soff).toNat) o.p1
  let f (a n : Nat) : Nat := leNat ((bs.drop a).take n)
  let raw := bitN (f 5 1) 0
  let ms := halves (q * G) (bs.drop (16 + 16 * G))
  let ones := (ms.map (fun m => ((List.range 16).filter (fun b => bitN m b)).length)).foldl (· + ·) 0
  let bad := decide (f 4 1 ≠ q) || decide (f 0 4 ≠ G) || decide (o.p1 < f 8 4) ||
    (!raw && decide (f 8 4 ≠ 16 + 16 * G + 2 * q * G + 12 * ones))
  if bad then { status := 0x0C }
  else
    let gs : List Group :=
      if raw then
        let t := bs.drop 16
        (List.range G).map (fun g =>
          { scales := ((t.drop (16 * g)).take 16).map BitVec.toNat
            plies := (List.range q).map (fun k => recs12 16 (t.drop (scaleSlab G + 192 * G * k + 192 * g))) })
      else unpackGroups q G ((bs.drop 16).map BitVec.toNat) ms (recs12 ones (bs.drop (16 + 16 * G + 2 * q * G)))
    { units := (gs.zipIdx).map (fun (g, i) => groupWrites o.place o.dst o.didx (firstGroup o.dst o.doff + i) g), ply := true
      size := unitSize 1 (16 + 192 * q) 768 }

/-- Bit address of element `i` of a side. -/
def elemAddr (p : Place) (h : Handle) (hidx w : Nat) (off : Int) (i : Nat) : Nat :=
  let b := if elemUnit h.type then ((h.wstart + off) * w).toNat + i * w else 8 * (h.wstart + off).toNat + i * w
  8 * spaceAddr (h.view p hidx).place h.space h.base + b
def State.elemAt (s : State) (o : XfmOp) (i : Nat) : Nat := s.mem.readBits (elemAddr o.place o.src o.sidx o.ws o.soff i) o.ws

/-- TRANSPOSE (R324). -/
def State.xfmTranspose (s : State) (o : XfmOp) : XfmResult :=
  { units := (List.range (o.p0 * o.p1)).map (fun k =>
      [(elemAddr o.place o.dst o.didx o.wd o.doff k, o.wd, s.elemAt o (k % o.p0 * o.p1 + k / o.p0))])
    size := 1 }

/-- CAST (R255, R324). -/
def State.xfmCast (s : State) (o : XfmOp) : XfmResult :=
  let r := (List.range o.p0).map (fun i => cvtLane o.src.type o.dst.type (o.mode % 8) (bitN o.mode 3) 0 (s.elemAt o i))
  { units := (r.zipIdx).map (fun (x, i) => [(elemAddr o.place o.dst o.didx o.wd o.doff i, o.wd, x.1)])
    size := 1, sats := r.map (fun x => decide (x.2 / fSAT % 2 = 1)) }

/-- Block `b` of quantised row `i` at a byte offset: X and 48 mantissas (R268). -/
def State.rowBlock (s : State) (a w i b : Nat) : Nat × List Int :=
  (s.mem.readNat (a + 2048 * i + 1984 + b) 1,
    (List.range 48).map (fun j => sext w (s.mem.readNat (a + 2048 * i + (48 * b + j) * w / 8) (w / 8))))

/-- PLYSPLIT (R324, R84). -/
def State.xfmSplit (s : State) (o : XfmOp) : XfmResult :=
  let q := pbPlies o.dst.type
  let a := sideAddr o.place o.src o.sidx (o.src.wstart + o.soff).toNat
  let bl := (List.range (16 * o.rowGroups)).map (fun k =>
    if k < o.p0 * o.p1 then s.rowBlock a o.ws (k / o.p1) (k % o.p1) else (0, List.replicate 48 0))
  { units := (List.range o.rowGroups).map (fun g =>
      groupWrites o.place o.dst o.didx (firstGroup o.dst o.doff + g) (Group.ofBlocks q ((bl.drop (16 * g)).take 16)))
    ply := true, size := unitSize 3 (16 + 192 * q) 768 }

/-- PLYJOIN (R324). -/
def State.xfmJoin (s : State) (o : XfmOp) : XfmResult :=
  let q := pbPlies o.src.type
  let a := sideAddr o.place o.dst o.didx (o.dst.wstart + o.doff).toNat
  let gs := s.groupsAt o.place o.src o.sidx (firstGroup o.src o.soff) o.rowGroups q
  let bl := gs.flatMap Group.blocks
  { size := unitSize 4 (1 + 6 * o.wd) 48
    units := (List.range (o.p0 * o.p1)).map (fun k =>
      let b := bl.getD k (0, [])
      let row := a + 2048 * (k / o.p1)
      [(8 * (row + 1984 + k % o.p1), 8, b.1),
        (8 * row + 48 * (k % o.p1) * o.wd, 48 * o.wd, (b.2.foldr (fun m acc => acc * 2 ^ o.wd + wrapU o.wd m) 0))]) }

def State.xfmResult (s : State) (o : XfmOp) : XfmResult :=
  match o.opc with
  | 0 => s.xfmPack o
  | 1 => s.xfmUnpack o
  | 2 => s.xfmTranspose o
  | 3 => s.xfmSplit o
  | 4 => s.xfmJoin o
  | _ => s.xfmCast o

/-! ## Records in their queue (R189, R326) -/

/-- Whether unit `i` of a record is written: of one that ends early, the subset that free values choose (R326; log 5). -/
def State.xfmKeeps (s : State) (some_ : Bool) (i : Nat) : Bool := !some_ || decide (Config.freeNat (s.free + i) % 2 ≠ 0)
/-- The units of a result that are written. -/
def State.xfmKept (s : State) (r : XfmResult) (some_ : Bool) : List (List (Nat × Nat × Nat) × Nat) :=
  r.units.zipIdx.filter (fun (_, i) => s.xfmKeeps some_ i)
/-- A unit written. -/
def State.xfmUnit (ply : Bool) (s : State) (u : List (Nat × Nat × Nat)) : State :=
  u.foldl (fun t w =>
    let t1 := { t with mem := t.mem.writeBits w.1 w.2.1 w.2.2 }
    if ply then t1.clearPoison [(w.1 / 8, w.2.1 / 8)] else t1) s
/-- A record's output written, all of it or a subset; with its OUTSZ and SATC, which count each unit written once (R326). -/
def State.xfmWrites (s : State) (r : XfmResult) (some_ : Bool) : (Nat × Nat) × State :=
  let kept := s.xfmKept r some_
  let s1 := kept.foldl (fun s u => State.xfmUnit r.ply s u.1) s
  ((r.size * kept.length, kept.countP (fun u => r.sats.getD u.2 false)),
    if some_ then { s1 with free := s1.free + r.units.length } else s1)

/-- A record ends: STATUS, OUTSZ, SATC, then its signal (R326). -/
def State.xfmEnd (s : State) (tile e : Nat) (o : XfmOp) (st outsz satc : Nat) : State :=
  let g := s.xfm tile e
  let s1 := s.setXfm tile e { g with
    queue := g.queue.filter (fun x => x.ticket ≠ o.ticket), ended := g.ended + 1
    status := g.status.map (fun x => if x.1 = o.ticket then (x.1, st) else x) }
  let a := spaceAddr o.place 1 o.recOff
  let s2 := { s1 with mem := ((s1.mem.writeNat (a + 44) 4 st).writeNat (a + 48) 4 outsz).writeNat (a + 52) 4 satc }
  let s3 := if bitN o.ssel 15 then s2.semAdd tile o.place.core (o.ssel % 512) o.sinc else s2
  if (s3.xfm tile e).idle then s3.once (.xfmRecordStart tile e) else s3

/-- XFM_RECORD_START: the oldest record starts once its comparison has held at some place since its acceptance (R326;
DEDUCED, log 38: also while earlier records of its queue ran). -/
def State.xfmStart (s : State) (tile e : Nat) : State :=
  let g := s.xfm tile e
  match g.queue with
  | o :: r =>
    if o.started || !s.dieOn tile then s
    else if bitN o.wsel 15 && !o.passed && !semPasses (s.sem tile o.place.core (o.wsel % 512)).v o.wthr then s
    else if s.engineStalls o.place o.dst.space then s.awaitWriter o.place (.xfmRecordStart tile e)
    else (s.setXfm tile e { g with queue := { o with started := true } :: r }).once (.xfmRecordEnd tile e)
  | [] => s
def execXfmRecordStart (tile eng : Nat) (s : State) : Out := .next (s.xfmStart tile eng)

/-- XFM_RECORD_END: the running record performs its operation and ends; poison ends it with 0x05 (R326). -/
def State.xfmFinish (s : State) (tile e : Nat) : State :=
  let g := s.xfm tile e
  match g.queue with
  | o :: _ =>
    if !o.started || !s.dieOn tile then s
    else
      let r := s.xfmResult o
      match poisonIn s (sideRuns o.place o.src o.sidx o.soff o.units.1) with
      | some gr =>
        let w := s.xfmWrites r true
        let addr := (64 * gr) % 2 ^ 32 - (spaceAddr (o.src.view o.place o.sidx).place o.src.space 0) % 2 ^ 32
        (w.2.xfmEnd tile e o 0x05 w.1.1 w.1.2).route tile o.task
          { code := 0x05, stream := o.place.stream, info0 := BitVec.ofNat 64 addr, info1 := tinfo1 0 o.src.space false true o.sidx }
      | none =>
        let w := s.xfmWrites r false
        w.2.xfmEnd tile e o r.status w.1.1 w.1.2
  | [] => s
def execXfmRecordEnd (tile eng : Nat) (s : State) : Out := .next (s.xfmFinish tile eng)

/-- A record ended early: 0x02 before it starts, 0x06 with any subset of its output while it runs (R327). -/
def State.xfmStop (s : State) (tile e : Nat) (o : XfmOp) : State :=
  if o.started then
    let r := s.xfmResult o
    let w := s.xfmWrites r true
    w.2.xfmEnd tile e o 0x06 w.1.1 w.1.2
  else s.xfmEnd tile e o 0x02 0 0

/-- What an engine remembers of a ticket (R327). -/
def State.xfmStatus (s : State) (v : Word) : Option Nat :=
  ((s.xfm s.cur.tile (bits v 32 1)).status.find? (fun e => decide (e.1 = bits v 0 32))).map (·.2)

def execXwait (d a : Reg) (t : Tack) (s : State) : Out :=
  issue 4 t (fun s =>
    match s.xfmStatus (s.x a) with
    | none => .done (s.setX d (BitVec.allOnes 64))
    | some 0 => .wait false s
    | some st => .done (s.setX d (BitVec.ofNat 64 st))) s
/-- XQRY (R327). The records queued are those not ended, the running one among them (DEDUCED, log 84). -/
def execXqry (d a : Reg) (f : BitVec 3) (t : Tack) (s : State) : Out :=
  issue 4 t (fun s =>
    let g := s.xfm s.cur.tile (bits (s.x a) 32 1)
    .done (s.setX d (match f.toNat with
      | 0 => match s.xfmStatus (s.x a) with | none => BitVec.allOnes 64 | some st => BitVec.ofNat 64 st
      | 1 => BitVec.ofNat 64 g.queue.length
      | 2 => g.ended.setWidth 64
      | _ => 0))) s
/-- XABT (R327): a remembered ticket that has not ended. -/
def execXabt (a : Reg) (t : Tack) (s : State) : Out :=
  issue 4 t (fun s =>
    let e := bits (s.x a) 32 1
    match (s.xfm s.cur.tile e).queue.find? (fun o => decide (o.ticket = bits (s.x a) 0 32)) with
    | some o => .done (if (s.xfmStatus (s.x a)).isSome then s.xfmStop s.cur.tile e o else s)
    | none => .done s) s
/-- XABT.Q: every record of the engine, in queue order. -/
def execXabtQ (a : Reg) (t : Tack) (s : State) : Out :=
  issue 4 t (fun s =>
    let e := bits (s.x a) 32 1
    .done ((s.xfm s.cur.tile e).queue.foldl (fun s o => s.xfmStop s.cur.tile e o) s)) s

/-! ## SEMS.DISARM (R148, R149, R229, R326) -/

/-- The armed wait of the stream at `q` on a semaphore cancelled. -/
def State.cancelWait (sel : Nat) (s : State) (q : Place) : State :=
  match (s.at q).wait with
  | some (.semw w _ d t) => if w = sel then s.completeWait q d t 1 else s
  | some (.semwa win mask _ d t) =>
    match (List.range 64).find? (fun k => mask.getLsbD k && decide (windowSel win k = sel)) with
    | some k => s.completeWait q d t (BitVec.ofNat 64 (0x100 + k))
    | none => s
  | _ => s

/-- Copies armed on a semaphore end with status 0x02. -/
def State.cancelCopies (s : State) (e : Eng) (core sel : Nat) : State :=
  ((s.engine e).ops.filter (fun o => match o.armed with
    | some (n, _) => decide (n = sel) && (decide (256 ≤ sel) || decide (o.place.core = core))
    | none => false)).foldl (fun s o => s.closeCopy e o 0x02) s
/-- Records that wait for a semaphore are cancelled. -/
def State.cancelRecords (s : State) (tile e core sel : Nat) : State :=
  ((s.xfm tile e).queue.filter (fun o => !o.started && !o.passed && bitN o.wsel 15 && decide (o.wsel % 512 = sel) &&
    (decide (256 ≤ sel) || decide (o.place.core = core)))).foldl (fun s o => s.xfmEnd tile e o 0x02 0 0) s

/-- SEMS.DISARM (R148): what is armed on the semaphore is cancelled, then its value is set. -/
def execSemsDisarm (a : Reg) (sel : BitVec 9) (t : Tack) (s : State) : Out :=
  issueX 4 t (fun s =>
    let n := sel.toNat
    if selBad n then .trap (selFault n) s
    else
      let p := s.cur
      let v := s.x32 a
      let s0 := s.release (selScope n)
      let s1 := (s0.waiters p.tile p.core n).foldl (State.cancelWait n) s0
      let s2 := (Eng.tile p.tile :: (List.range 8).map (Eng.core p.tile)).foldl (fun s e => s.cancelCopies e p.core n) s1
      let s3 := [0, 1].foldl (fun s e => s.cancelRecords p.tile e p.core n) s2
      .done (s3.semSet p.tile p.core n v)) s

end Sys2Proof.Machine
end

