-- ==== Sys2Proof/Machine/Trap.lean ====
section
/-!
DEFINITION. The delivery of traps as steps of their own, the tack watchdog and pending pushes (R119, R135, R362 to
R365, R449, R476), and a store's arrival at its home (R195).
-/
namespace Sys2Proof.Machine

/-- A stream that may take a synchronous fault: unended, its slot RUNNING, or the handler's C stream. -/
def State.mayFault (s : State) (p : Place) : Bool :=
  let sl := s.slot p.slotK
  s.dieOn p.tile && !(s.at p).ended && !sl.frozen &&
    (match sl.mode with
      | .running => true
      | .trapped => sl.regs.super && decide (p.stream = 0)
      | _ => false)

def Cause.event (c : Cause) : Event :=
  { code := c.code, info0 := c.info0, info1 := c.info1, info2 := c.info2, info3 := c.info3 }

/-- SYNC_TRAP_DELIVERY (R362, R363): the fault of the stream at `p`, its instruction without effect. -/
def execSyncTrapDelivery (p : Place) (c : Cause) (s : State) : Out :=
  .next (if s.mayFault p then s.syncFault p (Machine.Cause.event c) else s)

/-- ASYNC_TRAP_DELIVERY (R364, R370): the oldest event, then the oldest paused copy. -/
def execAsyncTrapDelivery (tile core slot : Nat) (s : State) : Out := .next (s.deliverNext (slotKey tile core slot))

/-- THIMBLE_TRAP (R449): a trap of the thimble core enters its firmware; an asynchronous event changes nothing of
the procedure. -/
def execThimbleTrap (c : Cause) (s : State) : Out :=
  let p : Place := ⟨16, 0, 0, 0⟩
  .next (if s.mayFault p then s.syncFault p (Machine.Cause.event c) else s)

/-! ## Pending pushes and the watchdog (R119, R135, R365, R384) -/

/-- A stream that may act: its slot RUNNING, or the handler's own stream; those a trap has stopped may not (R135, R365). -/
def State.active (s : State) (p : Place) : Bool :=
  let sl := s.slot p.slotK
  match sl.mode with
  | .running => !sl.frozen
  | .trapped => s.superAt p && !sl.frozen
  | _ => false

/-- PENDING_TACK_PUSH: the pushes are made in order once their channels have room. -/
def State.pushNow (s : State) (p : Place) : State :=
  if (s.at p).push = [] ∨ !s.active p ∨ !s.dieOn p.tile then s
  else
    let s1 := s.flushPush p
    if (s1.at p).push = [] then s1.setAt p { s1.at p with stalled := none } else s1
def execPendingTackPush (p : Place) (s : State) : Out := .next (s.pushNow p)

/-- The next instruction of a stream, when its word decodes. -/
def State.nextInstr (s : State) (p : Place) : Option Instr :=
  match s.fetchWord p.tile p.stream (s.at p).pc.toNat with
  | (.ok bs, _) => match decode bs with | .ok (i, _) => some i | .error _ => none
  | _ => none

/-- TINFO2 of a precise watchdog fault (R365): the channel of the W bit when its pop fails, else the channel of a TKW;
bit 9 for REND. -/
def State.stallInfo (s : State) (p : Place) : Nat :=
  let st := s.at p
  let w := wChannel p.stream st
  let dry := decide ((s.slot p.slotK).tackCount w = 0)
  match st.wait with
  | some (.rend _ _ _) => 2 ^ 9
  | _ => match s.nextInstr p with
    | some (.tkw j _ t) => if t.w && dry then w else channel (peer p.stream j.toNat) p.stream
    | some (.cTkw i) => channel (peer p.stream (i.toNat % 4)) p.stream
    | _ => w

/-- The channel a stalled stream waits to push on: that of its pending push, or of a TKP that waits for room. -/
def State.stallPush (s : State) (p : Place) : Option Nat :=
  let st := s.at p
  match st.push with
  | c :: _ => some c
  | [] =>
    if !st.blocked || st.wait.isSome then none
    else match s.nextInstr p with
      | some (.tkp j _ t) =>
        if t.w && decide ((s.slot p.slotK).tackCount (wChannel p.stream st) = 0) then none else some (channel p.stream (peer p.stream j.toNat))
      | some (.cTkp i) => some (channel p.stream (peer p.stream (i.toNat % 4)))
      | _ => none

/-- TACK_WATCHDOG (R365): a stall of 2^24 cycles of uninterrupted RUNNING time. A pop or a REND faults precisely
(R136); a push stays as it is and raises an asynchronous event, whose TINFO2 has bit 8 clear on stepping B1 (R476;
for a TKP: DESIGN CHOICE, log 28). -/
def State.watchdog (s : State) (p : Place) : State :=
  let st := s.at p
  let sl := s.slot p.slotK
  match st.stalled with
  | none => s
  | some since =>
    if sl.mode ≠ .running ∨ s.clock < since + 2 ^ 24 ∨ !s.dieOn p.tile then s
    else match s.stallPush p with
      | some c =>
        (s.setAt p { st with stalled := some s.clock }).route p.tile ((sl.task.map (·.id)).getD 0)
          { code := 0x07, stream := p.stream, info2 := BitVec.ofNat 64 c }
      | none => if st.blocked && !st.ended then s.syncFault p { code := 0x07, info2 := BitVec.ofNat 64 (s.stallInfo p) } else s
def execTackWatchdog (p : Place) (s : State) : Out := .next (s.watchdog p)

/-! ## Stores at their homes (R171, R195) -/

/-- STORE_PERFORMED_AT_HOME: the first entry from `i` on that may be performed (R171). -/
def State.performStore (s : State) (tile core i : Nat) : State :=
  let k := coreKey tile core
  let x := s.auxOf k
  let ok := (List.range x.stores.length).filter (fun j =>
    match x.stores[j]? with
    | some e => mayPerform (x.stores.take j) e
    | none => false)
  match (ok.find? (fun j => decide (i ≤ j))).or ok.head? with
  | none => s
  | some j =>
    match x.stores[j]? with
    | none => s
    | some e =>
      let s1 := s.performEntry e
      s1.setAux k { s1.auxOf k with stores := x.stores.take j ++ x.stores.drop (j + 1) }
def execStorePerformedAtHome (tile core i : Nat) (s : State) : Out := .next (s.performStore tile core i)

end Sys2Proof.Machine
end

