-- ==== Sys2Proof/Machine/Dispatch.lean ====
section
/-!
DEFINITION. One arm per instruction and event: a direct call of its meaning.
-/
namespace Sys2Proof.Machine

def exec (i : Instr) (s : State) : Host.Outcome State Fault Refusal :=
  match i with
  | .nop t => Sys2Proof.Machine.execNop t s
  | .blk rep len pp wp => Sys2Proof.Machine.execBlk rep len pp wp s
  | .blkx creg len pp wp => Sys2Proof.Machine.execBlkx creg len pp wp s
  | .br off t => Sys2Proof.Machine.execBr off t s
  | .bz a off t => Sys2Proof.Machine.execBz a off t s
  | .bnz a off t => Sys2Proof.Machine.execBnz a off t s
  | .brx a t => Sys2Proof.Machine.execBrx a t s
  | .call off t => Sys2Proof.Machine.execCall off t s
  | .retB t => Sys2Proof.Machine.execRetB t s
  | .rend mask id t => Sys2Proof.Machine.execRend mask id t s
  | .endS t => Sys2Proof.Machine.execEndS t s
  | .yield t => Sys2Proof.Machine.execYield t s
  | .waitc d n t => Sys2Proof.Machine.execWaitc d n t s
  | .waitcS d n t => Sys2Proof.Machine.execWaitcS d n t s
  | .ext imm => Sys2Proof.Machine.execExt imm s
  | .trap d imm t => Sys2Proof.Machine.execTrap d imm t s
  | .sysc d imm t => Sys2Proof.Machine.execSysc d imm t s
  | .tkw j n1 t => Sys2Proof.Machine.execTkw j n1 t s
  | .tkp j n1 t => Sys2Proof.Machine.execTkp j n1 t s
  | .semw d a sel t => Sys2Proof.Machine.execSemw d a sel t s
  | .sema d a sel t => Sys2Proof.Machine.execSema d a sel t s
  | .sems a sel t => Sys2Proof.Machine.execSems a sel t s
  | .semsDisarm a sel t => Sys2Proof.Machine.execSemsDisarm a sel t s
  | .semo sel t => Sys2Proof.Machine.execSemo sel t s
  | .semrd d sel t => Sys2Proof.Machine.execSemrd d sel t s
  | .fence scope t => Sys2Proof.Machine.execFence scope t s
  | .acq t => Sys2Proof.Machine.execAcq t s
  | .acqR d m t => Sys2Proof.Machine.execAcqR d m t s
  | .rel scope t => Sys2Proof.Machine.execRel scope t s
  | .pfenRetain t => Sys2Proof.Machine.execPfenRetain t s
  | .pfenLining t => Sys2Proof.Machine.execPfenLining t s
  | .semwa d a b f t => Sys2Proof.Machine.execSemwa d a b f t s
  | .rdcyc d t => Sys2Proof.Machine.execRdcyc d t s
  | .rdcycS d t => Sys2Proof.Machine.execRdcycS d t s
  | .rdid d t => Sys2Proof.Machine.execRdid d t s
  | .prio d a t => Sys2Proof.Machine.execPrio d a t s
  | .linept d t => Sys2Proof.Machine.execLinept d t s
  | .addR d a b t => Sys2Proof.Machine.execAddR d a b t s
  | .subR d a b t => Sys2Proof.Machine.execSubR d a b t s
  | .mulR d a b t => Sys2Proof.Machine.execMulR d a b t s
  | .mulh d a b t => Sys2Proof.Machine.execMulh d a b t s
  | .mulhu d a b t => Sys2Proof.Machine.execMulhu d a b t s
  | .divI d a b t => Sys2Proof.Machine.execDivI d a b t s
  | .divu d a b t => Sys2Proof.Machine.execDivu d a b t s
  | .remI d a b t => Sys2Proof.Machine.execRemI d a b t s
  | .remu d a b t => Sys2Proof.Machine.execRemu d a b t s
  | .andR d a b t => Sys2Proof.Machine.execAndR d a b t s
  | .orR d a b t => Sys2Proof.Machine.execOrR d a b t s
  | .xorR d a b t => Sys2Proof.Machine.execXorR d a b t s
  | .shl d a b t => Sys2Proof.Machine.execShl d a b t s
  | .shrl d a b t => Sys2Proof.Machine.execShrl d a b t s
  | .shra d a b t => Sys2Proof.Machine.execShra d a b t s
  | .minS d a b t => Sys2Proof.Machine.execMinS d a b t s
  | .maxS d a b t => Sys2Proof.Machine.execMaxS d a b t s
  | .minu d a b t => Sys2Proof.Machine.execMinu d a b t s
  | .maxu d a b t => Sys2Proof.Machine.execMaxu d a b t s
  | .seq d a b t => Sys2Proof.Machine.execSeq d a b t s
  | .slt d a b t => Sys2Proof.Machine.execSlt d a b t s
  | .sltu d a b t => Sys2Proof.Machine.execSltu d a b t s
  | .sel d a b t => Sys2Proof.Machine.execSel d a b t s
  | .clz d a t => Sys2Proof.Machine.execClz d a t s
  | .addi d a imm t => Sys2Proof.Machine.execAddi d a imm t s
  | .andi d a imm t => Sys2Proof.Machine.execAndi d a imm t s
  | .ori d a imm t => Sys2Proof.Machine.execOri d a imm t s
  | .xori d a imm t => Sys2Proof.Machine.execXori d a imm t s
  | .shli d a imm t => Sys2Proof.Machine.execShli d a imm t s
  | .shrli d a imm t => Sys2Proof.Machine.execShrli d a imm t s
  | .shrai d a imm t => Sys2Proof.Machine.execShrai d a imm t s
  | .slti d a imm t => Sys2Proof.Machine.execSlti d a imm t s
  | .li d imm t => Sys2Proof.Machine.execLi d imm t s
  | .lih d imm t => Sys2Proof.Machine.execLih d imm t s
  | .popc d a t => Sys2Proof.Machine.execPopc d a t s
  | .bfx d a b signed t => Sys2Proof.Machine.execBfx d a b signed t s
  | .bfi d a b t => Sys2Proof.Machine.execBfi d a b t s
  | .muli d a imm t => Sys2Proof.Machine.execMuli d a imm t s
  | .clamp d a b uns t => Sys2Proof.Machine.execClamp d a b uns t s
  | .rndc d a b t => Sys2Proof.Machine.execRndc d a b t s
  | .ldb d m f t => Sys2Proof.Machine.execLdb d m f t s
  | .ldh d m f t => Sys2Proof.Machine.execLdh d m f t s
  | .ldw d m f t => Sys2Proof.Machine.execLdw d m f t s
  | .ldd d m f t => Sys2Proof.Machine.execLdd d m f t s
  | .ldbs d m f t => Sys2Proof.Machine.execLdbs d m f t s
  | .ldhs d m f t => Sys2Proof.Machine.execLdhs d m f t s
  | .ldws d m f t => Sys2Proof.Machine.execLdws d m f t s
  | .stb d m f t => Sys2Proof.Machine.execStb d m f t s
  | .sth d m f t => Sys2Proof.Machine.execSth d m f t s
  | .stw d m f t => Sys2Proof.Machine.execStw d m f t s
  | .std d m f t => Sys2Proof.Machine.execStd d m f t s
  | .hld d a imm t => Sys2Proof.Machine.execHld d a imm t s
  | .hinfo d a f t => Sys2Proof.Machine.execHinfo d a f t s
  | .hsub d a b f t => Sys2Proof.Machine.execHsub d a b f t s
  | .pref m t => Sys2Proof.Machine.execPref m t s
  | .prefL2 m t => Sys2Proof.Machine.execPrefL2 m t s
  | .cinv d m t => Sys2Proof.Machine.execCinv d m t s
  | .cinvL2 d m t => Sys2Proof.Machine.execCinvL2 d m t s
  | .aadd d m f t => Sys2Proof.Machine.execAadd d m f t s
  | .amin d m f t => Sys2Proof.Machine.execAmin d m f t s
  | .amax d m f t => Sys2Proof.Machine.execAmax d m f t s
  | .aminu d m f t => Sys2Proof.Machine.execAminu d m f t s
  | .amaxu d m f t => Sys2Proof.Machine.execAmaxu d m f t s
  | .aand d m f t => Sys2Proof.Machine.execAand d m f t s
  | .aor d m f t => Sys2Proof.Machine.execAor d m f t s
  | .axor d m f t => Sys2Proof.Machine.execAxor d m f t s
  | .axch d m f t => Sys2Proof.Machine.execAxch d m f t s
  | .acas d m f t => Sys2Proof.Machine.execAcas d m f t s
  | .afadd d m f t => Sys2Proof.Machine.execAfadd d m f t s
  | .redadd d m f t => Sys2Proof.Machine.execRedadd d m f t s
  | .redfadd d m f t => Sys2Proof.Machine.execRedfadd d m f t s
  | .redmin d m f t => Sys2Proof.Machine.execRedmin d m f t s
  | .redmax d m f t => Sys2Proof.Machine.execRedmax d m f t s
  | .ainc d m f t => Sys2Proof.Machine.execAinc d m f t s
  | .bbclm d bob nw t => Sys2Proof.Machine.execBbclm d bob nw t s
  | .bbpub bob b t => Sys2Proof.Machine.execBbpub bob b t s
  | .bbwf d bob b nw t => Sys2Proof.Machine.execBbwf d bob b nw t s
  | .bbwe d bob nw t => Sys2Proof.Machine.execBbwe d bob nw t s
  | .bbrel bob b t => Sys2Proof.Machine.execBbrel bob b t s
  | .bbinit bob b t => Sys2Proof.Machine.execBbinit bob b t s
  | .cpy m tile t => Sys2Proof.Machine.execCpy m tile t s
  | .cpyq d a b tile t => Sys2Proof.Machine.execCpyq d a b tile t s
  | .cpyx d m tile t => Sys2Proof.Machine.execCpyx d m tile t s
  | .gath d m tile t => Sys2Proof.Machine.execGath d m tile t s
  | .scat d m tile t => Sys2Proof.Machine.execScat d m tile t s
  | .fill d m tile t => Sys2Proof.Machine.execFill d m tile t s
  | .sld d m f t => Sys2Proof.Machine.execSld d m f t s
  | .sst d m f t => Sys2Proof.Machine.execSst d m f t s
  | .bbqry d bob f t => Sys2Proof.Machine.execBbqry d bob f t s
  | .cpyw d m tile t => Sys2Proof.Machine.execCpyw d m tile t s
  | .pld d m f t => Sys2Proof.Machine.execPld d m f t s
  | .pst d m t => Sys2Proof.Machine.execPst d m t s
  | .pstl d m t => Sys2Proof.Machine.execPstl d m t s
  | .paxpy d m f t => Sys2Proof.Machine.execPaxpy d m f t s
  | .pscl d m t => Sys2Proof.Machine.execPscl d m t s
  | .pcvt d m f t => Sys2Proof.Machine.execPcvt d m f t s
  | .pnorm d m t => Sys2Proof.Machine.execPnorm d m t s
  | .pcnt d m t => Sys2Proof.Machine.execPcnt d m t s
  | .vadd d a b f t => Sys2Proof.Machine.execVadd d a b f t s
  | .vsub d a b f t => Sys2Proof.Machine.execVsub d a b f t s
  | .vmul d a b f t => Sys2Proof.Machine.execVmul d a b f t s
  | .vfma d a b f t => Sys2Proof.Machine.execVfma d a b f t s
  | .vmin d a b f t => Sys2Proof.Machine.execVmin d a b f t s
  | .vmax d a b f t => Sys2Proof.Machine.execVmax d a b f t s
  | .vabs d a f t => Sys2Proof.Machine.execVabs d a f t s
  | .vneg d a f t => Sys2Proof.Machine.execVneg d a f t s
  | .vcmp d a b f t => Sys2Proof.Machine.execVcmp d a b f t s
  | .vsel d a b t => Sys2Proof.Machine.execVsel d a b t s
  | .vand d a b t => Sys2Proof.Machine.execVand d a b t s
  | .vor d a b t => Sys2Proof.Machine.execVor d a b t s
  | .vxor d a b t => Sys2Proof.Machine.execVxor d a b t s
  | .vshl d a b t => Sys2Proof.Machine.execVshl d a b t s
  | .vshr d a b t => Sys2Proof.Machine.execVshr d a b t s
  | .vcvt d a b t => Sys2Proof.Machine.execVcvt d a b t s
  | .vsfn d a f t => Sys2Proof.Machine.execVsfn d a f t s
  | .vred d a f t => Sys2Proof.Machine.execVred d a f t s
  | .vbcst d a t => Sys2Proof.Machine.execVbcst d a t s
  | .vld d m f t => Sys2Proof.Machine.execVld d m f t s
  | .vst d m f t => Sys2Proof.Machine.execVst d m f t s
  | .vget d a b f t => Sys2Proof.Machine.execVget d a b f t s
  | .vput d a b f t => Sys2Proof.Machine.execVput d a b f t s
  | .vcolR d a b t => Sys2Proof.Machine.execVcolR d a b t s
  | .vcolW d a b t => Sys2Proof.Machine.execVcolW d a b t s
  | .vperm d a b t => Sys2Proof.Machine.execVperm d a b t s
  | .vrng d a b f t => Sys2Proof.Machine.execVrng d a b f t s
  | .osmx d t => Sys2Proof.Machine.execOsmx d t s
  | .osmn d t => Sys2Proof.Machine.execOsmn d t s
  | .vqnt d a b f t => Sys2Proof.Machine.execVqnt d a b f t s
  | .vdqn d a b f t => Sys2Proof.Machine.execVdqn d a b f t s
  | .viota d a t => Sys2Proof.Machine.execViota d a t s
  | .vscan d a f t => Sys2Proof.Machine.execVscan d a f t s
  | .mlw d m f t => Sys2Proof.Machine.execMlw d m f t s
  | .mswp t => Sys2Proof.Machine.execMswp t s
  | .mma d m t => Sys2Proof.Machine.execMma d m t s
  | .mmaz d m t => Sys2Proof.Machine.execMmaz d m t s
  | .mdrn d m f t => Sys2Proof.Machine.execMdrn d m f t s
  | .mcfg d a t => Sys2Proof.Machine.execMcfg d a t s
  | .mzro d stat t => Sys2Proof.Machine.execMzro d stat t s
  | .mscl d m f t => Sys2Proof.Machine.execMscl d m f t s
  | .mbias m t => Sys2Proof.Machine.execMbias m t s
  | .mbiasClr t => Sys2Proof.Machine.execMbiasClr t s
  | .mgemv d m t => Sys2Proof.Machine.execMgemv d m t s
  | .mgwt d t => Sys2Proof.Machine.execMgwt d t s
  | .movc d a stat t => Sys2Proof.Machine.execMovc d a stat t s
  | .mtrn d a sh dh t => Sys2Proof.Machine.execMtrn d a sh dh t s
  | .mstat d a f t => Sys2Proof.Machine.execMstat d a f t s
  | .mrsm t => Sys2Proof.Machine.execMrsm t s
  | .mrsmDiscard t => Sys2Proof.Machine.execMrsmDiscard t s
  | .mfmt a t => Sys2Proof.Machine.execMfmt a t s
  | .sendM a b t => Sys2Proof.Machine.execSendM a b t s
  | .fcpy m t => Sys2Proof.Machine.execFcpy m t s
  | .fred m t => Sys2Proof.Machine.execFred m t s
  | .fsig a b t => Sys2Proof.Machine.execFsig a b t s
  | .coll d m t => Sys2Proof.Machine.execColl d m t s
  | .cqry d a f t => Sys2Proof.Machine.execCqry d a f t s
  | .cwait d a t => Sys2Proof.Machine.execCwait d a t s
  | .cabt a t => Sys2Proof.Machine.execCabt a t s
  | .xfm d m e1 t => Sys2Proof.Machine.execXfm d m e1 t s
  | .xwait d a t => Sys2Proof.Machine.execXwait d a t s
  | .xqry d a f t => Sys2Proof.Machine.execXqry d a f t s
  | .xabt a t => Sys2Proof.Machine.execXabt a t s
  | .xabtQ a t => Sys2Proof.Machine.execXabtQ a t s
  | .eret t => Sys2Proof.Machine.execEret t s
  | .mfs d idx t => Sys2Proof.Machine.execMfs d idx t s
  | .mts d idx t => Sys2Proof.Machine.execMts d idx t s
  | .wfi a t => Sys2Proof.Machine.execWfi a t s
  | .hint n imm t => Sys2Proof.Machine.execHint n imm t s
  | .cNop => Sys2Proof.Machine.execCNop s
  | .cTkw imm => Sys2Proof.Machine.execCTkw imm s
  | .cTkp imm => Sys2Proof.Machine.execCTkp imm s
  | .cMov d a => Sys2Proof.Machine.execCMov d a s
  | .cAdd d a => Sys2Proof.Machine.execCAdd d a s
  | .cSub d a => Sys2Proof.Machine.execCSub d a s
  | .cAnd d a => Sys2Proof.Machine.execCAnd d a s
  | .cOr d a => Sys2Proof.Machine.execCOr d a s
  | .cXor d a => Sys2Proof.Machine.execCXor d a s
  | .cAddi d imm => Sys2Proof.Machine.execCAddi d imm s
  | .cLi d imm => Sys2Proof.Machine.execCLi d imm s
  | .cShli d imm => Sys2Proof.Machine.execCShli d imm s
  | .cShrli d imm => Sys2Proof.Machine.execCShrli d imm s
  | .cBz d imm => Sys2Proof.Machine.execCBz d imm s
  | .cBnz d imm => Sys2Proof.Machine.execCBnz d imm s
  | .cEnd => Sys2Proof.Machine.execCEnd s
  | .sqAlign => Sys2Proof.Machine.execSqAlign s
  | .sqPhase n => Sys2Proof.Machine.execSqPhase n s
  | .sqMake w => Sys2Proof.Machine.execSqMake w s
  | .sqTree w => Sys2Proof.Machine.execSqTree w s
  | .sqBreak c => Sys2Proof.Machine.execSqBreak c s
  | .sqPrep route => Sys2Proof.Machine.execSqPrep route s
  | .sqWait n => Sys2Proof.Machine.execSqWait n s
  | .sqSigt sel tile core addend => Sys2Proof.Machine.execSqSigt sel tile core addend s
  | .sqPausept => Sys2Proof.Machine.execSqPausept s
  | .sqLoop n => Sys2Proof.Machine.execSqLoop n s
  | .sqNext => Sys2Proof.Machine.execSqNext s
  | .sqChunk c plan step => Sys2Proof.Machine.execSqChunk c plan step s
  | .sequencerEnd => Sys2Proof.Machine.execSequencerEnd s
  | .alignRelease high => Sys2Proof.Machine.execAlignRelease high s
  | .circuitMakeResolve c obs => Sys2Proof.Machine.execCircuitMakeResolve c obs s
  | .circuitBreakComplete c => Sys2Proof.Machine.execCircuitBreakComplete c s
  | .phaseEnd => Sys2Proof.Machine.execPhaseEnd s
  | .pauseResume => Sys2Proof.Machine.execPauseResume s
  | .fastBringupEnd near far ok => Sys2Proof.Machine.execFastBringupEnd near far ok s
  | .fullTrainingEnd near far ok => Sys2Proof.Machine.execFullTrainingEnd near far ok s
  | .lossOfLock ep wl rx => Sys2Proof.Machine.execLossOfLock ep wl rx s
  | .spareWavelengthMapping ep wl => Sys2Proof.Machine.execSpareWavelengthMapping ep wl s
  | .sourceFailure src => Sys2Proof.Machine.execSourceFailure src s
  | .spareSourceSwitch site => Sys2Proof.Machine.execSpareSourceSwitch site s
  | .flitArrival c fate => Sys2Proof.Machine.execFlitArrival c fate s
  | .messageDelivery c => Sys2Proof.Machine.execMessageDelivery c s
  | .fsigArrival tile core sel addend => Sys2Proof.Machine.execFsigArrival tile core sel addend s
  | .fabricWriteArrival tile w => Sys2Proof.Machine.execFabricWriteArrival tile w s
  | .fabricCopyComplete tile id => Sys2Proof.Machine.execFabricCopyComplete tile id s
  | .peerReset peer => Sys2Proof.Machine.execPeerReset peer s
  | .measurementEnd peer m digest => Sys2Proof.Machine.execMeasurementEnd peer m digest s
  | .keyUpdate peer => Sys2Proof.Machine.execKeyUpdate peer s
  | .serviceCircuitRemake peer => Sys2Proof.Machine.execServiceCircuitRemake peer s
  | .chunkArrival tile ticket chunk part data => Sys2Proof.Machine.execChunkArrival tile ticket chunk part data s
  | .collectiveComplete tile ticket => Sys2Proof.Machine.execCollectiveComplete tile ticket s
  | .collectiveAbort tile ticket reason => Sys2Proof.Machine.execCollectiveAbort tile ticket reason s
  | .copyStart e id n => Sys2Proof.Machine.execCopyStart e id n s
  | .copySourceFree e id => Sys2Proof.Machine.execCopySourceFree e id s
  | .copyComplete e id => Sys2Proof.Machine.execCopyComplete e id s
  | .copyFault e id => Sys2Proof.Machine.execCopyFault e id s
  | .pendingTackPush p => Sys2Proof.Machine.execPendingTackPush p s
  | .xfmRecordStart tile eng => Sys2Proof.Machine.execXfmRecordStart tile eng s
  | .xfmRecordEnd tile eng => Sys2Proof.Machine.execXfmRecordEnd tile eng s
  | .mgemvComplete tile core id => Sys2Proof.Machine.execMgemvComplete tile core id s
  | .reductionPerform tile n => Sys2Proof.Machine.execReductionPerform tile n s
  | .walkerIterationStart tile => Sys2Proof.Machine.execWalkerIterationStart tile s
  | .syncTrapDelivery p c => Sys2Proof.Machine.execSyncTrapDelivery p c s
  | .asyncTrapDelivery tile core slot => Sys2Proof.Machine.execAsyncTrapDelivery tile core slot s
  | .tackWatchdog p => Sys2Proof.Machine.execTackWatchdog p s
  | .thimbleTrap c => Sys2Proof.Machine.execThimbleTrap c s
  | .preemptHalt tile core slot => Sys2Proof.Machine.execPreemptHalt tile core slot s
  | .contextSaveComplete tile core slot => Sys2Proof.Machine.execContextSaveComplete tile core slot s
  | .periodicLiningTimer tile core => Sys2Proof.Machine.execPeriodicLiningTimer tile core s
  | .liningCapture tile core => Sys2Proof.Machine.execLiningCapture tile core s
  | .liningCommit tile core => Sys2Proof.Machine.execLiningCommit tile core s
  | .liningWriterDrain tile core n => Sys2Proof.Machine.execLiningWriterDrain tile core n s
  | .powerFailDetect tile => Sys2Proof.Machine.execPowerFailDetect tile s
  | .finalFlushCommit tile good => Sys2Proof.Machine.execFinalFlushCommit tile good s
  | .liningResume tile => Sys2Proof.Machine.execLiningResume tile s
  | .modulePowerLoss => Sys2Proof.Machine.execModulePowerLoss s
  | .moduleReset obs => Sys2Proof.Machine.execModuleReset obs s
  | .thermalTrip => Sys2Proof.Machine.execThermalTrip s
  | .thermalRecovery => Sys2Proof.Machine.execThermalRecovery s
  | .alarmTrip sensor => Sys2Proof.Machine.execAlarmTrip sensor s
  | .hbmRefresh tile bank => Sys2Proof.Machine.execHbmRefresh tile bank s
  | .patrolScrub tile granule err => Sys2Proof.Machine.execPatrolScrub tile granule err s
  | .ringThermalLock ep => Sys2Proof.Machine.execRingThermalLock ep s
  | .laserPowerControl src => Sys2Proof.Machine.execLaserPowerControl src s
  | .telemetrySampling => Sys2Proof.Machine.execTelemetrySampling s
  | .mramScrub tile core => Sys2Proof.Machine.execMramScrub tile core s
  | .wStart tile => Sys2Proof.Machine.execWStart tile s
  | .wStop tile => Sys2Proof.Machine.execWStop tile s
  | .wPreempt tile core slot arg => Sys2Proof.Machine.execWPreempt tile core slot arg s
  | .wResume tile core slot arg => Sys2Proof.Machine.execWResume tile core slot arg s
  | .wEnter tile core slot => Sys2Proof.Machine.execWEnter tile core slot s
  | .wKill tile core slot => Sys2Proof.Machine.execWKill tile core slot s
  | .invalidatePage tile vpn => Sys2Proof.Machine.execInvalidatePage tile vpn s
  | .invalidateAll tile => Sys2Proof.Machine.execInvalidateAll tile s
  | .hubInvalidatePage vpn => Sys2Proof.Machine.execHubInvalidatePage vpn s
  | .hubInvalidateAll => Sys2Proof.Machine.execHubInvalidateAll s
  | .invalidationComplete tile => Sys2Proof.Machine.execInvalidationComplete tile s
  | .ptrootWrite tile v => Sys2Proof.Machine.execPtrootWrite tile v s
  | .hptrootWrite v => Sys2Proof.Machine.execHptrootWrite v s
  | .msplitWrite tile v => Sys2Proof.Machine.execMsplitWrite tile v s
  | .splitChange tile => Sys2Proof.Machine.execSplitChange tile s
  | .wlmapWrite ep v => Sys2Proof.Machine.execWlmapWrite ep v s
  | .laserctlWrite src v => Sys2Proof.Machine.execLaserctlWrite src v s
  | .laserLockEnd src ok => Sys2Proof.Machine.execLaserLockEnd src ok s
  | .pbLock ep wlm => Sys2Proof.Machine.execPbLock ep wlm s
  | .pbTrain ep wlm farep => Sys2Proof.Machine.execPbTrain ep wlm farep s
  | .pbFast ep wlm farep => Sys2Proof.Machine.execPbFast ep wlm farep s
  | .pbAbort ep => Sys2Proof.Machine.execPbAbort ep s
  | .lockEnd ep failed => Sys2Proof.Machine.execLockEnd ep failed s
  | .trainEnd ep obs => Sys2Proof.Machine.execTrainEnd ep obs s
  | .launch obs => Sys2Proof.Machine.execLaunch obs s
  | .cancel => Sys2Proof.Machine.execCancel s
  | .recover write => Sys2Proof.Machine.execRecover write s
  | .groupCreate others => Sys2Proof.Machine.execGroupCreate others s
  | .groupDelete => Sys2Proof.Machine.execGroupDelete s
  | .seccfg => Sys2Proof.Machine.execSeccfg s
  | .logread => Sys2Proof.Machine.execLogread s
  | .clearj => Sys2Proof.Machine.execClearj s
  | .mbcmdInvalid op => Sys2Proof.Machine.execMbcmdInvalid op s
  | .registerWrite offset v => Sys2Proof.Machine.execRegisterWrite offset v s
  | .waitcTargetReached p => Sys2Proof.Machine.execWaitcTargetReached p s
  | .matrixPassComplete tile core => Sys2Proof.Machine.execMatrixPassComplete tile core s
  | .storePerformedAtHome tile core n => Sys2Proof.Machine.execStorePerformedAtHome tile core n s
  | .keyPhaseWindowEnd peer => Sys2Proof.Machine.execKeyPhaseWindowEnd peer s

end Sys2Proof.Machine
end

