-- ==== Sys2Proof/Machine/Due.lean ====
section
/-!
DEFINITION. The events the part has due, each run as the event row of its name. What such a row leaves to the
outside happens here as it does when nothing fails (log 4).
-/
namespace Sys2Proof.Machine

/-- MATRIX_PASS_COMPLETE at its time: the clock moves to it if it has not come (R287). -/
def State.passDue (s : State) (tile core : Nat) : State :=
  let k := coreKey tile core
  match (s.core k).matrix.running with
  | some (ps, start) =>
    if s.dieOn tile then
      let s1 := s.passTime (start + ps.cycles - s.clock)
      match (s1.core k).matrix.running with
      | some (ps1, start1) => if start1 + ps1.cycles ≤ s1.clock then s1.finishPass k ps1 else s1.once (.matrixPassComplete tile core)
      | none => s1
    else s
  | none => s

/-- A due event's turn. -/
def runDue (d : Due) (s : State) : Out :=
  match d with
  | .copyStart e id n => .next (s.copyStart e id n)
  | .copySourceFree e id => .next (s.copySourceFree e id)
  | .copyComplete e id => .next (s.copyComplete e id)
  | .pendingTackPush p => .next (s.pushNow p)
  | .xfmRecordStart t e => .next (s.xfmStart t e)
  | .xfmRecordEnd t e => .next (s.xfmFinish t e)
  | .mgemvComplete t c id => execMgemvComplete t c id s
  | .reductionPerform t i => .next (s.performRed t i)
  | .walkerIterationStart t => .next (s.walk1 t)
  | .walkerCommand t => .next (s.walkerCommand t)
  | .asyncTrapDelivery t c k => .next (s.deliverNext (slotKey t c k))
  | .taskEvent t id e => .next (s.postTask t id e)
  | .preemptHalt t c k => .next (s.preemptHalt (slotKey t c k))
  | .contextSaveComplete t c k => .next (s.saveContext (slotKey t c k))
  | .liningCapture t c => .next (s.capture t c)
  | .writerDrain t c => .next (s.writerDrain t c 1)
  | .liningCommit t c => .next ((s.writerDrain t c (s.lining (coreKey t c)).left.length).commit t c)
  | .finalFlushCommit t => .next (s.finalFlush t true)
  | .matrixPassComplete t c => .next (s.passDue t c)
  | .storePerformedAtHome t c i => .next (s.performStore t c i)
  | .splitChange t => .next (s.changeSplit t)
  | .invalidationComplete t => .next (s.invalidated t)
  | .fsigArrival t c sel v => execFsigArrival t c sel v s
  | .fabricWriteArrival t w => execFabricWriteArrival t w s
  | .chunkArrival t n k part data => execChunkArrival t n k part data s
  | .messageDelivery c => .next (s.deliverMessage c)
  | .collectiveComplete t n => .next (s.collComplete t n)
  | .collectiveAbort t n r => .next (s.abortColl t n r)
  | .fastBringupEnd near far => .next (s.fastEnd near far true)
  | .fullTrainingEnd near far => .next (s.fullEnd near far true)
  | .lockEnd e => .next (s.lockEnd e 0)
  | .trainEnd e => .next (s.trainEnd e { failed := 0 })
  | .keyUpdate peer => .next (s.keyUpdate peer)
  | .remakeService peer => .next (s.remakeService peer)
  | .laserLockEnd j => .next (s.laserLocked j true)
  | .spareWavelengthMapping e wl => .next (s.mapSpare e wl)
  | .spareSourceSwitch j => .next (s.spareSwitch j)
  | .alignRelease => .next (s.alignReleased s.stitch)
  | .mailbox op => .next (s.mailbox op)
  | .moduleReset => .next (s.reboot s.sameObs)
  | .firmware r => .next (s.firmware r)

end Sys2Proof.Machine
end

