-- ==== Sys2Proof/Machine/Schedule.lean ====
section
/-!
DEFINITION. Who moves and when: fetching an engine's next instruction, arbitration, time, due events
(R101, R118, R124, R360; log 4).
-/
namespace Sys2Proof.Machine

/-- Fetch, decode and run the next instruction of the stream at `p` (R101, R118, R124); a stream in no block meets a
header or takes 0x06 (R354). -/
def fetchRun (run : Instr → State → Out) (p : Place) (s : State) : Out :=
  let s0 := ({ s with cur := p } : State).endPageWait p
  let pc := s0.me.pc
  match s0.fetchWord p.tile p.stream pc.toNat with
  | (.fault c, s1) =>
    let e : Event := { code := c, info0 := pc }
    if c = 5 then .next (s1.syncFault p e)
    else
      let r := s1.streamFault p pc.toNat
      if r.1 then .next (r.2.syncFault p e) else .next (r.2.blocked p false)
  | (.ok bs, s1) =>
    if s0.me.block.isNone && !isHeader bs then .next (s1.syncFault p { code := 6, info0 := pc })
    else match decode bs with
      | .ok (i, _) => run i s1
      | .error _ => .fault .unscanned

/-- A stream its engine may choose, stalls and waits apart (R360): the slot RUNNING, or TRAPPED for the C
stream, and the stream not ended; one that waits on a page's pending fault waits for its release (R345); an M stream with
a pass in the array is stalled (R277), and one whose MGEMV operations run again does not issue before they have (R295). -/
def eligible (s : State) (p : Place) : Bool :=
  let sl := s.slot p.slotK
  s.dieOn p.tile && !(s.at p).ended && !sl.frozen && !s.pageHeld p &&
    (match sl.mode with
      | .running => true
      | .trapped => sl.regs.super && decide (p.stream = 0)
      | _ => false) &&
    !(decide (p.stream = 1) && ((match (s.core p.coreK).matrix.running with
      | some (ps, _) => decide (ps.slot = p.slotK)
      | none => false) || (s.auxOf p.coreK).mgemv.any (fun g => decide (g.slot = p.slotK) && g.rerun)))

/-- A turn's trial of one slot: a stalled or waiting stream keeps what its turn armed; a ready one is listed
with the clock since which it has been ready. -/
def trial (run : Instr → State → Out) (acc : List Nat × State) (p : Place) : List Nat × State :=
  let (l, s) := acc
  if !eligible s p then (l, s)
  else match fetchRun run p s with
    | .next s1 => if (s1.at p).blocked then (l, s1)
      else (l ++ [p.slot], s.setAt p { s.at p with ready := some ((s.at p).ready.getD s.clock) })
    | _ => (l ++ [p.slot], s)

/-- Whether a ready stream is due for its share (R42, R360): 12 cycles ready without issuing. -/
def shareDue (s : State) (p : Place) : Bool :=
  (s.core p.coreK).mshare.getLsbD (5 * p.slot + p.stream) &&
    decide (12 ≤ s.clock - ((s.at p).ready.getD s.clock)) && decide ((s.slot p.slotK).mode = .running)

/-- The better of two ready slots of an engine by share, then effective priority, then round robin (R360). -/
def better (s : State) (p : Place) (a b : Nat) : Nat :=
  let pa : Place := { p with slot := a }
  let pb : Place := { p with slot := b }
  let da := shareDue s pa
  let db := shareDue s pb
  if da || db then
    if da && db then
      (if ((s.at pb).ready.getD s.clock) < ((s.at pa).ready.getD s.clock) then b else a)
    else if da then a else b
  else
    let ea := (s.slot pa.slotK).regs.eff
    let eb := (s.slot pb.slotK).regs.eff
    if ea < eb then b else if eb < ea then a
    else if (s.at pb).issued < (s.at pa).issued then b else a

/-- The turn of the stream at `p` has ended in a synchronous fault of its slot (R39, R362). -/
def faulted (p : Place) (s t : State) : Bool :=
  decide ((s.slot p.slotK).mode = .running) && decide ((t.slot p.slotK).mode = .trapped) && !(t.slot p.slotK).regs.cause.getLsbD 31

/-- Of faults that arise together in a slot, that of the lowest stream is delivered (R363): a lower stream of the slot
whose next instruction faults in the same cycle takes the place of the one at `p`. DESIGN CHOICE (log 4): every
lower stream that may be chosen counts as having issued in the cycle. -/
def lowestFault (run : Instr → State → Out) (p : Place) (s : State) (o : Out) : Out :=
  match o with
  | .next t =>
    if faulted p s t then
      ((List.range p.stream).findSome? (fun f =>
        let q : Place := { p with stream := f }
        if eligible s q then
          match fetchRun run q s with
          | .next u => if faulted q s u then some (Host.Outcome.next u) else none
          | _ => none
        else none)).getD o
    else o
  | r => r

/-- A lined block that a turn from `s` to `t` writes and that a write waits for (R379, R380), unless the turn has replaced
the lining's hold on it, as a launch or a reset does. -/
def State.stalledWrite (s t : State) : Option Nat :=
  (blocksApart s.mem t.mem).find? (fun b => s.blockStalls b && t.blockStalls b)
/-- A turn's outcome from `s`: when a write of it stalls, the writer goes on to that block instead (R380), and the turns
`redo` come again. -/
def guardWrites (redo : List Turn) (s : State) (o : Out) : Out :=
  match o with
  | .next t =>
    match s.stalledWrite t with
    | some b => .next { s.writeBlock b with turns := (s.writeBlock b).turns ++ redo }
    | none => o
  | r => r

/-- One turn of an engine: time passes, each slot is tried in slot order, and the chosen ready one issues. While the
core or its tile's shared memory is over its dirty budget the core's streams, whose writes would stall, issue nothing
and the writer drains (R379; DESIGN CHOICE, log 36). -/
def engineTurn (run : Instr → State → Out) (p : Place) (n : Nat) (s : State) : Out :=
  if !p.thimble && (s.coreFull p.coreK || s.tileFull p.tile) then .next ((s.passTime n).writerDrain p.tile p.core 1)
  else
  let slots := if p.thimble then [0] else [0, 1, 2, 3]
  let (ready, s1) := (slots.map (fun k => { p with slot := k })).foldl (trial run) ([], s.passTime n)
  match ready with
  | [] => .next s1
  | k :: rest =>
    let q : Place := { p with slot := rest.foldl (better s1 p) k }
    guardWrites [] s1 (lowestFault run q s1 (fetchRun run q s1))

/-- An engine's number: tile, core, stream. -/
def engineNo (p : Place) : Nat := (p.tile * 8 + p.core) * 5 + p.stream
/-- The engine that moves when the schedule names none (log 4): in turn, those with a stream they may choose. -/
def State.nextEngine (s : State) : Place :=
  let l := s.slots.flatMap (fun (e : Nat × Slot) => ((List.range 5).map (placeOfSlot e.1)).filter (eligible s))
  let after := l.filter (fun p => decide (engineNo s.cur < engineNo p))
  let least (q : List Place) : Option Place := q.foldl (fun (b : Option Place) p =>
    match b with | some x => if engineNo p < engineNo x then some p else b | none => some p) none
  ((least after).or (least l)).getD s.cur

/-- The next step of the schedule (log 4). -/
def runTurn (run : Instr → State → Out) (due : Due → State → Out) (s : State) : Out :=
  match s.turns with
  | [] => engineTurn run s.nextEngine 1 s
  | .engine p n :: r => engineTurn run p n { s with turns := r }
  | .event i :: r => guardWrites [.event i] { s with turns := r } (run i { s with turns := r })
  | .error site kind :: r => .next ({ s with turns := r }.errorFound site kind)
  | .clearTrust peer :: r => .next ({ s with turns := r }.clearTrust peer)
  | .procedure entry htbase table :: r => .next ({ s with turns := r }.runProcedure entry htbase table)
  | .migrate tile va ppn :: r => .next ({ s with turns := r }.migrate tile va ppn)
  | .due d :: r => guardWrites [.due d] { s with turns := r } (due d { s with turns := r })
  | .time n :: r => .next ({ s with turns := r }.passTime n)

/-- The stream class whose pages may hold an instruction of major opcode `op` (R122), for placing one word. -/
def classOf (w : Nat) : Nat :=
  let op := w / 2 % 256
  if w % 2 = 0 then 0
  else if 0x80 ≤ op ∧ op ≤ 0x9F then 2
  else if 0xA0 ≤ op ∧ op ≤ 0xAF then 1
  else if op = 0x71 ∨ op = 0x72 then 3
  else 0

/-- A sequencer word as the word at the sequencer's place, its row the next turn (R317; log 7). -/
def placeSeqWord (s : State) (w : Nat) : State :=
  match decodeSeq (BitVec.ofNat 64 w) with
  | .ok i => { s with
      seq := { s.seq with words := [BitVec.ofNat 64 w], pc := 0, running := true, aligning := false, paused := false }
      hub := { s.hub with halted := false }, turns := .event i :: s.turns }
  | .error _ => s

/-- The state with one instruction's bytes where the next step fetches (log 7): slot 0 of core 0 of T0 RUNNING,
the class's stream at an address of an executable page of T0's HBM, its engine's turn next. -/
def placeCodeWord (s : State) (w : Nat) : State :=
  let cls := classOf w
  let p : Place := ⟨0, 0, 0, cls⟩
  let leaf := 2 ^ 63 + 2 ^ 62 + 2 ^ 57 + 2 ^ 55 + cls * 2 ^ 52
  let mem := ((s.mem.writeNat 0x40000 8 (2 ^ 63 + 0x60000)).writeNat 0x60000 8 leaf).writeBytes 0x200000 (leBytes 8 w)
  let s1 : State := { s with mem := mem, cur := p, turns := .engine p 1 :: s.turns, poison := [] }
  let s2 := s1.setTile 0 { s1.tile 0 with ptroot := 0x40001, tcache := [], powered := true, flushing := false }
  let sl := s2.slot 0
  let s3 := s2.setSlot 0 { sl with mode := .running, frozen := false, regs := { sl.regs with super := false } }
  s3.setStream p.streamK { s3.stream p.streamK with
    pc := 0x200000
    block := if isHeader (leBytes 4 w) then none else some ⟨0x1FFFFC, 0x200000, 0x2003FE, 1, 0, 0⟩
    ext := none, ended := false, push := [], wait := none }

/-- One instruction of `nbits` bits placed for the next step. -/
def placeWord (s : State) (nbits w : Nat) : State := if nbits = 64 then placeSeqWord s w else placeCodeWord s w

end Sys2Proof.Machine
end

