-- ==== Sys2Proof/Machine/Step.lean ====
section
/-!
DEFINITION. One step of the machine: the next turn of its schedule (log 4).
-/
namespace Sys2Proof.Machine

def step (s : State) : Host.Outcome State Fault Refusal := runTurn exec runDue s

/-- The state with one instruction placed where `step` fetches its next instruction (log 7). -/
def State.withFetchWord (s : State) (nbits w : Nat) : State := placeWord s nbits w

end Sys2Proof.Machine
end

