-- ==== Sys2Proof/Safety.lean ====
section
/-!
DEFINITION. The terms claims use: safe runs, when an instruction can issue, and what an instruction leaves
unchanged.
-/
namespace Sys2Proof.Machine

/-- A step answers a next state. -/
def Steps (s : State) : Prop := ∃ t, step s = .next t

/-- The first `n` steps from a state answer next states. -/
def SafeFor : Nat → State → Prop
  | 0, _ => True
  | n + 1, s => ∃ t, step s = .next t ∧ SafeFor n t

/-- The executing stream can issue a word with these W and P bits at once (R119, R121, R135): no earlier push of
it waits for room, and a W bit finds a token in its channel. -/
abbrev Ready (s : State) (t : Tack) : Prop :=
  s.me.push = [] ∧ (t.w = true → 0 < s.mySlot.tackCount (wChannel s.cur.stream s.me))

/-- The state in which a word's own effect begins: its W token is taken (R121). -/
def State.popped (s : State) (t : Tack) : State :=
  if t.w then s.setMySlot (s.mySlot.takeTack (wChannel s.cur.stream s.me) 1) else s

/-- Everything of the module but its streams, its slots and the model's own schedule and counter. -/
def State.outside (s : State) : State := { s with streams := [], slots := [], turns := [], free := 0 }

/-- Everything of a slot but its tack counts and its supervisor bank. -/
def Slot.rest (k : Slot) : Slot := { k with tack := [], sup := {} }

/-- No stream but the executing one, no slot but its own, and of its slot nothing but tack counts (and the
supervisor bank when that is what executes) has changed. -/
structure OtherStreamsKept (s t : State) : Prop where
  cur : t.cur = s.cur
  streams : ∀ k, k ≠ s.cur.streamK → t.stream k = s.stream k
  slots : ∀ k, k ≠ s.cur.slotK → t.slot k = s.slot k
  own : t.mySlot.rest = s.mySlot.rest
  bank : if s.super then t.stream s.cur.streamK = s.stream s.cur.streamK else t.mySlot.sup = s.mySlot.sup

/-- Nothing outside the executing stream and the tack counts of its slot has changed: in particular no byte of
memory, no semaphore, accumulator, special register or engine. -/
structure OnlyStream (s t : State) : Prop extends OtherStreamsKept s t where
  outside : t.outside = s.outside
  memory : ∀ a, t.mem.readByte a = s.mem.readByte a

/-- The executing stream after a word of `size` bytes that completes in sequence (R113): its registers are `x`,
its FPFLAGS have gained `flags`, no other field of its programming model has changed, and its program counter has
moved past the word. -/
structure Sequential (s t : State) (size : Nat) (x : Reg → Word) (flags : BitVec 32) : Prop where
  x : ∀ r, t.x r = x r
  fpflags : t.me.fpflags = s.me.fpflags ||| flags
  vlen : t.me.vlen = s.me.vlen
  ended : t.me.ended = s.me.ended
  ext : t.me.ext = none
  wait : t.me.wait = none
  pc : t.me.pc = (s.me.advance size).pc
  block : t.me.block = (s.me.advance size).block

/-- Outside the streams and slots nothing has changed but what a translation cache holds, which no program sees
except as the staleness of R344. -/
structure SameButCaches (s t : State) : Prop where
  outside : { t.outside with tiles := [] } = { s.outside with tiles := [] }
  tiles : ∀ k, { t.tile k with tcache := [] } = { s.tile k with tcache := [] }
  memory : ∀ a, t.mem.readByte a = s.mem.readByte a

/-- The landing word of a transfer to `target` can be fetched and is a block header (R115). -/
def State.lands (s : State) (target : Word) : Bool :=
  match s.fetchWord s.cur.tile s.cur.stream target.toNat with
  | (.ok bs, _) => isHeader bs
  | _ => false

/-- A word transfers control to `target`, leaving the block it stood in, with registers `x` (R113, R138). -/
def Jumps (i : Instr) (s : State) (target : Word) (x : Reg → Word) : Prop :=
  ∃ t, exec i s = .next t ∧ OtherStreamsKept s t ∧ SameButCaches s t ∧ (∀ r, t.x r = x r) ∧ t.me.pc = target ∧
    t.me.block = none ∧ t.me.fpflags = s.me.fpflags ∧ t.me.vlen = s.me.vlen ∧ t.me.ended = s.me.ended ∧
    t.me.ext = none

/-- The registers with `v` written to `d`; x0 reads zero and keeps nothing (R17). -/
def State.wrote (s : State) (d : Reg) (v : Word) (r : Reg) : Word :=
  if r = 0#6 then 0 else if r = d then v else s.x r

/-- An instruction word completes, writes `v` to register `d` and changes nothing else but its stream's program
counter and its slot's tacks. -/
def WritesReg (i : Instr) (s : State) (size : Nat) (d : Reg) (v : Word) : Prop :=
  ∃ t, exec i s = .next t ∧ OnlyStream s t ∧ Sequential s t size (s.wrote d v) 0

/-- An instruction word completes and changes nothing but its stream's program counter and its slot's tacks. -/
def OnlyAdvances (i : Instr) (s : State) (size : Nat) : Prop :=
  ∃ t, exec i s = .next t ∧ OnlyStream s t ∧ Sequential s t size s.x 0

end Sys2Proof.Machine
end

