-- ==== Sys2Proof/Certificates/Slice0/Obligations.lean ====
section
/-!
DEFINITION. The statements: one definition a statement, each naming the rules of spec/ it rests on.

Vocabulary: Safety.lean (Ready, WritesReg, OnlyAdvances, OnlyStream, Sequential) and the definitions of
Sys2Proof.Claims below. A statement with no premise on the state holds in every state, reachable or not.
-/
namespace Sys2Proof.Claims
open Sys2Proof.Machine

/-! ## Integer results -/

/-- A 64-bit result read as 0 or 1. -/
def oneIf (c : Prop) [Decidable c] : Word := if c then 1 else 0

/-- R156: the integer register instructions. -/
def IntegerResults (s : State) (t : Tack) (d a b : Reg) : Prop :=
  let x := s.x a
  let y := s.x b
  WritesReg (.addR d a b t) s 4 d (x + y) ∧ WritesReg (.subR d a b t) s 4 d (x - y) ∧
  WritesReg (.mulR d a b t) s 4 d (x * y) ∧
  WritesReg (.mulh d a b t) s 4 d (BitVec.ofInt 64 (x.toInt * y.toInt / 2 ^ 64)) ∧
  WritesReg (.mulhu d a b t) s 4 d (BitVec.ofNat 64 (x.toNat * y.toNat / 2 ^ 64)) ∧
  WritesReg (.divI d a b t) s 4 d (if y = 0 then BitVec.allOnes 64 else BitVec.ofInt 64 (x.toInt.tdiv y.toInt)) ∧
  WritesReg (.divu d a b t) s 4 d (if y = 0 then BitVec.allOnes 64 else BitVec.ofNat 64 (x.toNat / y.toNat)) ∧
  WritesReg (.remI d a b t) s 4 d (if y = 0 then x else BitVec.ofInt 64 (x.toInt.tmod y.toInt)) ∧
  WritesReg (.remu d a b t) s 4 d (if y = 0 then x else BitVec.ofNat 64 (x.toNat % y.toNat)) ∧
  WritesReg (.andR d a b t) s 4 d (x &&& y) ∧ WritesReg (.orR d a b t) s 4 d (x ||| y) ∧
  WritesReg (.xorR d a b t) s 4 d (x ^^^ y) ∧
  WritesReg (.shl d a b t) s 4 d (BitVec.ofNat 64 (x.toNat * 2 ^ (y.toNat % 64))) ∧
  WritesReg (.shrl d a b t) s 4 d (BitVec.ofNat 64 (x.toNat / 2 ^ (y.toNat % 64))) ∧
  WritesReg (.shra d a b t) s 4 d (BitVec.ofInt 64 (x.toInt / 2 ^ (y.toNat % 64))) ∧
  WritesReg (.minS d a b t) s 4 d (BitVec.ofInt 64 (min x.toInt y.toInt)) ∧
  WritesReg (.maxS d a b t) s 4 d (BitVec.ofInt 64 (max x.toInt y.toInt)) ∧
  WritesReg (.minu d a b t) s 4 d (BitVec.ofNat 64 (min x.toNat y.toNat)) ∧
  WritesReg (.maxu d a b t) s 4 d (BitVec.ofNat 64 (max x.toNat y.toNat)) ∧
  WritesReg (.seq d a b t) s 4 d (oneIf (x = y)) ∧ WritesReg (.slt d a b t) s 4 d (oneIf (x.toInt < y.toInt)) ∧
  WritesReg (.sltu d a b t) s 4 d (oneIf (x.toNat < y.toNat)) ∧
  WritesReg (.sel d a b t) s 4 d (if s.x d ≠ 0 then x else y)

/-- The number of leading zero bits of a word (R156). -/
def leadingZeros (a : Word) : Nat := ((List.range 64).takeWhile (fun i => !a.getLsbD (63 - i))).length

/-- R100: `n` rounds of CG8 on the counter words, from these key words. -/
def counterRounds : Nat → BitVec 32 → BitVec 32 → BitVec 32 × BitVec 32 × BitVec 32 × BitVec 32 →
    BitVec 32 × BitVec 32 × BitVec 32 × BitVec 32
  | 0, _, _, c => c
  | n + 1, k0, k1, (c0, c1, c2, c3) =>
    let a := c0 + c3 + k0
    let b := c2 + c1 + k1
    counterRounds n (k0 + 0xA3B195E7#32) (k1 + 0x4D2C6F83#32) (b, c3.rotateLeft 24 ^^^ b, a, c1.rotateLeft 13 ^^^ a)

/-- R159: the field instructions; the field starts at bit `lsb` and has `w` bits. -/
def BitResults (s : State) (t : Tack) (d a b : Reg) : Prop :=
  let x := s.x a
  let lsb := (s.x b).toNat % 64
  let w := if (s.x b).toNat / 256 % 64 = 0 then 64 else (s.x b).toNat / 256 % 64
  let f := x.toNat / 2 ^ lsb % 2 ^ w
  WritesReg (.clz d a t) s 4 d (BitVec.ofNat 64 (leadingZeros x)) ∧
  WritesReg (.popc d a t) s 4 d (BitVec.ofNat 64 ((List.range 64).filter (fun i => x.getLsbD i)).length) ∧
  WritesReg (.bfx d a b false t) s 4 d (BitVec.ofNat 64 f) ∧
  WritesReg (.bfx d a b true t) s 4 d (BitVec.ofInt 64 (if 2 ^ (w - 1) ≤ f then (f : Int) - (2 ^ w : Nat) else f)) ∧
  WritesReg (.bfi d a b t) s 4 d (BitVec.ofFnLE (fun i : Fin 64 =>
    if lsb ≤ i.val ∧ i.val < min (lsb + w) 64 then x.getLsbD (i.val - lsb) else (s.x d).getLsbD i.val)) ∧
  WritesReg (.clamp d a b false t) s 4 d (if (s.x d).toInt < x.toInt then x else if (s.x b).toInt < (s.x d).toInt then s.x b else s.x d) ∧
  WritesReg (.clamp d a b true t) s 4 d (if (s.x d).toNat < x.toNat then x else if (s.x b).toNat < (s.x d).toNat then s.x b else s.x d) ∧
  (let low (v : Word) : BitVec 32 := v.setWidth 32
    let high (v : Word) : BitVec 32 := (v >>> 32).setWidth 32
    let e := s.x (b + 1)
    let y := counterRounds 8 (low x) (high x) (low (s.x b), high (s.x b), low e, high e)
    ∃ u, exec (.rndc d a b t) s = .next u ∧ OnlyStream s u ∧ Sequential s u 4 (fun r =>
      if r = 0#6 then 0 else if r = d + 1 then y.2.2.2 ++ y.2.2.1 else if r = d then y.2.1 ++ y.1 else s.x r) 0)

/-- The immediate of an I-form or U-form of `n` bits with what an EXT before it gives (R104, R105): the EXT's 23
bits stand above it. -/
def immOf (s : State) (n : Nat) (imm : BitVec n) : Int :=
  match s.me.ext with
  | none => imm.toInt
  | some e => (e ++ imm).toInt
/-- The same immediate read as unsigned. -/
def immOfU (s : State) (n : Nat) (imm : BitVec n) : Nat :=
  match s.me.ext with
  | none => imm.toNat
  | some e => (e ++ imm).toNat

/-- R157, R158: the immediate instructions. -/
def ImmediateResults (s : State) (t : Tack) (d a : Reg) (i : BitVec 9) (u : BitVec 15) : Prop :=
  let x := s.x a
  let n := immOf s 9 i
  let m := immOf s 15 u
  WritesReg (.addi d a i t) s 4 d (x + BitVec.ofInt 64 n) ∧ WritesReg (.andi d a i t) s 4 d (x &&& BitVec.ofInt 64 n) ∧
  WritesReg (.ori d a i t) s 4 d (x ||| BitVec.ofInt 64 n) ∧ WritesReg (.xori d a i t) s 4 d (x ^^^ BitVec.ofInt 64 n) ∧
  WritesReg (.shli d a i t) s 4 d (BitVec.ofNat 64 (x.toNat * 2 ^ (n % 64).toNat)) ∧
  WritesReg (.shrli d a i t) s 4 d (BitVec.ofNat 64 (x.toNat / 2 ^ (n % 64).toNat)) ∧
  WritesReg (.shrai d a i t) s 4 d (BitVec.ofInt 64 (x.toInt / 2 ^ (n % 64).toNat)) ∧
  WritesReg (.slti d a i t) s 4 d (oneIf (x.toInt < n)) ∧
  WritesReg (.muli d a i t) s 4 d (BitVec.ofInt 64 (x.toInt * n)) ∧
  WritesReg (.li d u t) s 4 d (BitVec.ofInt 64 m) ∧
  WritesReg (.lih d u t) s 4 d (BitVec.ofNat 64 ((s.x d).toNat % 2 ^ 38 + immOfU s 15 u % 2 ^ 26 * 2 ^ 38))


/-! ## Control -/

/-- An address within 56 bits (R18). -/
def addr56 (a : Word) : Word := a &&& 0x00FFFFFFFFFFFFFF

/-- R110: the compact forms that write a register, each what its 32-bit form writes, two bytes long. -/
def CompactResults (s : State) (d a i : BitVec 5) : Prop :=
  let xd := s.x (d.setWidth 6)
  let xa := s.x (a.setWidth 6)
  let D : Reg := d.setWidth 6
  WritesReg (.cMov d a) s 2 D xa ∧ WritesReg (.cAdd d a) s 2 D (xd + xa) ∧ WritesReg (.cSub d a) s 2 D (xd - xa) ∧
  WritesReg (.cAnd d a) s 2 D (xd &&& xa) ∧ WritesReg (.cOr d a) s 2 D (xd ||| xa) ∧
  WritesReg (.cXor d a) s 2 D (xd ^^^ xa) ∧ WritesReg (.cAddi d i) s 2 D (xd + BitVec.ofInt 64 i.toInt) ∧
  WritesReg (.cLi d i) s 2 D (BitVec.ofInt 64 i.toInt) ∧
  WritesReg (.cShli d i) s 2 D (BitVec.ofNat 64 (xd.toNat * 2 ^ i.toNat)) ∧
  WritesReg (.cShrli d i) s 2 D (BitVec.ofNat 64 (xd.toNat / 2 ^ i.toNat)) ∧
  OnlyAdvances .cNop s 2

/-- R113: what a header of LEN halfwords does for a number of runs: the block is entered at its first word, or
skipped for no runs. -/
def EntersBlock (i : Instr) (s : State) (runs len : Nat) (wp pp : Nat) : Prop :=
  ∃ t, exec i s = .next t ∧ OnlyStream s t ∧ (∀ r, t.x r = s.x r) ∧ t.me.fpflags = s.me.fpflags ∧ t.me.vlen = s.me.vlen ∧
    t.me.ended = s.me.ended ∧ t.me.ext = none ∧
    (let start := addr56 (s.me.pc + 4)
     let stop := addr56 (start + BitVec.ofNat 64 (2 * len))
     if runs = 0 then t.me.pc = stop ∧ t.me.block = none
     else t.me.pc = start ∧ t.me.block = some ⟨s.me.pc, start, stop, runs, wp, pp⟩)

/-- R113: the program counter and block after a word of `n` bytes: the next word, the body again, or past it. -/
def AfterWord (s t : State) (n : Nat) : Prop :=
  let next := addr56 (s.me.pc + BitVec.ofNat 64 n)
  match s.me.block with
  | none => t.me.pc = next ∧ t.me.block = none
  | some b =>
    if next ≠ b.stop then t.me.pc = next ∧ t.me.block = some b
    else if 1 < b.remaining then t.me.pc = b.start ∧ t.me.block = some { b with remaining := b.remaining - 1 }
    else t.me.pc = b.stop ∧ t.me.block = none

/-- The stop of a slot's stream `f` at a rendezvous of the mask and identifier, or its end (R140). -/
def AtRendezvous (s : State) (mask id f : Nat) : Prop :=
  (s.stream (5 * s.cur.slotK + f)).ended = true ∨ ∃ t, (s.stream (5 * s.cur.slotK + f)).wait = some (.rend mask id t)

/-- What ending the executing stream leaves alone: the registers and flags of the slot's streams, and memory. -/
def EndFrame (s t : State) : Prop :=
  t.cur = s.cur ∧ (∀ f r, f < 5 → (t.stream (5 * s.cur.slotK + f)).getX r = (s.stream (5 * s.cur.slotK + f)).getX r) ∧
    (∀ f, f < 5 → (t.stream (5 * s.cur.slotK + f)).fpflags = (s.stream (5 * s.cur.slotK + f)).fpflags) ∧
    ∀ a, t.mem.readByte a = s.mem.readByte a

/-- SELFID (R47): MODULE 17:12, TILE 11:8, CORE 7:5, SLOT 4:3, STREAM 2:0. -/
def selfIdOf (m : Nat) (p : Place) : Word :=
  BitVec.ofNat 64 (m % 64 * 4096 + p.tile % 16 * 256 + p.core * 32 + p.slot * 8 + p.stream)

/-! ## Semaphores -/

/-- The value of a semaphore as the executing stream names it (R145). -/
def semOf (s : State) (sel : Nat) : Sem := s.sem s.cur.tile s.cur.core sel
/-- R145: a selector that names a semaphore. -/
def Names (sel : BitVec 9) : Prop := sel.toNat < 64 ∨ 256 ≤ sel.toNat
/-- R148: modular comparison of a value with a threshold. -/
def AtLeast (v t : BitVec 32) : Prop := 0 ≤ (v - t).toInt

/-- What an operation on a semaphore of the executing tile leaves alone beside what it wakes: every other
semaphore, memory but for `m`, the handles and traps of every slot. -/
def SemFrame (s t : State) (n : Nat) (m : Memory) : Prop :=
  (∀ tile core m, (tile ≠ s.cur.tile ∨ m ≠ n ∨ (m < 64 ∧ core ≠ s.cur.core)) → (m < 64 ∨ 256 ≤ m) → core < 8 → s.cur.core < 8 →
      t.sem tile core m = s.sem tile core m) ∧
  (∀ a, t.mem.readByte a = m.readByte a) ∧
  (∀ k, (t.slot k).mode = (s.slot k).mode ∧ (t.slot k).handles = (s.slot k).handles ∧ (t.slot k).task = (s.slot k).task ∧
    (t.slot k).fifo = (s.slot k).fifo) ∧ t.circuits = s.circuits ∧ t.eps = s.eps ∧ t.lasers = s.lasers ∧ t.clock = s.clock

/-- No copy of the module is armed on semaphore `n`. -/
def NoneArmed (s : State) (n : Nat) : Prop := ∀ e : Eng, ∀ o ∈ (s.engine e).ops, ∀ thr, o.armed ≠ some (n, thr)

/-- Memory after a release on semaphore `n`: one of tile scope performs the core's stores at their homes (R145, R147). -/
def releasedMem (s : State) (n : Nat) : Memory := if n < 64 then s.mem else (s.drainCore s.cur.coreK).mem

/-- The executing stream runs at a place of the part and has no wait armed. -/
def Undisturbed (s : State) : Prop := s.me.wait = none ∧ s.cur.wf = true


/-! ## Memory -/

/-- What the checks of R200 answer for an access that passes them all: where its bytes stand and its page's leaf. -/
def access (s : State) (h : Handle) (idx : Nat) (off : Int) (w : Want) : Option (List (List (Nat × Nat)) × Word) :=
  match s.checkMem h idx off w with
  | .ok segs leaf _ => some (segs, leaf)
  | _ => none

/-- No agent of the executing core has a reduction on its way (R171, R211). -/
def NoReductions (s : State) : Prop := ∀ e ∈ s.tiles, ∀ r ∈ e.2.reds, r.source / 20 ≠ s.cur.coreK

/-- Everything outside the executing stream is kept but translation caches and the executing core's L1. -/
def LoadFrame (s u : State) : Prop :=
  OtherStreamsKept s u ∧ { u.outside with tiles := [], aux := [] } = { s.outside with tiles := [], aux := [] } ∧
    (∀ k, { u.tile k with tcache := [] } = { s.tile k with tcache := [] }) ∧
    (∀ k, k ≠ s.cur.coreK → u.auxOf k = s.auxOf k) ∧ { u.auxOf s.cur.coreK with l1 := [] } = { s.auxOf s.cur.coreK with l1 := [] } ∧
    ∀ a, u.mem.readByte a = s.mem.readByte a

/-- The bytes a load meets (R202, R178): a line its core holds in the L1 under a cached policy in space 4, else the
home's bytes with the core's store buffer laid over them (R171). -/
def loadedBytes (s : State) (h : Handle) (f : BitVec 3) (leaf : Word) (a n : Nat) : List Byte :=
  match s.line s.cur.coreK a with
  | some l => if h.space = 4 ∧ ¬ s.cur.thimble ∧ h.policy f leaf ≠ 0 then (l.bytes.drop (a % 64)).take n else s.coreView s.cur.coreK a n
  | none => s.coreView s.cur.coreK a n

/-- A line that a run of bytes meets, and an L1 whose lines that meet no run of a list are kept, and no other (R152, R209). -/
def lineMeets (l : Line) (r : Nat × Nat) : Bool := decide (64 * l.num < r.1 + r.2) && decide (r.1 < 64 * l.num + 64)
def linesBut (l1 : List Line) (rs : List (Nat × Nat)) : List Line := l1.filter (fun l => rs.all (fun r => !lineMeets l r))
/-- The runs of physical bytes that `n` units of the operand's window occupy, on the pages that are mapped (R152, R198). -/
def namedRuns (s : State) (m : MemOp) (n : Nat) : List (Nat × Nat) :=
  s.flatRanges ((s.h m.h).view s.cur m.h.toNat) ((s.h m.h).unitRanges (s.offM m) n)

/-- R203 to R205: a load of `bytes` bytes (or one sub-byte element) that passes its checks writes the value to xD,
sign-extended when `signed`, and changes no byte of memory. -/
def LoadGives (i : Instr) (s : State) (d : Reg) (m : MemOp) (f : BitVec 3) (bytes : Nat) (signed dev : Bool) : Prop :=
  let h := s.h m.h
  let off := s.offM m
  let b := h.scalarBits off bytes
  ∀ segs leaf, access s h m.h.toNat off (h.scalarWant off bytes false dev s.cur.thimble) = some (segs, leaf) → h.space ≠ 9 →
    let v := leNat (loadedBytes s h f leaf (firstAddr segs) ((b.1 % 8 + b.2 + 7) / 8)) / 2 ^ (b.1 % 8) % 2 ^ b.2
    ∃ u, exec i s = .next u ∧ LoadFrame s u ∧
      Sequential s u 4 (s.wrote d (BitVec.ofInt 64 (if signed ∧ 2 ^ (b.2 - 1) ≤ v then (v : Int) - 2 ^ b.2 else v))) 0

/-- A bit of memory as the executing core's streams see it: the home's with the store buffer laid over it (R171). -/
def coreBit (s : State) (bit : Nat) : Bool := ((s.coreView s.cur.coreK (bit / 8) 1).headD 0).getLsbD (bit % 8)

/-- R202 to R205: a store of `bytes` bytes (or one sub-byte element) that passes its checks: the addressed bits are
those of xD as every stream of the core sees them, every other bit is as before; no register changes; and while the
store stands in the store buffer no byte of memory has changed. -/
def StoreGives (i : Instr) (s : State) (d : Reg) (m : MemOp) (f : BitVec 3) (bytes : Nat) (dev : Bool) : Prop :=
  let h := s.h m.h
  let off := s.offM m
  let b := h.scalarBits off bytes
  ∀ segs leaf, access s h m.h.toNat off (h.scalarWant off bytes true dev s.cur.thimble) = some (segs, leaf) → h.space ≠ 9 →
    let lo := 8 * firstAddr segs + b.1 % 8
    (h.space = 1 → ∀ e ∈ (s.auxOf s.cur.coreK).stores, e.meets ⟨0, lo, b.2, 0⟩ = false) →
    ∃ u, exec i s = .next u ∧ OtherStreamsKept s u ∧ Sequential s u 4 s.x 0 ∧
      { u.outside with tiles := [], aux := [], mem := [] } = { s.outside with tiles := [], aux := [], mem := [] } ∧
      (∀ k, { u.tile k with tcache := [] } = { s.tile k with tcache := [] }) ∧
      (∀ k, k ≠ s.cur.coreK → u.auxOf k = s.auxOf k) ∧
      (∀ bit, coreBit u bit = if lo ≤ bit ∧ bit < lo + b.2 then (s.x d).getLsbD (bit - lo) else coreBit s bit) ∧
      (h.space ≠ 1 → f.getLsbD 2 = false → leafPt leaf = false → s.cur.thimble = false → ∀ a, u.mem.readByte a = s.mem.readByte a) ∧
      ((f.getLsbD 2 = true ∨ leafPt leaf = true) → h.space ≠ 1 → (u.auxOf s.cur.coreK).stores = [])

/-- The signed reading of a `w`-bit number. -/
def signedW (w v : Nat) : Int := if 2 ^ (w - 1) ≤ v then (v : Int) - (2 ^ w : Nat) else v

/-- R210: an atomic on a `w`-bit operand `old` at its home: `new` is stored (nothing where none), xD takes the old
value, FPFLAGS gain `flags`, and every other byte is as the core's earlier stores left it. -/
def AtomicGives (i : Instr) (s : State) (d : Reg) (m : MemOp) (types : List Nat)
    (new : Nat → Nat → Nat → Nat → Option Nat × Nat) : Prop :=
  let h := s.h m.h
  let off := s.offM m
  let w := atomicW h.type
  ∀ segs leaf, access s h m.h.toNat off (h.atomicWant off types false) = some (segs, leaf) →
    let a := firstAddr segs
    let s1 := s.drainCore s.cur.coreK
    let old := s1.mem.readNat a (w / 8)
    let r := new w old ((s.x d).toNat % 2 ^ w) ((s.x (d + 1)).toNat % 2 ^ w)
    ∃ u, exec i s = .next u ∧ OtherStreamsKept s u ∧
      { u.outside with tiles := [], aux := [], mem := [] } = { s.outside with tiles := [], aux := [], mem := [] } ∧
      (∀ k, { u.tile k with tcache := [] } = { s.tile k with tcache := [] }) ∧
      u.mem.readNat a (w / 8) = (r.1.getD old) % 2 ^ w ∧
      (∀ x, x < a ∨ a + w / 8 ≤ x → u.mem.readByte x = s1.mem.readByte x) ∧
      Sequential s u 4 (s.wrote d (if h.type = 2 ∨ h.type = 3 then BitVec.ofInt 64 (signedW w old) else BitVec.ofNat 64 old))
        (BitVec.ofNat 32 (r.2 % 64))

/-- R211: a reduction that passes its checks is accepted at its home under its source's next number for that home;
no byte of memory changes by it and no register. -/
def ReductionAccepted (i : Instr) (s : State) (d : Reg) (m : MemOp) (types : List Nat) (rop : Nat) : Prop :=
  let h := s.h m.h
  let off := s.offM m
  let w := atomicW h.type
  ∀ segs leaf, access s h m.h.toNat off (h.atomicWant off types true) = some (segs, leaf) →
    let a := firstAddr segs
    let key := redKey s.cur.streamK (homeOf a)
    let n := Tab.get 0 key s.myCore.redSent + 1
    ∃ u, exec i s = .next u ∧ OtherStreamsKept s u ∧ Sequential s u 4 s.x 0 ∧ u.mem = (s.drainCore s.cur.coreK).mem ∧
      Tab.get 0 key u.myCore.redSent = n ∧
      ∃ r, (u.tile (homeTile a)).reds = (s.tile (homeTile a)).reds ++ [r] ∧ r.source = s.cur.streamK ∧ r.home = homeOf a ∧
        r.number = n ∧ r.addr = a ∧ r.bit = 0 ∧ r.type = h.type ∧ r.rop = rop ∧ r.value = (s.x d).toNat % 2 ^ w

/-- R207: the view of a handle that F selects. -/
def handleView (h : Handle) (f : Nat) : Word :=
  BitVec.ofNat 64 ([h.base, h.bound,
    h.type + 2 ^ 5 * h.space + 2 ^ 9 * h.ceil + 2 ^ 11 * h.pr.toNat + 2 ^ 12 * h.pw.toNat + 2 ^ 13 * h.pa.toNat +
      2 ^ 14 * (if isPB h.type then h.rank else 0),
    h.wstart, h.e0, h.e1 + 2 ^ 32 * h.e2, h.e3, h.peer + 2 ^ 8 * h.ptile + 2 ^ 16 * h.ridx].getD f 0)

/-- The bobbin the instruction names. -/
def bobOf (s : State) (b : BitVec 4) : Bobbin := s.bobbin s.cur.coreK b.toNat

/-- A bobbin instruction completes: xD holds `v` where it writes one, the bobbin is `q`, and nothing else has
changed. -/
def BobbinGives (i : Instr) (s : State) (b : BitVec 4) (x : Reg → Word) (q : Bobbin) : Prop :=
  ∃ u, exec i s = .next u ∧ OtherStreamsKept s u ∧ Sequential s u 4 x 0 ∧ bobOf u b = q ∧
    { u.outside with cores := [] } = { s.outside with cores := [] } ∧ (∀ k, k ≠ s.cur.coreK → u.core k = s.core k) ∧
    { u.myCore with bobbins := [] } = { s.myCore with bobbins := [] } ∧ (∀ c, c ≠ b → bobOf u c = bobOf s c) ∧
    ∀ a, u.mem.readByte a = s.mem.readByte a


/-! ## Copies -/

/-- The pattern at a copy instruction's operand and its scratchpad offset, where the operand passes its checks (R218,
R220). -/
def patternAt (s : State) (m : MemOp) : Option (Pattern × Nat) :=
  let h := s.h m.h
  let off := s.offM m
  (access s h m.h.toNat off { acc := .read, spaces := [1], pr := true, pw := false, typeOk := !isPB h.type, align := 128
                              n := if elemUnit h.type then 1024 / max 1 (typeWidth h.type) else 128
                              ranges := [((h.unitByte off).toNat, 128)] }).map
    (fun a => (patternOf (readSegs (s.drainCore s.cur.coreK).mem a.1.flatten), ((h.base : Int) + h.unitByte off).toNat))

/-- A pattern with iterations that passes every check of R220 and R226. -/
def CopyPasses (s : State) (a : Nat) (kind : CopyKind) (strict : Bool) (pat : Pattern) (arg : Nat := 0) : Prop :=
  pat.total ≠ 0 ∧ pat.formatBad kind s.cur.thimble = false ∧
    s.copyChecks s.cur a pat (s.copyEnds kind pat) copySpaces copySpaces strict = none ∧ s.bobtBad s.cur kind pat arg = false

/-- R120, R218, R224: the engine has accepted the operation: it holds one more, with these fields; the record's STATUS
is 0; and apart from the stream's earlier stores no other byte of memory has changed, nor any register. -/
def CopyAccepted (i : Instr) (s : State) (tile : Bool) (kind : CopyKind) (pat : Pattern) (recOff : Option Nat) (arg : Nat)
    (armed : Option (Nat × BitVec 32)) : Prop :=
  let e := engineOf s.cur tile
  ∃ u, exec i s = .next u ∧ Sequential s u 4 s.x 0 ∧
    u.mem = (match recOff with
      | some r => (s.drainCore s.cur.coreK).mem.writeNat (spaceAddr s.cur 1 r + 108) 4 0
      | none => (s.drainCore s.cur.coreK).mem) ∧
    (u.engine e).next = (s.engine e).next + 1 ∧ (u.engine e).ops.length = (s.engine e).ops.length + 1 ∧
    (∀ k, (u.slot k).mode = (s.slot k).mode ∧ (u.slot k).handles = (s.slot k).handles) ∧
    ∃ o, (u.engine e).ops.getLast? = some o ∧ o.id = (s.engine e).next ∧ o.place = s.cur ∧ o.kind = kind ∧ o.pat = pat ∧
      o.recOff = recOff ∧ o.arg = arg ∧ o.armed = armed ∧ o.started = false ∧ o.done = 0 ∧ o.paused = none ∧
      o.src = s.h (BitVec.ofNat 6 pat.sh) ∧ o.dst = s.h (BitVec.ofNat 6 pat.dh)

/-- The pattern CPYQ's operands stand for (R228). -/
def quickPattern (s : State) (d a b : Reg) : Pattern :=
  { cnt := [(s.x d).toNat % 2 ^ 32, 1, 1, 1, 1, 1], sstr := [1, 0, 0, 0, 0, 0], dstr := [1, 0, 0, 0, 0, 0], type := (s.h a).type
    flags := if (s.x d).getLsbD 41 then 16 else 0, rop := 0, bob := 0, sh := a.toNat, dh := b.toNat, circ := 0, soff := 0
    doff := 0, sfsel := 0, dvsel := (s.x d).toNat / 2 ^ 32 % 2 ^ 9, sfinc := 0, dvinc := 1 }

/-- An operation an engine may run: under power, started or not, neither armed, paused nor waiting, and on no page whose
fault is pending (R345). -/
def Runnable (s : State) (e : Eng) (id : Nat) (o : CopyOp) : Prop :=
  s.findOp e id = some o ∧ o.armed = none ∧ o.paused = none ∧ o.waiting = false ∧ s.engineOn e = true ∧ e.wf = true ∧
    s.copyPageHeld e o = false
/-- The record of an operation as its end leaves it: STATUS, ZCOUNT and DONE, and no other byte of memory (R218, R225). -/
def RecordEnds (s u : State) (o : CopyOp) (r status : Nat) : Prop :=
  let a := spaceAddr o.place 1 r
  u.mem.readNat (a + 108) 4 = status ∧ u.mem.readNat (a + 112) 4 = o.zeroed.length % 2 ^ 32 ∧ u.mem.readNat (a + 120) 8 = o.done % 2 ^ 64 ∧
    ∀ x, x < a + 108 ∨ (a + 116 ≤ x ∧ x < a + 120) ∨ a + 128 ≤ x → u.mem.readByte x = s.mem.readByte x

/-- No operation the engine accepted before this one has still to start, but armed ones and fabric copies (R227, R229). -/
def FirstToStart (s : State) (e : Eng) (id : Nat) : Prop :=
  ∀ x ∈ (s.engine e).ops.takeWhile (fun x => decide (x.id ≠ id)), x.started = true ∨ x.armed.isSome = true ∨ x.waiting = true

/-- An engine's event changes no register, flag or program counter of any stream. -/
def StreamsUntouched (s u : State) : Prop :=
  u.cur = s.cur ∧ ∀ k, (u.stream k).x = (s.stream k).x ∧ (u.stream k).pc = (s.stream k).pc ∧ (u.stream k).fpflags = (s.stream k).fpflags

/-- Nothing of the module waits on a semaphore: no stream, no copy, no transform record. -/
def NoWaiters (s : State) : Prop :=
  (∀ p : Place, match (s.at p).wait with
    | some (.semw _ _ _ _) => False
    | some (.semwa _ _ _ _ _) => False
    | _ => True) ∧ (∀ e : Eng, ∀ o ∈ (s.engine e).ops, o.armed = none) ∧
    ∀ tile e, ∀ o ∈ (s.xfm tile e).queue, bitN o.wsel 15 = true → o.passed = true

/-! ## Rows, plies and vectors -/

/-- What a row or ply instruction leaves alone: every other stream, slot, core and tile but translation caches; its
registers are `x`, its FPFLAGS gain `fl`. -/
def DataFrame (s u : State) (x : Reg → Word) (fl : BitVec 32) : Prop :=
  OtherStreamsKept s u ∧ Sequential s u 4 x fl ∧
    { u.outside with tiles := [], aux := [], mem := [] } = { s.outside with tiles := [], aux := [], mem := [] } ∧
    (∀ k, { u.tile k with tcache := [] } = { s.tile k with tcache := [] }) ∧ ∀ k, k ≠ s.cur.coreK → u.auxOf k = s.auxOf k

/-- An address outside every run of a list. -/
def Outside (a : Nat) (runs : List (Nat × Nat)) : Prop := ∀ e ∈ runs, a < e.1 ∨ e.1 + e.2 ≤ a

/-- R230, R261: `n` rows go from checked memory to the SRAM at `a` (a load), or from it to memory (a store). -/
def RowsMove (i : Instr) (s : State) (segs : List (Nat × Nat)) (store : Bool) (a n : Nat) : Prop :=
  let s1 := s.drainCore s.cur.coreK
  ∃ u, exec i s = .next u ∧ DataFrame s u s.x 0 ∧
    (store = false → (∀ j, j < 2048 * n → u.mem.readByte (a + j) = (readSegs s1.mem segs).getD j 0) ∧
      ∀ x, Outside x [(a, 2048 * n)] → u.mem.readByte x = s1.mem.readByte x) ∧
    (store = true → u.mem = writeSegs s1.mem segs (s1.mem.readBytes a (2048 * n)) ∧
      ∀ x, Outside x segs → u.mem.readByte x = s1.mem.readByte x)

/-- A quotient rounded to the nearest integer, a tie to the even one. -/
def nearest (m d : Int) : Int :=
  let q := m.fdiv d
  let r := m - q * d
  if 2 * r < d then q else if d < 2 * r then q + 1 else if q % 2 = 0 then q else q + 1

/-- R82, R83: a mantissa of 2q bits delivered at p plies: truncated, rounded half up or to nearest even, and clamped to
2p bits. -/
def deliveredAt (mode p q : Nat) (m : Int) : Int × Bool :=
  if p = q then (m, false)
  else
    let d : Int := 4 ^ (q - p)
    let v := if mode = 0 then m.fdiv d else if mode = 1 then (m + d / 2).fdiv d else nearest m d
    let c := max (-(2 ^ (2 * p - 1))) (min v (2 ^ (2 * p - 1) - 1))
    (c, decide (c ≠ v))

/-- R68: NX where a value delivered at p plies, put back to the plies its mode fetches, is not the one fetched (log 31). -/
def deliveredInexact (mode p q : Nat) (m : Int) : Bool :=
  let v := (deliveredAt mode p q m).1
  if p = q ∨ mode = 0 then false
  else if mode = 1 then decide (v * 4 ≠ m.fdiv (4 ^ (q - p - 1)))
  else decide (v * 4 ^ (q - p) ≠ m)
/-- The NX bit of FPFLAGS when it is set. -/
def inexact (b : Bool) : Nat := if b = true then 1 else 0
/-- Flags together. -/
def flagsOf (l : List Nat) : Nat := l.foldl (fun x y => x ||| y) 0

/-- A block delivered, how many of its elements were clamped, and its flags; a NaN block counts and raises none. -/
def deliveredBlock (mode p q : Nat) (b : Nat × List Int) : (Nat × List Int) × Nat × Nat :=
  ((b.1, b.2.map (fun m => (deliveredAt mode p q m).1)),
    if b.1 = 255 then (0, 0) else (b.2.countP (fun m => (deliveredAt mode p q m).2), inexact (b.2.any (deliveredInexact mode p q))))

/-- R238: a block times 2^k, its clamps, and its flags. -/
def scaledBlock (q : Nat) (k : Int) (b : Nat × List Int) : (Nat × List Int) × Nat × Nat :=
  let e := (b.1 : Int) + k
  let hi : Int := 2 ^ (2 * q - 1) - 1
  let v (m : Int) : Int := m * 2 ^ (e - 254).toNat
  let c (m : Int) : Int := max (-hi - 1) (min (v m) hi)
  let r (m : Int) : Int := nearest m (2 ^ (-e).toNat)
  if b.1 = 255 then (b, 0, 0)
  else if e < 0 then ((0, b.2.map r), 0, inexact (b.2.any (fun m => decide (r m * 2 ^ (-e).toNat ≠ m))))
  else if e ≤ 254 then ((e.toNat, b.2), 0, 0)
  else ((254, b.2.map c), b.2.countP (fun m => decide (c m ≠ v m)), inexact (b.2.any (fun m => decide (c m ≠ v m))))

/-- R240: a block with its mantissas as large as its scale and 2q bits allow, and whether its scale changed. -/
def normalBlock (q : Nat) (b : Nat × List Int) : (Nat × List Int) × Nat × Nat :=
  let fits (k : Nat) : Bool := b.2.all (fun m => decide (-(2 ^ (2 * q - 1)) ≤ m * 2 ^ k ∧ m * 2 ^ k ≤ 2 ^ (2 * q - 1) - 1))
  if b.1 = 255 then (b, 0, 0)
  else if b.2.all (fun m => decide (m = 0)) then ((0, b.2), if b.1 = 0 then 0 else 1, 0)
  else
    let k := (((List.range (b.1 + 1)).filter fits).getLast?).getD 0
    ((b.1 - k, b.2.map (fun m => m * 2 ^ k)), if k = 0 then 0 else 1, 0)

/-- R94, R68: values quantised to a block of q plies: the block, its clamps, and NX. -/
def quantisedBlock (vs : List Machine.Num) (q mode : Nat) (rnds : List Nat) : (Nat × List Int) × Nat × Nat :=
  let b := quantBlock vs q mode rnds
  ((b.1, b.2.1), b.2.2, inexact (quantNX vs q mode rnds))

/-- The checks of a ply instruction on its tensors (R200, R231, R232), and the state with what they cached. -/
def plyReady (s : State) (n : Nat) (uses : List PlyUse) : Option State :=
  if uses.all (fun u => (s.preCheck u.e.h u.e.r u.e.off (u.e.want n u.sc u.plies)).isNone) then
    match uses.foldl (fun (c : Chk) u => match c with
        | .ok _ _ s => s.postCheck u.e.h u.e.r u.e.off (u.e.want n u.sc u.plies)
        | c => c) (.ok [] 0 s) with
    | .ok _ _ s' => some s'
    | _ => none
  else none

/-- Groups 0 to n − 1 in order: the sum of their counts, and their flags together. -/
def plyGroups (n : Nat) (body : Nat → State → (Nat × Nat) × State) (s : State) : (Nat × Nat) × State :=
  (List.range n).foldl (fun p i => let r := body i p.2; ((p.1.1 + r.1.1, p.1.2 ||| r.1.2), r.2)) ((0, 0), s)

/-- A ply instruction whose checks pass, with no poisoned granule about, does `body` to its groups in order, answers
the count where it answers one, and changes no byte outside its second or first tensor's groups. -/
def PlyGives (i : Instr) (s : State) (t : Tack) (n : Nat) (uses : List PlyUse) (x : Nat → Reg → Word) (sat : Bool)
    (body : Nat → State → (Nat × Nat) × State) : Prop :=
  s.poison = [] → ∀ s', plyReady (s.popped t) n uses = some s' →
    let r := plyGroups n body s'.settle
    ∃ u, exec i s = .next u ∧
      DataFrame s u (x r.1.1) (BitVec.ofNat 32 ((r.1.2 ||| (if sat = true ∧ 0 < r.1.1 then 32 else 0)) % 64)) ∧ u.mem = r.2.mem ∧
      ((∀ e ∈ uses, e.e.acc.writes = true → direct e.e.h.space = true) → ∀ a,
        (∀ e ∈ uses, e.e.acc.writes = true → Outside a ((e.e.ranges 0 n e.sc e.plies).map (fun g =>
          (spaceAddr (e.e.view s.cur).place e.e.h.space (e.e.h.base + g.1), g.2)))) →
        u.mem.readByte a = s'.settle.mem.readByte a)

/-- A group of blocks, their counts added and their flags together. -/
def groupOf (q : Nat) (bl : List ((Nat × List Int) × Nat × Nat)) : (Nat × Nat) × Group :=
  (((bl.map (fun b => b.2.1)).sum, flagsOf (bl.map (fun b => b.2.2))), Group.ofBlocks q (bl.map (·.1)))
/-- The blocks of a group after `f`. -/
def mapGroup (f : (Nat × List Int) → (Nat × List Int) × Nat × Nat) (q : Nat) (g : Group) : (Nat × Nat) × Group := groupOf q (g.blocks.map f)

/-- The executing slot owns the tiles the row words of these registers name (R30, R243). -/
def Owned (s : State) (rows : List Reg) : Prop := ∀ r ∈ rows, s.ownsTile (rowWord (s.x r)).tile = true

/-- What a vector or matrix instruction on accumulators leaves alone: every other stream, slot and core, and all of its
core but the side arrays of tile `a`, which are `acc`. -/
def AccumFrame (s u : State) (x : Reg → Word) (fl : Nat) (a : Nat) (acc : Accum) : Prop :=
  OtherStreamsKept s u ∧ Sequential s u 4 x (BitVec.ofNat 32 (fl % 64)) ∧
    { u.outside with mem := [], cores := [] } = { s.outside with mem := [], cores := [] } ∧
    (∀ k, k ≠ s.cur.coreK → u.core k = s.core k) ∧ { u.myCore with accums := [] } = { s.myCore with accums := [] } ∧
    ∀ b, u.myCore.accum b = if b = a then acc else s.myCore.accum b

/-- The first byte of the row a register names. -/
def rowAddr (s : State) (r : Reg) : Nat := accAddr s.cur.coreK (rowWord (s.x r)).tile (rowWord (s.x r)).row 0

/-- An instruction on accumulators completes: registers are `x`, FPFLAGS gain `fl`, memory (the accumulators in it) is
`m`, which differs from before in the named runs alone, and nothing else changes. -/
def StoresOnly (i : Instr) (s : State) (x : Reg → Word) (fl : Nat) (m : Memory) (runs : List (Nat × Nat)) : Prop :=
  ∃ u, exec i s = .next u ∧ OtherStreamsKept s u ∧ Sequential s u 4 x (BitVec.ofNat 32 (fl % 64)) ∧
    { u.outside with mem := [] } = { s.outside with mem := [] } ∧ u.mem = m ∧
    ∀ a, Outside a runs → u.mem.readByte a = s.mem.readByte a

/-- A vector instruction completes: row D holds the lanes, and FPFLAGS gain the flags. -/
def RowIs (i : Instr) (s : State) (d : Reg) (r : List Nat × Nat) : Prop :=
  StoresOnly i s s.x r.2 (s.putRow (rowWord (s.x d)) r.1).mem [(rowAddr s d, 2048)]

/-- A vector instruction answers a scalar with flags and changes nothing else. -/
def ScalarIs (i : Instr) (s : State) (d : Reg) (v : Word) (fl : Nat) : Prop :=
  ∃ u, exec i s = .next u ∧ OnlyStream s u ∧ Sequential s u 4 (s.wrote d v) (BitVec.ofNat 32 (fl % 64))

/-- A row with its lanes below `n` replaced (R245), and the flags of those lanes together (R248). -/
def activeLanes (n : Nat) (d : List Nat) (f : Nat → Nat → Nat × Nat) : List Nat × Nat :=
  ((d.zipIdx).map (fun (v, l) => if l < n then (f l v).1 else v),
    (((d.zipIdx).take n).map (fun (v, l) => (f l v).2)).foldl (fun a b => a ||| b) 0)

/-- R249: the exact integer result of an elementwise operation. -/
def exactInt (o : LaneOp) (x y z : Int) : Int :=
  match o with
  | .add => x + y
  | .sub => x - y
  | .mul => x * y
  | .fma => x * y + z
  | .min => min x y
  | .max => max x y
  | .abs => |x|
  | .neg => -x

/-- R249 to R251: an elementwise lane; integers wrapped to the lane, or clamped under .SAT. -/
def elemLane (o : LaneOp) (ty f a b d : Nat) : Nat × Nat :=
  match fmtOf ty with
  | some fm => o.float fm (if f ≤ 4 then f else 0) a b d
  | none =>
    let v := exactInt o (intOf ty a) (intOf ty b) (intOf ty d)
    let c := if f % 2 = 1 then max (intLo ty) (min v (intHi ty)) else v
    ((c % 2 ^ typeWidth ty).toNat, if c = v then 0 else 33)

/-- R252: the condition F of VCMP. -/
def compares (ty f a b : Nat) : Bool :=
  let nan := match fmtOf ty with | some fm => (fm.decode a).isNan || (fm.decode b).isNan | none => false
  let lt (x y : Nat) : Bool := match fmtOf ty with
    | some fm => (fm.decode x).lt false (fm.decode y)
    | none => decide (intOf ty x < intOf ty y)
  let eq := !nan && !lt a b && !lt b a
  [eq, !eq, lt a b, lt a b || eq, lt b a, lt b a || eq, !nan, nan].getD f false

/-! ## The matrix engine -/

/-- What a matrix instruction leaves alone: every other stream, slot and core and tile but translation caches; the side
arrays of tile `a` are `acc`, the engine is `mx`. -/
def MatrixFrame (s u : State) (x : Reg → Word) (fl : Nat) (a : Nat) (acc : Accum) (mx : Matrix) : Prop :=
  OtherStreamsKept s u ∧ Sequential s u 4 x (BitVec.ofNat 32 (fl % 64)) ∧
    { u.outside with mem := [], cores := [], aux := [], tiles := [] } = { s.outside with mem := [], cores := [], aux := [], tiles := [] } ∧
    (∀ k, { u.tile k with tcache := [] } = { s.tile k with tcache := [] }) ∧
    (∀ k, k ≠ s.cur.coreK → u.core k = s.core k ∧ u.auxOf k = s.auxOf k) ∧
    { u.myCore with accums := [], matrix := {} } = { s.myCore with accums := [], matrix := {} } ∧
    u.matrix = mx ∧ ∀ b, u.myCore.accum b = if b = a then acc else s.myCore.accum b

/-- The engine after an instruction that takes effect beside a valid progress record (R281). -/
def discarded (m : Matrix) : Matrix := if m.record.isSome then { m with record := none, discarded := true } else m

/-- R274's number of plies, for control word `cw` and mode: 0 where no row of the table takes the type and PW. -/
def latched (type mode : Nat) (cw : Word) : Nat :=
  let pw := cw.toNat / 2 ^ 16 % 16
  let q := if isPB type then pbPlies type else typeWidth type / 2
  let p := if pw = 0 then q else pw
  if mode = 0 ∧ isPB type ∧ p ≤ 4 ∧ p ≤ q then p
  else if mode = 0 ∧ (type = 0 ∨ type = 0x10 ∨ type = 0x12) ∧ p = q then p
  else if (mode = 1 ∨ mode = 2) ∧ (type = 0x1F ∨ type = 1) then 4 else 0

/-- The lanes a pass leaves in row i (R279): the products of the activation blocks with column c's blocks added in
order, and columns past NC as they were. -/
def passLanes (s : State) (p : Place) (ps : Pass) (i : Nat) : List Nat :=
  let mx := (s.core p.coreK).matrix
  let b := mx.activeBuf
  let i32 := decide (((s.core p.coreK).accum ps.tile).type = 2)
  let acts := s.blocks48 (ps.h.view p ps.hidx) ps.h ps.off (i * (384 * b.stack)) (384 * b.stack) ps.pa
  ((s.getRow p.coreK ps.tile (ps.row + i) 32).zipIdx).map (fun (v, c) =>
    if c < b.nc then
      ((acts.zipIdx).foldl (fun acc (a, k) =>
        let prod := blockProduct a.1 (b.scale c k) ps.pa b.pwE
          (((a.2.zip (s.weights p.coreK mx.active b c k)).map (fun (x, y) => x * y)).sum)
        accumulate i32 (ps.zero && decide (k = 0)) acc prod) v) % 2 ^ 32
    else v)

/-- Tile rows `row` to `row + n − 1` of a core, as runs of bytes. -/
def rowRuns (core tile row n : Nat) : List (Nat × Nat) := [(accAddr core tile row 0, 2048 * n)]

/-- One drained element (R286). -/
def drained (s : State) (w : RowWord) (ty f i c : Nat) : Nat × Nat × Bool × Bool :=
  let m := s.matrix
  let v := (s.getRow s.cur.coreK w.tile (w.row + i) 32).getD c 0
  let rs := fp32.decode (Tab.get one32 (w.row + i) m.rowScale).toNat
  let cs := fp32.decode (Tab.get one32 c m.colScale).toNat
  let t := ((((valueOf (s.tileType w.tile) v).mul rs).1.mul cs).1.add false (fp32.decode (Tab.get 0 c m.bias).toNat)).1
  let u := cvt fp32 t 0 false
  let y := activate f u.1
  let o := cvtTo ty (fp32.decode y.1) 0 (w.flg % 2 = 0)
  (o.1, u.2 ||| o.2, decide (o.2 / 32 % 2 = 1), (fp32.decode y.1).isNan)

/-- R293: the lanes an MGEMV leaves, with no poison about. -/
def gemvRow (s : State) (p : Place) (g : Mgemv) : List Nat :=
  let v := s.blocks48 (g.vec.view p g.vidx) g.vec g.voff 0 g.k g.pa
  let m := s.blocks48 (g.mat.view p g.midx) g.mat g.moff 0 (g.n * g.k) g.pw
  ((s.getRow p.coreK g.tile g.row 32).zipIdx).map (fun (acc0, j) =>
    if j < g.n then
      ((List.range (g.k / 48)).foldl (fun acc k =>
        let a := v.getD k (0, [])
        let w := m.getD (j * (g.k / 48) + k) (0, [])
        accumulate false (g.zero && decide (k = 0)) acc
          (blockProduct a.1 w.1 g.pa g.pw (((a.2.zip w.2).map (fun (x, y) => x * y)).sum))) acc0) % 2 ^ 32
    else acc0)

/-! ## Exceptions and the system registers -/

/-- The word at a slot's TVEC can be fetched and is a block header (R38). -/
def HandlerLands (s : State) (p : Place) : Prop :=
  ∃ bs u, s.fetchWord p.tile 0 (s.slot p.slotK).regs.tvec.toNat = (.ok bs, u) ∧ isHeader bs = true

/-- No matrix pass of the slot of `p` is in its core's array. -/
def NoPass (s : State) (p : Place) : Prop := ∀ ps n, (s.core (p.slotK / 4)).matrix.running = some (ps, n) → ps.slot ≠ p.slotK

/-- The streams of a slot stopped at their boundaries, with everything else they hold (R105, R135, R362). -/
def StreamsStop (s u : State) (k : Nat) : Prop :=
  ∀ f, f < 5 → let a := s.stream (5 * k + f)
    let b := u.stream (5 * k + f)
    b.x = a.x ∧ b.fpflags = a.fpflags ∧ b.vlen = a.vlen ∧ b.ended = a.ended ∧ b.block = a.block ∧ b.push = a.push ∧ b.wait = none ∧
      b.ext = none ∧ b.pc = if a.ext.isSome then addr56 (a.pc - 4) else a.pc

/-- The trap registers set for an event (steps 1 to 3 of R362): every other register of the slot stays. -/
def TrapTaken (s u : State) (p : Place) (async : Bool) (e : Event) : Prop :=
  let k := p.slotK
  let a := s.slot k
  let b := u.slot k
  b.mode = .trapped ∧ b.regs.pmode = false ∧ b.regs.fstrm = p.stream ∧
    b.regs.cause = BitVec.ofNat 32 (e.code + (if async then 2 ^ 31 else 0)) ∧ b.regs.info0 = e.info0 ∧ b.regs.info1 = e.info1 ∧
    b.regs.info2 = e.info2 ∧ b.regs.info3 = e.info3 ∧ b.regs.tvec = a.regs.tvec ∧ b.regs.cap = a.regs.cap ∧ b.regs.base = a.regs.base ∧
    b.regs.htbase = a.regs.htbase ∧ b.regs.htcnt = a.regs.htcnt ∧ b.regs.ctxbase = a.regs.ctxbase ∧ b.handles = a.handles ∧
    (∀ c, b.tackCount c = a.tackCount c) ∧ b.task = a.task ∧ b.fifo = a.fifo ∧ StreamsStop s u k

/-- What a trap of the slot of `p` leaves alone: other slots (but lent priority), memory and every unit. -/
def TrapFrame (s u : State) (p : Place) : Prop :=
  u.cur = s.cur ∧ (∀ k, k / 5 ≠ p.slotK → u.stream k = s.stream k) ∧
    (∀ k, k ≠ p.slotK → { u.slot k with regs := { (u.slot k).regs with eff := 0 } } = { s.slot k with regs := { (s.slot k).regs with eff := 0 } }) ∧
    { u.outside with hub := {}, tiles := [], reports := [] } = { s.outside with hub := {}, tiles := [], reports := [] } ∧
    (∀ k, { u.tile k with tcache := [] } = { s.tile k with tcache := [] }) ∧ ∀ a, u.mem.readByte a = s.mem.readByte a

/-- The C stream enters the handler at TVEC in the supervisor's bank (step 4 of R362, R53). -/
def EntersHandler (s u : State) (p : Place) (async : Bool) (e : Event) : Prop :=
  TrapTaken s u p async e ∧ TrapFrame s u p ∧ u.reports = s.reports ∧
    (let b := u.slot p.slotK
     b.frozen = false ∧ b.regs.super = true ∧ b.sup.pc = (s.slot p.slotK).regs.tvec ∧ b.sup.block = none ∧ b.sup.x = (s.slot p.slotK).sup.x ∧
      b.sup.fpflags = (s.slot p.slotK).sup.fpflags)

/-- A running slot in user mode, of a compute tile under power, whose stream at `p` has not ended. -/
def UserRuns (s : State) (p : Place) : Prop :=
  p.wf = true ∧ p.tile < 16 ∧ (s.slot p.slotK).mode = .running ∧ (s.slot p.slotK).frozen = false ∧ (s.slot p.slotK).regs.super = false ∧
    (s.stream p.streamK).ended = false ∧ s.dieOn p.tile = true ∧ NoPass s p

/-- R117: every move the handler made of these streams of slot `k` lands on a block header, in their order. -/
def MovesLand (k : Nat) : List Nat → State → Prop
  | [], _ => True
  | f :: r, s =>
    let st := s.stream (5 * k + f)
    if st.ended = true ∨ st.moved = false then MovesLand k r s
    else ∃ bs v, s.fetchWord (k / 32) f st.pc.toNat = (.ok bs, v) ∧ isHeader bs = true ∧ MovesLand k r v

/-- R162: the slot of the executing handler is back in its task, each stream where its PC register says. -/
def ResumesTask (s u : State) : Prop :=
  let k := s.cur.slotK
  u.cur = s.cur ∧ u.mySlot.mode = .running ∧ u.mySlot.frozen = false ∧
    u.mySlot.regs = { s.mySlot.regs with super := false, resumed := false, pcc := none } ∧ u.mySlot.handles = s.mySlot.handles ∧
    u.mySlot.fifo = s.mySlot.fifo ∧ u.mem = s.mem ∧
    ∀ f, f < 5 → let a := s.stream (5 * k + f)
      let b := u.stream (5 * k + f)
      b.x = a.x ∧ b.pc = a.pc ∧ b.fpflags = a.fpflags ∧ b.vlen = a.vlen ∧ b.ended = a.ended ∧
        b.block = if a.moved = true ∧ a.ended = false then none else a.block

/-- The value of system register `i` (R32 to R49, R162). -/
def sysValue (s : State) (i : Nat) : Word :=
  let k := s.cur.slotK
  let sl := s.mySlot
  let r := sl.regs
  let c := s.myCore
  let bit (v : Bool) (n : Nat) : Nat := if v then 2 ^ n else 0
  let pc (f : Nat) : Word := (s.stream (5 * k + f)).pc &&& 0x00FFFFFFFFFFFFFE
  match i with
  | 0x000 => BitVec.ofNat 64 (bit r.torn 11 + bit r.resumed 10 + bit r.preq 9 + bit (!sl.fifo.isEmpty || !sl.faults.isEmpty) 8 + r.fstrm * 4 + bit r.pmode 1 + bit r.super 0)
  | 0x001 => r.cause.setWidth 64
  | 0x002 => if r.fstrm < 5 then pc r.fstrm else 0
  | 0x003 => r.tvec
  | 0x004 => r.info0
  | 0x005 => r.info1
  | 0x006 => r.info2
  | 0x007 => r.info3
  | 0x008 => pc 0
  | 0x009 => pc 1
  | 0x00A => pc 2
  | 0x00B => pc 3
  | 0x00C => pc 4
  | 0x010 => BitVec.ofNat 64 (r.cap * 256 + r.eff * 16 + r.base)
  | 0x011 => r.htbase
  | 0x012 => BitVec.ofNat 64 r.htcnt
  | 0x013 => r.ctxbase
  | 0x018 => c.mshare.setWidth 64
  | 0x019 => c.corecfg.setWidth 64
  | 0x01A => c.lpcfg.setWidth 64
  | 0x01B => c.lpseq.setWidth 64
  | 0x020 => s.me.fpflags.setWidth 64
  | 0x021 => (s.stream (5 * k)).vlen.setWidth 64
  | 0x030 => selfIdOf s.module s.cur
  | 0x031 => BitVec.ofNat 64 (s.clock / 16 + s.jumped)
  | 0x032 => BitVec.ofNat 64 (s.clock - (s.auxOf s.cur.coreK).cycleBase)
  | i =>
    if 0x040 ≤ i ∧ i ≤ 0x053 then BitVec.ofNat 64 (sl.tackCount (i - 0x040))
    else if 0x400 ≤ i ∧ i ≤ 0x53F then (s.stream (5 * k + (i - 0x400) / 64)).getX (BitVec.ofNat 6 ((i - 0x400) % 64))
    else if 0x540 ≤ i ∧ i ≤ 0x549 then
      (if i % 2 = 0 then (s.stream (5 * k + (i - 0x540) / 2)).fpflags else (s.stream (5 * k + (i - 0x540) / 2)).vlen).setWidth 64
    else 0

/-- The registers user mode may not touch: a dash in R32's User column. -/
def SupervisorOnly (i : Nat) : Prop := i ≤ 0x00C ∨ i ∈ [0x011, 0x013, 0x018, 0x01A] ∨ (0x400 ≤ i ∧ i ≤ 0x549)

/-- Bits 55:k of a word, zeros elsewhere (R37). -/
def field (k : Nat) (v : Word) : Word := v &&& BitVec.ofNat 64 (2 ^ 56 - 2 ^ k)

/-- An MTS completes; beside what `P` says the executing slot's other registers, the core and all else stay. -/
def MtsGives (s : State) (t : Tack) (d : Reg) (idx : BitVec 12) (P : State → Prop) : Prop :=
  ∃ u, exec (.mts d idx t) s = .next u ∧ u.cur = s.cur ∧ u.me.pc = (s.me.advance 4).pc ∧ u.mem = s.mem ∧ P u

/-! ## Circuits, collectives and transforms -/

/-- R297: the circuit is a transmit end whose owning tile is the executing stream's. -/
def TransmitsHere (s : State) (c : Nat) (w : MakeWord) : Prop := (s.circ c).word = some w ∧ w.rx = false ∧ w.stile.toNat = s.cur.tile

/-- An instruction completes with only circuit `c` changed. -/
def CircuitBecomes (i : Instr) (s : State) (c : Nat) (ci : Circuit) : Prop :=
  ∃ u, exec i s = .next u ∧ OtherStreamsKept s u ∧ Sequential s u 4 s.x 0 ∧ { u.outside with circuits := [] } = { s.outside with circuits := [] } ∧
    u.circ c = ci ∧ (∀ k, k ≠ c → u.circ k = s.circ k) ∧ ∀ a, u.mem.readByte a = s.mem.readByte a

/-- R302: a fabric copy is accepted: the tile's engine holds it, waiting, with its pages; its circuit has its transfer;
its record's STATUS is 0. -/
def FabricAccepted (i : Instr) (s : State) (kind : CopyKind) (pat : Pattern) (r : Nat) (pages : Tab Nat) : Prop :=
  let e : Eng := .tile s.cur.tile
  let id := (s.engine e).next
  ∃ u, exec i s = .next u ∧ Sequential s u 4 s.x 0 ∧ u.mem = (s.drainCore s.cur.coreK).mem.writeNat (spaceAddr s.cur 1 r + 108) 4 0 ∧
    (u.engine e).ops.length = (s.engine e).ops.length + 1 ∧ (u.engine e).next = id + 1 ∧
    (u.circ pat.circ).transfers = (s.circ pat.circ).transfers ++ [{ cargo := .copy s.cur.tile id, place := s.cur, task := s.taskId }] ∧
    ∃ o, (u.engine e).ops.getLast? = some o ∧ o.id = id ∧ o.place = s.cur ∧ o.kind = kind ∧ o.pat = pat ∧ o.recOff = some r ∧ o.waiting = true ∧
      o.pages = pages ∧ o.done = 0

/-- Neither a register, a flag nor a program counter of any stream changes, and no byte of memory. -/
def Quiet (s u : State) : Prop := StreamsUntouched s u ∧ ∀ a, u.mem.readByte a = s.mem.readByte a

/-- The stitch count of R5 and R48: 16 core cycles a stitch, and the jumps of R399. -/
def stitchOf (s : State) : Nat := s.clock / 16 + s.jumped

/-- STATUS, OUTSZ and SATC of a transform record whose offset in the issuing core's scratchpad is known (R323). -/
def xfmWords (s : State) (o : XfmOp) : Nat × Nat × Nat :=
  let a := spaceAddr o.place 1 o.recOff
  (s.mem.readNat (a + 44) 4, s.mem.readNat (a + 48) 4, s.mem.readNat (a + 52) 4)

/-- R148: a wait on a semaphore that SEMS.DISARM cancels ends with `v` in its destination. -/
def WaiterEnds (s u : State) (q : Place) (d : Reg) (v : Word) : Prop :=
  (u.stream q.streamK).wait = none ∧ (u.stream q.streamK).pc = ((s.stream q.streamK).advance 4).pc ∧
    ∀ r, (u.stream q.streamK).getX r = if r = 0 then 0 else if r = d then v else (s.stream q.streamK).getX r

/-- R319: the sequencer executes words. -/
def SequencerRuns (s : State) : Prop :=
  s.seq.running = true ∧ s.seq.aligning = false ∧ s.seq.paused = false ∧ s.hub.halted = false

/-- R319: the sequencer has moved to the next word, `n` stitches on. -/
def WordDone (s u : State) (n : Nat) : Prop := u.seq.pc = s.seq.pc + 1 ∧ u.seq.nextAt = stitchOf s + n

/-- No circuit of the module is being made or LIVE. -/
def AllBroken (u : State) : Prop := ∀ c, (u.circ c).state ≠ .making ∧ (u.circ c).state ≠ .live

/-- R320, R403: a MAKE or TREE word has made its handle MAKING; every other handle is as before. -/
def MakingStarts (s u : State) (w : MakeWord) (tree : Bool) : Prop :=
  Quiet s u ∧ WordDone s u 1 ∧
    (let c := u.circ w.circuit.toNat
     c.state = .making ∧ c.word = some w ∧ c.tree = tree ∧ c.since = stitchOf s ∧ c.minw = w.minw1.toNat + 1 ∧ c.transfers = [] ∧
      c.queue = (s.circ w.circuit.toNat).queue) ∧
    ∀ k, k ≠ w.circuit.toNat → u.circ k = s.circ k

/-- What a circuit event leaves alone: every other circuit, streams and memory. -/
def OnlyCircuit (s u : State) (c : Nat) : Prop := Quiet s u ∧ ∀ k, k ≠ c → u.circ k = s.circ k

/-- R404: a circuit of this module's own whose bonded ports all lock. -/
def AllLock (s : State) (c : Nat) (w : MakeWord) : Prop :=
  let ci := s.circ c
  let r := s.routeOf w.route.toNat
  ci.word = some w ∧ ci.tree = false ∧ w.dmod.toNat = s.module ∧ ci.found = 0 ∧ ci.ports = List.range (s.bonded w) ∧ 1 ≤ s.bonded w ∧
    ci.minw ≤ s.bonded w ∧ ∀ i, i < s.bonded w → ∀ e ∈ r.ports 1 i, s.portGood e = true ∧ (s.ep e).circ = some c

/-- Everything of the module but its endpoints, circuits and sources, what an optical event leaves at its destination,
and the schedule: unchanged. -/
def OpticsOnly (s u : State) : Prop :=
  StreamsUntouched s u ∧ u.mem = s.mem ∧ u.cores = s.cores ∧ u.engines = s.engines ∧ u.clock = s.clock ∧ u.jumped = s.jumped ∧
    u.module = s.module ∧ u.groups = s.groups

/-- R416: a peer's answer passes: it is genuine, its chain ends in the owner's root, and its measurement blocks 1 to 3 stand
in the owner's allowed lists. -/
def PeerPasses (c : SecConfig) (m : Measurement) : Prop :=
  m.genuine = true ∧ c.root ≠ [] ∧ m.root = c.root ∧ ∃ a b d, m.blocks = [a, b, d] ∧ a ∈ c.allowed1 ∧ b ∈ c.allowed2 ∧ d ∈ c.allowed3

/-- What an event of the links, alarms and background leaves alone. -/
def HubOnly (s u : State) : Prop :=
  Quiet s u ∧ u.cores = s.cores ∧ u.engines = s.engines ∧ u.clock = s.clock ∧ u.groups = s.groups

/-- R57: the streams of slot `k` as a task's iteration finds them: entry points, x1 to x4 the indices, x5 the iteration,
x6 the record's RID, every other register, FPFLAGS and VLEN zero, no block. -/
def TaskStarts (u : State) (k : Nat) (r : WalkRec) : Prop :=
  ∀ f, f < 5 → let st := u.stream (5 * k + f)
    st.pc = r.entry.getD f 0 ∧ st.ended = false ∧ st.fpflags = 0 ∧ st.vlen = 0 ∧ st.block = none ∧
      (∀ i, i < 4 → st.getX (BitVec.ofNat 6 (i + 1)) = BitVec.ofNat 64 ((r.indices r.next).getD i 0)) ∧
      st.getX 5#6 = BitVec.ofNat 64 r.next ∧ st.getX 6#6 = BitVec.ofNat 64 r.rid ∧ ∀ q : Reg, 7 ≤ q.toNat → st.getX q = 0

/-- The key of a slot named by a walker command. -/
def slotOf (tile core slot : Nat) : Nat := 4 * (8 * tile + core) + slot

/-- The context area a PREEMPT names: its argument, else CTXBASE (R371). -/
def areaOf (s : State) (k arg : Nat) : Word := if arg = 0 then (s.slot k).regs.ctxbase else BitVec.ofNat 64 (arg % 2 ^ 44 * 4096)

/-- What a context's header and body say (R373). -/
def ctxField (b : List Byte) (o n : Nat) : Nat := leNat ((b.drop o).take n)

/-- The lining of core `c` of a tile, and the tile's shared lining. -/
def liningOf (s : State) (tile c : Nat) : Lining := Tab.get {} (8 * tile + c) s.linings
def sharedOf (s : State) (tile : Nat) : TileLining := Tab.get {} tile s.tileLinings

/-- Every valid commit record of a lining's places has an older sequence number (R148, R377). -/
def NewerThan {α : Type} (n : BitVec 32) (p : Places α) : Prop :=
  ∀ c, p.first = some c ∨ p.second = some c → c.record.good = true → 0 < (n - c.record.seq).toInt

/-- A mailbox request is served: it reaches the module (R420, R422), whose mailbox is idle and which is not in recovery mode
(R451, R460). -/
def MailboxServes (s : State) : Prop := s.requestReaches = true ∧ s.hub.busy = false ∧ s.hub.recovery = false

/-- R423, R451: a request has ended with a CODE. -/
def RequestEnds (s u : State) (code : Nat) : Prop :=
  u.hub.busy = false ∧ u.hub.done = true ∧ u.hub.code = code ∧ u.hub.msix = 64 :: s.hub.msix

/-- The bytes of the request's body in host memory (R422, R451). -/
def requestBody (s : State) : List Byte := s.mem.readBytes (0xC00000000000 + s.hub.mbaddr) s.hub.mblen

/-! ## The step, the encodings, memory and reset -/

/-- The places of one engine (R360): the four slots of its core, or the thimble core's one. -/
def engineSlots (p : Place) : List Place := (if p.thimble then [0] else [0, 1, 2, 3]).map (fun k => { p with slot := k })

/-- The stream at `p` is the only one its engine may choose. -/
def OnlyEligible (s : State) (p : Place) : Prop :=
  p ∈ engineSlots p ∧ eligible s p = true ∧ ∀ q ∈ engineSlots p, q ≠ p → eligible s q = false

/-- Neither the core at `p` nor its tile's shared memory is over its dirty budget (R379; log 36). -/
def WithinBudget (s : State) (p : Place) : Prop := p.thimble = false → s.coreFull p.coreK = false ∧ s.tileFull p.tile = false

/-- The stream at `p` has the word `i` next: the bytes at its program counter can be fetched and decode to it; `u`
is the state its meaning then runs in. -/
def NextWord (s : State) (p : Place) (i : Instr) (u : State) : Prop :=
  let s0 := ({ s with cur := p } : State).endPageWait p
  ∃ bs rest, s0.fetchWord p.tile p.stream s0.me.pc.toNat = (.ok bs, u) ∧
    decode bs = .ok (i, rest) ∧ (s0.me.block = none → isHeader bs = true)

/-- R379, R380: what a turn from `s` answers writes no lined block that a write waits for (log 36). -/
def WritesGo (s : State) (o : Host.Outcome State Fault Refusal) : Prop := ∀ t, o = .next t → s.stalledWrite t = none

/-- R380: a turn's write waits: the writer goes on to its block instead, and the turns `redo` come again. -/
def WriterFirst (s : State) (b : Nat) (redo : List Turn) : State := { s.writeBlock b with turns := (s.writeBlock b).turns ++ redo }

/-- R363: no lower stream of the slot takes the place of what the turn of the stream at `p` answers. -/
def DeliversItself (p : Place) (s : State) (o : Host.Outcome State Fault Refusal) : Prop := p.stream = 0 ∨ ∀ t, o = .next t → faulted p s t = false

/-- A place's stream noted ready since this clock, unless it was already. -/
def State.notedReady (s : State) (p : Place) : State := s.setAt p { s.at p with ready := some ((s.at p).ready.getD s.clock) }

/-- Every memory the module holds is canonical: addresses rising, no byte listed that reads the same unlisted. -/
structure Canonical (s : State) : Prop where
  mem : Memory.wf s.mem
  committed : ∀ e ∈ s.linings, ∀ c, e.2.places.first = some c ∨ e.2.places.second = some c → Memory.wf c.snap.mem
  work : ∀ e ∈ s.linings, Memory.wf e.2.work
  drain : ∀ e ∈ s.linings, ∀ p, e.2.drain = some p → Memory.wf p.mem
  shared : ∀ e ∈ s.linings, ∀ p, e.2.shared = some p → Memory.wf p.mem
  tileCommitted : ∀ e ∈ s.tileLinings, ∀ c, e.2.places.first = some c ∨ e.2.places.second = some c → Memory.wf c.snap.mem
  tileWork : ∀ e ∈ s.tileLinings, Memory.wf e.2.work
  tileDrain : ∀ e ∈ s.tileLinings, ∀ p, e.2.drain = some p → Memory.wf p.mem

end Sys2Proof.Claims

open Sys2Proof Sys2Proof.Machine Sys2Proof.Claims

/-- R156: each integer register instruction completes, writes its result to xD (x0 keeps nothing) and changes
nothing else but the program counter and the tacks. R156 (CLZ), R159 and R160. RNDC's counter rounds are R100's pseudocode, against
which R160's table differs in round 3's rotation (log 11, DEDUCED). -/
def Obligations.IntegerRegisterInstructions : Prop :=
  (∀ (s : State) (t : Tack) (d a b : Reg), Ready s t → IntegerResults s t d a b) ∧
  (∀ (s : State) (t : Tack) (d a b : Reg), Ready s t → BitResults s t d a b)

/-- R157 and R158, with and without an EXT before the word. R110: the compact forms. -/
def Obligations.ImmediateInstructions : Prop :=
  (∀ (s : State) (t : Tack) (d a : Reg) (i : BitVec 9) (u : BitVec 15), Ready s t → ImmediateResults s t d a i u) ∧
  (∀ (s : State) (d a i : BitVec 5), Ready s ⟨false, false⟩ → CompactResults s d a i)

/-- R137, R109: NOP and every hint do nothing but their tack operations. R141, R142, R155: YIELD changes nothing but its slot's place in the rotation, which is the last among equals at the
next arbitration; WAITC goes on once its counter has reached its target; RDCYC, RDID read the counters and SELFID. R142: a WAITC,
of CYCLE or of the stitch count, whose target is ahead arms it, and WAITC_TARGET_REACHED completes it once the count is there. -/
def Obligations.TimeAndIdentity : Prop :=
  (∀ (s : State) (t : Tack) (n : BitVec 5) (imm : BitVec 21), Ready s t →
     OnlyAdvances (.nop t) s 4 ∧ OnlyAdvances (.hint n imm t) s 4) ∧
  (∀ (s : State) (t : Tack) (d : Reg) (n : BitVec 14), Ready s t →
     OnlyAdvances (.yield t) s 4 ∧
     ((s.x d + n.setWidth 64).toNat ≤ s.clock - (s.auxOf s.cur.coreK).cycleBase → OnlyAdvances (.waitc d n t) s 4) ∧
     ((s.x d + n.setWidth 64).toNat ≤ s.clock / 16 + s.jumped → OnlyAdvances (.waitcS d n t) s 4) ∧
     WritesReg (.rdcyc d t) s 4 d (BitVec.ofNat 64 (s.clock - (s.auxOf s.cur.coreK).cycleBase)) ∧
     WritesReg (.rdcycS d t) s 4 d (BitVec.ofNat 64 (s.clock / 16 + s.jumped)) ∧
     WritesReg (.rdid d t) s 4 d (selfIdOf s.module s.cur)) ∧
  (let count (s : State) (stitch : Bool) : Nat := if stitch = true then s.clock / 16 + s.jumped else s.clock - (s.auxOf s.cur.coreK).cycleBase
   (∀ (s : State) (t : Tack) (d : Reg) (n : BitVec 14) (stitch : Bool), Ready s t → count s stitch < (s.x d + n.setWidth 64).toNat →
     ∃ u, exec (if stitch = true then .waitcS d n t else .waitc d n t) s = .next u ∧ OnlyStream s u ∧ (∀ r, u.x r = s.x r) ∧ u.me.pc = s.me.pc ∧
       u.me.wait = some (.until stitch (s.x d + n.setWidth 64).toNat t)) ∧
   (∀ (s : State) (t : Tack) (target : Nat) (stitch : Bool), Ready s t → s.me.wait = some (.until stitch target t) → target ≤ count s stitch →
     OnlyAdvances (.waitcTargetReached s.cur) s 4)) ∧
  (∀ (s : State) (t : Tack) (k : Nat), Ready s t → s.cur.wf = true → s.cur.thimble = false → k < 4 → k ≠ s.cur.slot →
     let q : Place := { s.cur with slot := k }
     (s.slot q.slotK).regs.eff = s.mySlot.regs.eff → (s.at q).issued < s.clock →
     ∃ u, exec (.yield t) s = .next u ∧
       (shareDue u s.cur = false → shareDue u q = false → better u s.cur s.cur.slot k = k ∧ better u s.cur k s.cur.slot = k))

/-- R111, R113: a BLK or BLKX header enters its block, BLKX for the count its register holds then. R113: after each word of a body the stream goes on in memory order, starts the body again, or leaves it. R105: an EXT is held for the next word of its body and dropped as the body's last word. -/
def Obligations.BlocksAndExtensions : Prop :=
  (∀ (s : State) (rep creg : BitVec 6) (len : BitVec 9) (pp wp : BitVec 2), s.me.push = [] →
     EntersBlock (.blk rep len pp wp) s (rep.toNat + 1) len.toNat wp.toNat pp.toNat ∧
     EntersBlock (.blkx creg len pp wp) s (s.x creg).toNat len.toNat wp.toNat pp.toNat) ∧
  (∀ (s t : State) (n : Nat) (x : Reg → Word) (fl : BitVec 32), Sequential s t n x fl → AfterWord s t n) ∧
  (∀ (s : State) (imm : BitVec 23), s.me.push = [] → ∃ t, exec (.ext imm) s = .next t ∧ OnlyStream s t ∧
     (∀ r, t.x r = s.x r) ∧ t.me.fpflags = s.me.fpflags ∧ AfterWord s t 4 ∧
     t.me.ext = (if s.me.block.map (fun b => b.stop) = some (addr56 (s.me.pc + 4)) then none else some imm))

/-- R138, R116: each taken transfer whose landing word is a header goes there and ends the block; CALL writes x63;
a conditional branch not taken goes on. A relative target is masked to 56 bits (log 55, DEDUCED). A transfer whose landing word
is no header is not stated here: it takes the branch-target fault of R115. -/
def Obligations.BranchesTransfer : Prop :=
  ∀ (s : State) (t : Tack) (a : Reg) (d : BitVec 5) (off : BitVec 15) (i : BitVec 5), Ready s t →
    (let target := addr56 (s.me.pc + BitVec.ofInt 64 (2 * immOf s 15 off))
     (s.lands target = true → Jumps (.br off t) s target s.x) ∧
     (s.lands target = true → s.x a = 0 → Jumps (.bz a off t) s target s.x) ∧
     (s.x a ≠ 0 → OnlyAdvances (.bz a off t) s 4) ∧
     (s.lands target = true → s.x a ≠ 0 → Jumps (.bnz a off t) s target s.x) ∧
     (s.x a = 0 → OnlyAdvances (.bnz a off t) s 4) ∧
     (s.lands target = true → Jumps (.call off t) s target
       (s.wrote 63#6 (match s.me.block with | some b => b.stop | none => s.me.pc + 4)))) ∧
    (s.lands (s.x a) = true → (s.x a).toNat % 2 = 0 → (s.x a).toNat < 2 ^ 56 → Jumps (.brx a t) s (s.x a) s.x) ∧
    (s.lands (s.x 63#6) = true → (s.x 63#6).toNat % 2 = 0 → (s.x 63#6).toNat < 2 ^ 56 → Jumps (.retB t) s (s.x 63#6) s.x) ∧
    (let target := addr56 (s.me.pc + BitVec.ofInt 64 (2 * i.toInt))
     let x := s.x (d.setWidth 6)
     (s.lands target = true → x = 0 → Jumps (.cBz d i) s target s.x) ∧ (x ≠ 0 → OnlyAdvances (.cBz d i) s 2) ∧
     (s.lands target = true → x ≠ 0 → Jumps (.cBnz d i) s target s.x) ∧ (x = 0 → OnlyAdvances (.cBnz d i) s 2))

/-- R139: END and C.END end the executing stream while another stream of the slot has not ended. R59, R139: the END of a task's last stream retires the task: its done semaphore gains the increment, and its slot
is free. -/
def Obligations.StreamsEnd : Prop :=
  (∀ (s : State) (t : Tack), Ready s t → s.cur.wf = true → s.super = false → s.me.wait = none → s.mySlot.mode ≠ .free →
     s.cur.tile < 16 → (∃ f, f < 5 ∧ f ≠ s.cur.stream ∧ (s.stream (5 * s.cur.slotK + f)).ended = false ∧
       (s.stream (5 * s.cur.slotK + f)).wait = none) →
     ∀ i, i = .endS t ∨ (i = .cEnd ∧ t = ⟨false, false⟩) → ∃ u, exec i s = .next u ∧ EndFrame s u ∧ u.me.ended = true ∧
       u.mySlot.mode = s.mySlot.mode ∧ u.mySlot.task = s.mySlot.task) ∧
  (∀ (s : State) (t : Tack) (k : Task) (sel : Nat) (inc : BitVec 32), Ready s t → s.cur.wf = true → s.me.wait = none →
     s.super = false → s.cur.tile < 16 → s.mySlot.mode = .running → s.mySlot.task = some k → k.done = some (sel, s.cur.core, inc) →
     sel < 64 → s.mySlot.faults = [] → s.mySlot.delivered = none → s.pausedOf s.cur.tile k.id = [] → NoneArmed s sel →
     (∀ f, f < 5 → f ≠ s.cur.stream → (s.stream (5 * s.cur.slotK + f)).ended = true) →
     ∃ u, exec (.endS t) s = .next u ∧ EndFrame s u ∧ u.mySlot.mode = .free ∧ u.mySlot.task = none ∧
       (semOf u sel).v = (semOf s sel).v + inc ∧ (semOf u sel).sig = (semOf s sel).sig)

/-- R140: a REND whose partners are all there or ended completes, and so does each waiting partner; else it waits
and takes no tack, though W = 1 (log 44, DEDUCED). -/
def Obligations.RendezvousForms : Prop :=
  ∀ (s : State) (t : Tack) (mask : BitVec 5) (id : BitVec 3), Ready s t → s.cur.wf = true → s.mySlot.regs.super = false →
    s.me.wait = none → s.me.ext = none →
    let m := (mask ||| BitVec.ofNat 5 (2 ^ s.cur.stream)).toNat
    ((∀ f, f < 5 → f ≠ s.cur.stream → mask.getLsbD f = true → AtRendezvous s m id.toNat f) →
      ∃ u, exec (.rend mask id t) s = .next u ∧ u.outside = s.outside ∧ Sequential s u 4 s.x 0 ∧
        ∀ f, f < 5 → f ≠ s.cur.stream → mask.getLsbD f = true → (s.stream (5 * s.cur.slotK + f)).ended = false →
          (u.stream (5 * s.cur.slotK + f)).wait = none ∧
          (u.stream (5 * s.cur.slotK + f)).pc = ((s.stream (5 * s.cur.slotK + f)).advance 4).pc) ∧
    ((∃ f, f < 5 ∧ f ≠ s.cur.stream ∧ mask.getLsbD f = true ∧ ¬ AtRendezvous s m id.toNat f) →
      ∃ u, exec (.rend mask id t) s = .next u ∧ OnlyStream s u ∧ (∀ r, u.x r = s.x r) ∧ u.me.pc = s.me.pc ∧
        u.me.wait = some (.rend m id.toNat t) ∧ ∀ c, u.mySlot.tackCount c = s.mySlot.tackCount c)

/-- R119, R144: TKW takes n tokens and TKP adds n, each in its channel alone. R119, R121: a W bit takes one token from the block's W channel, and a P bit adds one to its P channel. -/
def Obligations.Tacks : Prop :=
  (∀ (s : State) (j : BitVec 2) (n1 : BitVec 3) (c : BitVec 5), s.me.push = [] →
     let moves (i : Instr) (size ch : Nat) (v : Nat) : Prop :=
       ∃ u, exec i s = .next u ∧ OnlyStream s u ∧ Sequential s u size s.x 0 ∧ u.mySlot.tackCount ch = v ∧
         ∀ k, k ≠ ch → u.mySlot.tackCount k = s.mySlot.tackCount k
     (let ch := channel (peer s.cur.stream j.toNat) s.cur.stream
      n1.toNat + 1 ≤ s.mySlot.tackCount ch →
        moves (.tkw j n1 ⟨false, false⟩) 4 ch (s.mySlot.tackCount ch - (n1.toNat + 1))) ∧
     (let ch := channel s.cur.stream (peer s.cur.stream j.toNat)
      s.mySlot.tackCount ch + (n1.toNat + 1) ≤ 16 →
        moves (.tkp j n1 ⟨false, false⟩) 4 ch (s.mySlot.tackCount ch + (n1.toNat + 1))) ∧
     (let ch := channel (peer s.cur.stream (c.toNat % 4)) s.cur.stream
      c.toNat / 4 + 1 ≤ s.mySlot.tackCount ch → moves (.cTkw c) 2 ch (s.mySlot.tackCount ch - (c.toNat / 4 + 1))) ∧
     (let ch := channel s.cur.stream (peer s.cur.stream (c.toNat % 4))
      s.mySlot.tackCount ch + (c.toNat / 4 + 1) ≤ 16 → moves (.cTkp c) 2 ch (s.mySlot.tackCount ch + (c.toNat / 4 + 1)))) ∧
  (∀ (s : State) (t : Tack) (b : Block), Ready s t → s.me.block = some b →
     let cw := channel (peer s.cur.stream b.wpeer) s.cur.stream
     let cp := channel s.cur.stream (peer s.cur.stream b.ppeer)
     cw ≠ cp → s.mySlot.tackCount cp < 16 → ∃ u, exec (.nop t) s = .next u ∧
       u.mySlot.tackCount cw = s.mySlot.tackCount cw - (if t.w then 1 else 0) ∧
       u.mySlot.tackCount cp = s.mySlot.tackCount cp + (if t.p then 1 else 0) ∧
       ∀ c, c ≠ cw → c ≠ cp → u.mySlot.tackCount c = s.mySlot.tackCount c)

/-- R147, R148: SEMA, SEMS, SEMO and SEMRD on a selector that names a semaphore; as a release of tile scope SEMA and SEMS perform
the core's buffered stores at once (log 8, DESIGN CHOICE). R148: an addition that makes an armed SEMW of another slot of the core pass completes that SEMW: 0 in its
destination, its program counter past it. -/
def Obligations.SemaphoreOperations : Prop :=
  (∀ (s : State) (t : Tack) (d a : Reg) (sel : BitVec 9), Ready s t → Undisturbed s → Names sel → NoReductions s →
     NoneArmed s sel.toNat →
     let n := sel.toNat
     (∃ u, exec (.sema d a sel t) s = .next u ∧ Sequential s u 4 (s.wrote d ((semOf s n).v.setWidth 64)) 0 ∧
       SemFrame s u n (releasedMem s n) ∧
       semOf u n = { semOf s n with v := (semOf s n).v + (s.x a).setWidth 32 }) ∧
     (∃ u, exec (.sems a sel t) s = .next u ∧ Sequential s u 4 s.x 0 ∧ SemFrame s u n (releasedMem s n) ∧
       semOf u n = { semOf s n with v := (s.x a).setWidth 32 }) ∧
     (∃ u, exec (.semo sel t) s = .next u ∧ Sequential s u 4 s.x 0 ∧ SemFrame s u n s.mem ∧
       semOf u n = { semOf s n with sig := some (s.cur.core, s.cur.slot) }) ∧
     WritesReg (.semrd d sel t) s 4 d ((semOf s n).v.setWidth 64)) ∧
  (∀ (s : State) (a d' : Reg) (sel : BitVec 9) (thr : BitVec 32) (q : Place), Ready s ⟨false, false⟩ → Undisturbed s →
     NoneArmed s sel.toNat → sel.toNat < 64 → q.wf = true → q.tile = s.cur.tile → q.core = s.cur.core → q.slot ≠ s.cur.slot →
     q.slotK ∈ s.slots.map (·.1) → (s.slot q.slotK).regs.super = false →
     (s.stream q.streamK).wait = some (.semw sel.toNat thr d' ⟨false, false⟩) →
     AtLeast ((semOf s sel.toNat).v + (s.x a).setWidth 32) thr →
     ∃ u, exec (.sema 0#6 a sel ⟨false, false⟩) s = .next u ∧ (u.stream q.streamK).wait = none ∧
       (∀ r, (u.stream q.streamK).getX r = if r = d' then 0 else (s.stream q.streamK).getX r) ∧
       (u.stream q.streamK).pc = ((s.stream q.streamK).advance 4).pc)

/-- R148, R149: SEMW and SEMWA complete at once where the comparison holds, SEMWA with the least entry that passes,
and else wait, armed, where they stand. -/
def Obligations.SemaphoreWaits : Prop :=
  ∀ (s : State) (t : Tack) (d a b : Reg) (sel : BitVec 9) (f : BitVec 3), Ready s t → s.cur.wf = true →
    let thr := (s.x a).setWidth 32
    let entry (k : Nat) : Nat := if f.toNat < 4 then k else 256 + 64 * (f.toNat - 4) + k
    (Names sel → AtLeast (semOf s sel.toNat).v thr → WritesReg (.semw d a sel t) s 4 d 0) ∧
    (Names sel → ¬ AtLeast (semOf s sel.toNat).v thr → ∃ u, exec (.semw d a sel t) s = .next u ∧ (∀ r, u.x r = s.x r) ∧
      u.me.pc = s.me.pc ∧ u.me.wait = some (.semw sel.toNat thr d t) ∧ u.outside = s.outside) ∧
    (s.x b = 0 → WritesReg (.semwa d a b f t) s 4 d (BitVec.allOnes 64)) ∧
    (∀ k, k < 64 → (s.x b).getLsbD k = true → AtLeast (semOf s (entry k)).v thr →
      (∀ j, j < k → (s.x b).getLsbD j = true → ¬ AtLeast (semOf s (entry j)).v thr) →
      WritesReg (.semwa d a b f t) s 4 d (BitVec.ofNat 64 k)) ∧
    (s.x b ≠ 0 → (∀ k, k < 64 → (s.x b).getLsbD k = true → ¬ AtLeast (semOf s (entry k)).v thr) →
      ∃ u, exec (.semwa d a b f t) s = .next u ∧ (∀ r, u.x r = s.x r) ∧ u.me.pc = s.me.pc ∧
        u.me.wait = some (.semwa f.toNat (s.x b) thr d t) ∧ u.outside = s.outside)

/-- R151 (FENCE), R153: FENCE and PFEN.RETAIN go on where nothing of the stream that they name is on its way, and else
wait where they stand; PFEN.LINING asks for a point and completes once LPSEQ has reached it. R151, R176: REL at tile scope
and wider performs the core's stores at their homes. R152: ACQ empties the core's L1, ACQ.R
drops every line of it that meets a byte of its d units and no other. R154:
LINEPT asks for a lining point, or joins the one asked for, and answers the number its commit will carry. R155, R51: PRIO
sets SPRIO.BASE to the lesser of its operand and CAP, answers the old one, and EFF follows at once. -/
def Obligations.FencesAndAcquires : Prop :=
  ∀ (s : State) (t : Tack) (d a : Reg) (m : MemOp) (scope : BitVec 3), Ready s t →
    let l1of (u : State) : List Line := (u.auxOf s.cur.coreK).l1
    let onlyL1 (u : State) : Prop := OtherStreamsKept s u ∧ { u.outside with aux := [] } = { s.outside with aux := [] } ∧
      (∀ k, { u.auxOf k with l1 := [] } = { s.auxOf k with l1 := [] }) ∧ (∀ k, k ≠ s.cur.coreK → (u.auxOf k).l1 = (s.auxOf k).l1)
    let stores (e : StoreEntry) : Prop := e ∈ (s.auxOf s.cur.coreK).stores ∧ e.stream = s.cur.lane
    let reduces (r : Reduction) : Prop := (∃ e ∈ s.tiles, r ∈ e.2.reds) ∧ r.source = s.cur.streamK
    let retained (a : Nat) : Prop := a < 2 ^ 52 ∨ a / 2 ^ 52 = 4
    let performed : Prop := (∀ r, ¬ reduces r) ∧ (2 ≤ scope.toNat → ∀ e, ¬ stores e)
    let kept : Prop := (∀ r, reduces r → ¬ retained r.addr) ∧ ∀ e, stores e → ¬ retained (e.bit / 8)
    let waits (i : Instr) : Prop := ∃ u, exec i s = .next u ∧ OnlyStream s u ∧ (∀ r, u.x r = s.x r) ∧ u.me.pc = s.me.pc
    (performed → OnlyAdvances (.fence scope t) s 4) ∧ (¬ performed → waits (.fence scope t)) ∧
    (scope.toNat < 2 → OnlyAdvances (.rel scope t) s 4) ∧
    (2 ≤ scope.toNat → NoReductions s → ∃ u, exec (.rel scope t) s = .next u ∧ OtherStreamsKept s u ∧ Sequential s u 4 s.x 0 ∧
      u.mem = (s.drainCore s.cur.coreK).mem ∧ (u.auxOf s.cur.coreK).stores = []) ∧
    (kept → OnlyAdvances (.pfenRetain t) s 4) ∧ (¬ kept → waits (.pfenRetain t)) ∧
    (∀ n t', s.me.wait = some (.lining n t') → AtLeast s.myCore.lpseq (BitVec.ofNat 32 n) → OnlyAdvances (.pfenLining t) s 4) ∧
    (s.me.wait = none → ∃ u n, exec (.pfenLining t) s = .next u ∧ OtherStreamsKept s u ∧ (∀ r, u.x r = s.x r) ∧ u.me.pc = s.me.pc ∧
      (u.auxOf s.cur.coreK).liningAsked = true ∧ u.me.wait = some (.lining n t) ∧ u.mem = s.mem) ∧
    (∃ u, exec (.acq t) s = .next u ∧ Sequential s u 4 s.x 0 ∧ onlyL1 u ∧ l1of u = []) ∧
    (∃ u, exec (.acqR d m t) s = .next u ∧ Sequential s u 4 s.x 0 ∧ onlyL1 u ∧
      l1of u = linesBut (l1of s) (namedRuns s m (s.x d).toNat)) ∧
    (s.cur.wf = true →
    (∃ u, exec (.linept d t) s = .next u ∧ OtherStreamsKept s u ∧ (u.auxOf s.cur.coreK).liningAsked = true ∧
      (∀ k, { u.auxOf k with liningAsked := (s.auxOf k).liningAsked } = s.auxOf k) ∧ (∀ k, k ≠ s.cur.coreK → u.auxOf k = s.auxOf k) ∧
      { u.outside with aux := [] } = { s.outside with aux := [] } ∧
      Sequential s u 4 (s.wrote d ((s.myCore.lpseq + (if ((Tab.get {} s.cur.coreK s.linings).drain).isSome then 2 else 1)).setWidth 64)) 0) ∧
    (∃ u, exec (.prio d a t) s = .next u ∧ u.outside = s.outside ∧ u.mySlot.regs.base = min (s.x a).toNat s.mySlot.regs.cap ∧
      u.mySlot.regs.cap = s.mySlot.regs.cap ∧ (∀ k, k ≠ s.cur.slotK → (u.slot k).regs.base = (s.slot k).regs.base) ∧
      ((∀ k, { u.slot k with regs := { (u.slot k).regs with eff := 0, base := 0 }, tack := [], sup := {} } =
        { s.slot k with regs := { (s.slot k).regs with eff := 0, base := 0 }, tack := [], sup := {} })) ∧
      ((∀ q : Place, q.tile = s.cur.tile → (s.at q).wait = none) → u.mySlot.regs.eff = u.mySlot.regs.base) ∧
      Sequential s u 4 (s.wrote d (BitVec.ofNat 64 s.mySlot.regs.base)) 0))

/-- R198 to R205: the scalar loads, in every space but the device registers. -/
def Obligations.ScalarLoads : Prop :=
  ∀ (s : State) (t : Tack) (d : Reg) (m : MemOp) (f : BitVec 3), Ready s t → NoReductions s →
    LoadGives (.ldb d m f t) s d m f 1 false false ∧ LoadGives (.ldh d m f t) s d m f 2 false false ∧
    LoadGives (.ldw d m f t) s d m f 4 false true ∧ LoadGives (.ldd d m f t) s d m f 8 false true ∧
    LoadGives (.ldbs d m f t) s d m f 1 true false ∧ LoadGives (.ldhs d m f t) s d m f 2 true false ∧
    LoadGives (.ldws d m f t) s d m f 4 true false

/-- R198 to R205: the scalar stores, in every space but the device registers. A store stands in the core's store buffer, no byte
of memory changing while it does, and a publishing one empties the whole buffer (log 8, DESIGN CHOICE). -/
def Obligations.ScalarStores : Prop :=
  ∀ (s : State) (t : Tack) (d : Reg) (m : MemOp) (f : BitVec 3), Ready s t → NoReductions s →
    StoreGives (.stb d m f t) s d m f 1 false ∧ StoreGives (.sth d m f t) s d m f 2 false ∧
    StoreGives (.stw d m f t) s d m f 4 true ∧ StoreGives (.std d m f t) s d m f 8 true

/-- R210: the atomics. -/
def Obligations.Atomics : Prop :=
  ∀ (s : State) (t : Tack) (d : Reg) (m : MemOp) (f : BitVec 3), Ready s t → NoReductions s →
    let ints := [2, 3, 6, 7]
    let int (g : Nat → Nat → Nat → Nat) : Nat → Nat → Nat → Nat → Option Nat × Nat := fun w o v _ => (some (g w o v % 2 ^ w), 0)
    AtomicGives (.aadd d m f t) s d m ints (int fun _ o v => o + v) ∧
    AtomicGives (.amin d m f t) s d m ints (int fun w o v => if signedW w v < signedW w o then v else o) ∧
    AtomicGives (.amax d m f t) s d m ints (int fun w o v => if signedW w o < signedW w v then v else o) ∧
    AtomicGives (.aminu d m f t) s d m ints (int fun _ o v => min o v) ∧
    AtomicGives (.amaxu d m f t) s d m ints (int fun _ o v => max o v) ∧
    AtomicGives (.aand d m f t) s d m ints (int fun _ o v => o &&& v) ∧
    AtomicGives (.aor d m f t) s d m ints (int fun _ o v => o ||| v) ∧
    AtomicGives (.axor d m f t) s d m ints (int fun _ o v => o ^^^ v) ∧
    AtomicGives (.axch d m f t) s d m (10 :: ints) (int fun _ _ v => v) ∧
    AtomicGives (.acas d m f t) s d m (10 :: ints) (fun _ o v w => (if o = v then some w else none, 0)) ∧
    AtomicGives (.afadd d m f t) s d m [10] (fun _ o v _ => (some (fAdd fp32 0 o v).1, (fAdd fp32 0 o v).2)) ∧
    AtomicGives (.ainc d m f t) s d m ints (int fun _ o v => if v ≤ o then 0 else o + 1)

/-- R211: the reductions are accepted at their homes, in their source's order. R382: a reduction whose number is newer than what its home holds for its source is applied once, by R210's
operation, and the home keeps the number; one that is not is dropped and counted. -/
def Obligations.Reductions : Prop :=
  (∀ (s : State) (t : Tack) (d : Reg) (m : MemOp) (f : BitVec 3), Ready s t →
     ReductionAccepted (.redadd d m f t) s d m [2, 3, 6, 7] 1 ∧ ReductionAccepted (.redfadd d m f t) s d m [10] 1 ∧
     ReductionAccepted (.redmin d m f t) s d m [10, 2, 3, 6, 7] 2 ∧ ReductionAccepted (.redmax d m f t) s d m [10, 2, 3, 6, 7] 3) ∧
  (∀ (s : State) (tile i : Nat) (r : Reduction), (s.tile tile).reds[i]? = some r →
     (∀ q ∈ (s.tile tile).reds.take i, q.source ≠ r.source ∨ q.home ≠ r.home) →
     let key := redKey r.source r.home
     let w := typeWidth r.type
     let bit := 8 * r.addr + r.bit
     ∃ u, exec (.reductionPerform tile i) s = .next u ∧ u.streams = s.streams ∧ u.cur = s.cur ∧
       (u.tile tile).reds = (s.tile tile).reds.take i ++ (s.tile tile).reds.drop (i + 1) ∧
       (0 < (r.number - Tab.get 0 key (s.tile tile).applied).toInt →
         (poisonIn s [(r.addr, (r.bit % 8 + w + 7) / 8)]) = none →
         Tab.get 0 key (u.tile tile).applied = r.number ∧
         u.mem = s.mem.writeBits bit w (combine r.type r.rop (s.mem.readBits bit w) r.value)) ∧
       ((r.number - Tab.get 0 key (s.tile tile).applied).toInt ≤ 0 → u.mem = s.mem ∧ (u.tile tile).applied = (s.tile tile).applied))

/-- R213 to R217: the bobbin instructions where their requirements hold, and the no-wait forms where they do not: a release of
any number of ready entries, a publication of any claimed slot in any order, after which FILL stands at the first claimed
slot that is not published. -/
def Obligations.BobbinInstructions : Prop :=
  ∀ (s : State) (t : Tack) (b : BitVec 4) (d x : Reg) (nw : Bool) (f : BitVec 3), Ready s t →
    let q := bobOf s b
    let used := (q.claim - q.head).toNat
    let ready := (q.fill - q.head).toNat
    let claimed := (q.claim - q.fill).toNat
    let slot (c : BitVec 32) : Word := BitVec.ofNat 64 (q.base + q.ssize * (c.toNat % q.scount))
    let v := (s.x x).toNat
    (used < q.scount → BobbinGives (.bbclm d b nw t) s b (s.wrote d (slot q.claim)) { q with claim := q.claim + 1 }) ∧
    (q.scount ≤ used → BobbinGives (.bbclm d b true t) s b (s.wrote d (BitVec.allOnes 64)) q) ∧
    (used < q.scount ∨ nw = true → BobbinGives (.bbwe d b nw t) s b (s.wrote d (BitVec.ofNat 64 (q.scount - used))) q) ∧
    (v < q.scount → v < ready → BobbinGives (.bbwf d b x nw t) s b (s.wrote d (slot (q.head + BitVec.ofNat 32 v))) q) ∧
    (ready ≤ v ∨ q.scount ≤ v → BobbinGives (.bbwf d b x true t) s b (s.wrote d (BitVec.allOnes 64)) q) ∧
    (v = 0 → BobbinGives (.bbrel b x t) s b s.x q) ∧
    (v ≤ ready → ∃ pub, BobbinGives (.bbrel b x t) s b s.x { q with head := q.head + BitVec.ofNat 32 v, pubv := pub } ∧
      ∀ k, k < 256 → (pub.getLsbD k = true ↔ q.pubv.getLsbD k = true ∧ ∀ i, i < v → (q.head + BitVec.ofNat 32 i).toNat % q.scount ≠ k)) ∧
    (∀ k, k < q.scount → q.scount ≤ 256 → v = q.base + q.ssize * k → 0 < q.ssize → q.pubv.getLsbD k = false →
      claimed ≤ q.scount → (∃ i, i < claimed ∧ (q.fill + BitVec.ofNat 32 i).toNat % q.scount = k) →
      let pub := q.pubv ||| BitVec.ofNat 256 (2 ^ k)
      let published (i : Nat) : Bool := pub.getLsbD ((q.fill + BitVec.ofNat 32 i).toNat % q.scount)
      ∃ n, BobbinGives (.bbpub b x t) s b s.x { q with fill := q.fill + BitVec.ofNat 32 n, pubv := pub } ∧ n ≤ claimed ∧
        (∀ i, i < n → published i = true) ∧ (n < claimed → published n = false)) ∧
    (let base := v % 2 ^ 23
     let ssize := if v / 2 ^ 23 % 2 ^ 16 = 0 then 65536 else v / 2 ^ 23 % 2 ^ 16
     let scount := v / 2 ^ 39 % 2 ^ 9
     s.cur.thimble = false → base % 64 = 0 → ssize % 64 = 0 → 1 ≤ scount → scount ≤ 256 → base + ssize * scount ≤ 2 ^ 23 →
       BobbinGives (.bbinit b x t) s b s.x ⟨base, ssize, scount, 0, 0, 0, 0, q.gen + 1⟩) ∧
    BobbinGives (.bbqry d b f t) s b (s.wrote d (if f = 0 then BitVec.ofNat 64 (q.scount * 2 ^ 39 + q.ssize % 65536 * 2 ^ 23 + q.base)
      else if f = 1 then q.head.setWidth 64 else if f = 2 then q.claim.setWidth 64 else if f = 3 then q.fill.setWidth 64
      else BitVec.ofNat 64 (q.pubv.toNat / 2 ^ (64 * (f.toNat - 4))))) q

/-- R206 to R208: HLD loads a good entry of the handle table, and leaves no older line of it in the L1 (R171); HINFO reads a
handle's views, HSUB narrows a window and can add no permission. R209: PREF and CINV never fault and change no result: no register,
no byte of memory, only lines of the core's L1: CINV drops every line that meets a byte of its d units, but those of pages that
are unmapped or hold a poisoned granule (log 83), and no other; PREF may add one. -/
def Obligations.HandlesAndCacheHints : Prop :=
  (∀ (s : State) (t : Tack) (d a b : Reg) (imm : BitVec 9) (f : BitVec 3), Ready s t →
     let setsHandle (u : State) (h : Handle) : Prop :=
       u.cur = s.cur ∧ (∀ r, u.h r = if r = d then h else s.h r) ∧ (∀ k, k ≠ s.cur.streamK → u.stream k = s.stream k) ∧ (∀ k, k ≠ s.cur.slotK → u.slot k = s.slot k) ∧
       { u.mySlot.rest with handles := [] } = { s.mySlot.rest with handles := [] } ∧
       { u.outside with tiles := [], aux := [] } = { s.outside with tiles := [], aux := [] } ∧
       (∀ k, { u.tile k with tcache := [] } = { s.tile k with tcache := [] }) ∧
       (∀ k, k ≠ s.cur.coreK → u.auxOf k = s.auxOf k) ∧ { u.auxOf s.cur.coreK with l1 := [] } = { s.auxOf s.cur.coreK with l1 := [] } ∧
       Sequential s u 4 s.x 0
     WritesReg (.hinfo d a f t) s 4 d (handleView (s.h a) f.toNat) ∧
     ((s.x b).toNat + (s.x (b + 1)).toNat ≤ (s.h a).bound →
       (isPB (s.h a).type = true → (s.x b).toNat % 768 = 0 ∧ (s.x (b + 1)).toNat % 768 = 0) →
       ∃ u, exec (.hsub d a b f t) s = .next u ∧ { u.outside with tiles := [] } = { s.outside with tiles := [] } ∧ setsHandle u
         { s.h a with wstart := ((s.h a).wstart + (s.x b).toNat) % 2 ^ 64, bound := (s.x (b + 1)).toNat
                      pw := (s.h a).pw && !f.getLsbD 0, pa := (s.h a).pa && !f.getLsbD 1, pr := (s.h a).pr && !f.getLsbD 2 }) ∧
     (let idx := s.x a + BitVec.ofInt 64 (immOf s 9 imm)
      idx.toNat < s.mySlot.regs.htcnt → NoReductions s → ∀ segs leaf u0,
        State.xlate s.cur.tile (2 ^ 21) .read (!s.cur.thimble) 1 s ((s.mySlot.regs.htbase.toNat + 64 * idx.toNat) % 2 ^ 56) 64 = (.ok segs leaf, u0) →
        poisonIn s segs = none → ∀ h, handleOfBytes (s.coreView s.cur.coreK (firstAddr [segs]) 64) = .ok h →
        ∃ u, exec (.hld d a imm t) s = .next u ∧ setsHandle u h ∧
          (u.auxOf s.cur.coreK).l1 = linesBut (s.auxOf s.cur.coreK).l1 [(firstAddr [segs], 64)])) ∧
  (∀ (s : State) (t : Tack) (d : Reg) (m : MemOp), Ready s t →
     (∃ u, exec (.pref m t) s = .next u ∧ LoadFrame s u ∧ Sequential s u 4 s.x 0) ∧ OnlyAdvances (.prefL2 m t) s 4 ∧
     (let good := (namedRuns s m (s.x d).toNat).filter (fun r => s.poison.all (fun g => decide (g / 1024 ≠ r.1 / 65536)))
      ∀ i, i = .cinv d m t ∨ i = .cinvL2 d m t → ∃ u, exec i s = .next u ∧ LoadFrame s u ∧ Sequential s u 4 s.x 0 ∧
        (u.auxOf s.cur.coreK).l1 = linesBut (s.auxOf s.cur.coreK).l1 good))

/-- R200: the checks of an access in their order, each before the ones that follow it. -/
def Obligations.MemoryChecksInOrder : Prop :=
  ∀ (s : State) (h : Handle) (idx : Nat) (off : Int) (w : Want), 1 ≤ w.n →
    let fails (c : Nat) : Prop := ∃ e, s.preCheck h idx off w = some e ∧ e.code = c ∧ e.info2 = BitVec.ofInt 64 off ∧
      e.info0 = BitVec.ofNat 64 (((h.base : Int) + h.unitByte off) % (2 ^ 56 : Nat)).toNat
    let perms : Bool := (!w.pr || h.pr) && (!w.pw || h.pw) && (!w.pa || h.pa)
    (h.bound = 0 → fails 1) ∧
    (h.bound ≠ 0 → h.space = 9 → s.cur.tile ≠ 16 → fails 0x0D) ∧
    (h.bound ≠ 0 → (h.space ≠ 9 ∨ s.cur.tile = 16) → h.space ∉ w.spaces → fails 4) ∧
    (h.bound ≠ 0 → (h.space ≠ 9 ∨ s.cur.tile = 16) → h.space ∈ w.spaces → perms = false → fails 4) ∧
    (h.bound ≠ 0 → (h.space ≠ 9 ∨ s.cur.tile = 16) → h.space ∈ w.spaces → perms = true → w.typeOk = false → fails 0x0B) ∧
    (h.bound ≠ 0 → (h.space ≠ 9 ∨ s.cur.tile = 16) → h.space ∈ w.spaces → perms = true → w.typeOk = true → w.layoutOk = false →
      fails 0x0C) ∧
    (h.bound ≠ 0 → (h.space ≠ 9 ∨ s.cur.tile = 16) → h.space ∈ w.spaces → perms = true → w.typeOk = true → w.layoutOk = true →
      1 ≤ w.align → ((h.base : Int) + h.unitByte off) % (w.align : Int) ≠ 0 → fails 2) ∧
    (h.bound ≠ 0 → (h.space ≠ 9 ∨ s.cur.tile = 16) → h.space ∈ w.spaces → perms = true → w.typeOk = true → w.layoutOk = true →
      1 ≤ w.align → 1 ≤ w.offAlign → (((h.base : Int) + h.unitByte off) % (w.align : Int) = 0 → off % (w.offAlign : Int) ≠ 0 → fails 2) ∧
      (((h.base : Int) + h.unitByte off) % (w.align : Int) = 0 → off % (w.offAlign : Int) = 0 → (off < 0 ∨ (h.bound : Int) < off + w.n) → fails 1))

/-- R218 to R220, R226 to R229: the copy instructions are accepted by their engine when it has room and every check
passes. -/
def Obligations.CopiesAreAccepted : Prop :=
  ∀ (s : State) (t : Tack) (d a b : Reg) (m : MemOp) (tile : Bool), Ready s t → Undisturbed s → NoReductions s →
    (s.engine (engineOf s.cur tile)).ops.length < engineCap (engineOf s.cur tile) →
    (∀ pat r, patternAt s m = some (pat, r) →
      (CopyPasses s m.h.toNat .cpy false pat → CopyAccepted (.cpy m tile t) s tile .cpy pat (some r) 0 none) ∧
      (let p2 := { pat with soff := pat.soff + (s.x d).toInt, doff := pat.doff + (s.x (d + 1)).toInt }
       CopyPasses s m.h.toNat .cpy false p2 → CopyAccepted (.cpyx d m tile t) s tile .cpy p2 (some r) 0 none) ∧
      (CopyPasses s m.h.toNat .gath false pat (s.x d).toNat → s.indexBad m.h.toNat pat (s.x d) = none →
        CopyAccepted (.gath d m tile t) s tile .gath pat (some r) (s.x d).toNat none) ∧
      (CopyPasses s m.h.toNat .scat false pat (s.x d).toNat → s.indexBad m.h.toNat pat (s.x d) = none →
        CopyAccepted (.scat d m tile t) s tile .scat pat (some r) (s.x d).toNat none) ∧
      (CopyPasses s m.h.toNat .fill false pat → NoneArmed s pat.sfsel →
        CopyAccepted (.fill d m tile t) s tile .fill pat (some r) ((s.x d).toNat % 2 ^ typeWidth pat.type) none) ∧
      (let sel := (s.x d).toNat / 2 ^ 32 % 2 ^ 9
       let thr := (s.x d).setWidth 32
       CopyPasses s m.h.toNat .cpy false pat → (sel < 64 ∨ 256 ≤ sel) →
        CopyAccepted (.cpyw d m tile t) s tile .cpy pat (some r) 0
          (if 0 ≤ ((semOf s sel).v - thr).toInt then none else some (sel, thr)))) ∧
    (CopyPasses s a.toNat .cpyq true (quickPattern s d a b) →
      CopyAccepted (.cpyq d a b tile t) s tile .cpyq (quickPattern s d a b) none 0 none)

/-- R219: COPY_START of one iteration of a plain copy between directly addressed memories with no poison moves one
element, bits outside the destination element as before, and starts the operation. R184, R224, R225: COPY_SOURCE_FREE of a copy that has read every element makes the source-free increment once;
COPY_COMPLETE of one that has written every element writes STATUS 1, or 3 with poisoned granules, or 5 with skipped
iterations, and ZCOUNT and DONE, makes the destination-visible increment, and frees the operation's place. R221, R225: COPY_FAULT at
a poisoned source granule without ZPOIS pauses the copy with cause 0x0E for its task, or, where the task is gone, ends it with
STATUS 7, ZCOUNT and DONE, makes both increments, and raises the 0x0E as an asynchronous one (here to the thimble core). -/
def Obligations.CopiesRun : Prop :=
  (∀ (s : State) (e : Eng) (id : Nat) (o : CopyOp) (ss ds : List (Nat × Nat)) (sh dh : Nat), Runnable s e id o →
     o.kind = .cpy → o.held = [] → o.done < o.pat.total → o.pat.rop = 0 → o.pat.bobt = false → s.poison = [] →
     direct o.src.space = true → direct o.dst.space = true →
     (s.locate o.place o.src o.pat.sh .read o.pat.width (s.copyPos o o.done).1).1 = .ok ss sh →
     (s.locate o.place o.dst o.pat.dh (.copyWrite false) o.pat.width (s.copyPos o o.done).2).1 = .ok ds dh →
     s.writeStalls ds = false → FirstToStart s e id →
     ∃ u o', exec (.copyStart e id 1) s = .next u ∧ StreamsUntouched s u ∧ u.findOp e id = some o' ∧ o'.started = true ∧
       o'.done = o.done + 1 ∧ u.slots = s.slots ∧ u.mem = putBits s.mem ds dh o.pat.width (bitsAt s.mem ss sh o.pat.width)) ∧
  ((∀ (s : State) (e : Eng) (id : Nat) (o : CopyOp), Runnable s e id o → o.started = true → NoWaiters s → o.place.tile = engTile e →
      o.place.core < 8 → (o.pat.sfsel < 64 ∨ 256 ≤ o.pat.sfsel) → (o.pat.dvsel < 64 ∨ 256 ≤ o.pat.dvsel) →
      (o.pat.total ≤ o.done + o.held.length → o.freed = false → o.pat.sfv = true →
        ∃ u o', exec (.copySourceFree e id) s = .next u ∧ StreamsUntouched s u ∧ u.mem = s.mem ∧ u.findOp e id = some o' ∧
          o'.freed = true ∧
          (u.sem o.place.tile o.place.core o.pat.sfsel).v = (s.sem o.place.tile o.place.core o.pat.sfsel).v + o.pat.sfinc) ∧
      (∀ r, o.pat.total ≤ o.done → o.freed = true → o.pat.dvv = true → o.slot = none → o.recOff = some r →
        ∃ u, exec (.copyComplete e id) s = .next u ∧ StreamsUntouched s u ∧ u.findOp e id = none ∧
          (u.sem o.place.tile o.place.core o.pat.dvsel).v = (s.sem o.place.tile o.place.core o.pat.dvsel).v + o.pat.dvinc ∧
          RecordEnds s u o r (if o.skipped = true then 5 else if o.zeroed = [] then 1 else 3))) ∧
   (∀ (s : State) (e : Eng) (id g : Nat) (o : CopyOp) (ss : List (Nat × Nat)) (sh k : Nat), Runnable s e id o → o.started = true →
      o.kind = .cpy → o.held = [] → o.done < o.pat.total → o.pat.zpois = false → direct o.src.space = true → o.place.tile < 16 →
      (s.locate o.place o.src o.pat.sh .read o.pat.width (s.copyPos o o.done).1).1 = .ok ss sh →
      g ∈ s.poison → (∃ x ∈ ss, x.1 / 64 ≤ g ∧ g * 64 < x.1 + x.2) →
      (s.findTask o.task = some k → (s.slot k).mode = .trapped →
        ∃ u o' ev, exec (.copyFault e id) s = .next u ∧ StreamsUntouched s u ∧ u.mem = s.mem ∧ u.findOp e id = some o' ∧
          o'.paused = some ev ∧ ev.code = 0x0E ∧ ev.info2 = BitVec.ofNat 64 o.done ∧ o'.done = o.done ∧
          (u.slot k).faults = (s.slot k).faults ++ [(e, id)]) ∧
      (∀ r, s.findTask o.task = none → (∀ h ∈ s.held, h.task ≠ o.task) → NoWaiters s → o.place.tile = engTile e → o.place.core < 8 →
        s.frtDest o.place.tile 0x0E = 2 → o.recOff = some r → o.pat.sfv = true → o.freed = false → o.pat.dvv = true →
        o.pat.sfsel ≠ o.pat.dvsel → (o.pat.sfsel < 64 ∨ 256 ≤ o.pat.sfsel) → (o.pat.dvsel < 64 ∨ 256 ≤ o.pat.dvsel) →
        ∃ u ev, exec (.copyFault e id) s = .next u ∧ StreamsUntouched s u ∧ u.findOp e id = none ∧ RecordEnds s u o r 7 ∧
          (u.sem o.place.tile o.place.core o.pat.sfsel).v = (s.sem o.place.tile o.place.core o.pat.sfsel).v + o.pat.sfinc ∧
          (u.sem o.place.tile o.place.core o.pat.dvsel).v = (s.sem o.place.tile o.place.core o.pat.dvsel).v + o.pat.dvinc ∧
          ev.code = 0x0E ∧ u.reports = s.reports ++ [⟨.thimble, ev, o.place.tile, 0⟩])))

/-- R230, R261: SLD and SST, VLD and VST move whole rows of 2 KiB between memory and slice memory or an accumulator
tile, bit for bit. -/
def Obligations.RowTransfers : Prop :=
  ∀ (s : State) (t : Tack) (d : Reg) (m : MemOp) (f : BitVec 3), Ready s t → NoReductions s →
    let h := s.h m.h
    let off := s.offM m
    let n := f.toNat + 1
    let slice := sram kSlice s.cur.coreK (2048 * (s.x d).toNat)
    let r := rowWord (s.x d)
    (∀ segs leaf, access s h m.h.toNat off (h.rowsWant off n false [1, 2, 3, 4]) = some (segs, leaf) → (s.x d).toNat + f.toNat ≤ 511 →
      RowsMove (.sld d m f t) s segs.flatten false slice n) ∧
    (∀ segs leaf, access s h m.h.toNat off (h.rowsWant off n true [1, 2, 3, 4]) = some (segs, leaf) → (s.x d).toNat + f.toNat ≤ 511 →
      poisonIn s [(slice, 2048 * n)] = none → RowsMove (.sst d m f t) s segs.flatten true slice n) ∧
    (s.ownsTile r.tile = true → r.row + f.toNat ≤ 255 →
      (∀ segs leaf, access s h m.h.toNat off (h.rowsWant off n false [0, 1]) = some (segs, leaf) →
        RowsMove (.vld d m f t) s segs.flatten false (rowAddr s d) n) ∧
      (∀ segs leaf, access s h m.h.toNat off (h.rowsWant off n true [0, 1]) = some (segs, leaf) →
        RowsMove (.vst d m f t) s segs.flatten true (rowAddr s d) n))

/-- R234 to R240: the ply instructions on tensors that pass their checks. FPFLAGS gain NX where a mantissa delivered is not the
exact one, taken relative to the plies that the mode fetches, SAT where one was clamped, and PAXPY NV for a product of 0 and an
infinity (R68 as log 31, DEDUCED, reads it); PAXPY's stochastic words are CG8's with the counter rounding of log 11 (DEDUCED). -/
def Obligations.PlyInstructions : Prop :=
  ∀ (s : State) (t : Tack) (d : Reg) (m : MemOp) (f : BitVec 3), Ready s t → NoReductions s →
    let c := plyCtl (s.x d)
    let h2 := s.h (BitVec.ofNat 6 c.h2)
    let off := s.offM m
    let mode := min f.toNat 2
    let counts (k : Nat) : Reg → Word := s.wrote d (BitVec.ofNat 64 k)
    let rd := PlyEnd.operand (s.h m.h) m.h.toNat off c.n .read pbTypes
    let wr := PlyEnd.operand (s.h m.h) m.h.toNat off c.n .write pbTypes
    let up := PlyEnd.operand (s.h m.h) m.h.toNat off c.n .atomic pbTypes
    let q := pbPlies (s.h m.h).type
    let p2 := pbPlies h2.type
    (let dst := PlyEnd.second h2 c.h2 c.off2 c.n .write pbTypes
     1 ≤ c.pk → c.pk ≤ q → h2.type = 0x17 + c.pk →
      PlyGives (.pld d m f t) s t c.n [⟨rd, true, List.range (pliesFetched mode c.pk q)⟩, ⟨dst, true, List.range c.pk⟩] counts true
        (fun i st => let r := mapGroup (deliveredBlock mode c.pk q) c.pk (rd.read st i q); (r.1, dst.write st i r.2))) ∧
    (let src := PlyEnd.second h2 c.h2 c.off2 c.n .read pbTypes
     (p2 = q → PlyGives (.pst d m t) s t c.n [⟨wr, true, List.range q⟩, ⟨src, true, List.range p2⟩] (fun _ => s.x) false
        (fun i st => ((0, 0), wr.write st i (src.read st i q)))) ∧
     (p2 ≤ q → PlyGives (.pstl d m t) s t c.n [⟨wr, true, List.range q⟩, ⟨src, true, List.range p2⟩] (fun _ => s.x) false
        (fun i st => let g := src.read st i p2
          ((0, 0), wr.write st i { g with plies := g.plies ++ List.replicate (q - p2) (List.replicate 16 0) })))) ∧
    (let src := PlyEnd.second h2 c.h2 c.off2 c.n .read [0x0A, 0x09, 0x08]
     let alpha := fp32.decode ((s.x (d + 1)).toNat % 2 ^ 32)
     let rnd (l : Nat) : Nat :=
       let v := s.x (d + 3) + BitVec.ofNat 64 l
       (cg8 ((s.x (d + 2)).toNat % 2 ^ 32) ((s.x (d + 2)).toNat / 2 ^ 32) (v.toNat % 2 ^ 32) (v.toNat / 2 ^ 32) 0 0).1
     PlyGives (.paxpy d m f t) s t c.n [⟨up, true, List.range q⟩, ⟨src, false, []⟩] counts true (fun i st =>
       let xs := src.floats st i
       let l0 := ((s.h m.h).wstart + up.pos + 768 * i).toNat
       let bl := (List.range 16).map (fun k =>
         let b := ((up.read st i q).blocks).getD k (0, [])
         let vs := (List.range 48).map (fun j => axpyValue b.1 q (b.2.getD j 0) alpha (valueOf h2.type (xs.getD (48 * k + j) 0)))
         let r := quantisedBlock (vs.map (·.1)) q f.toNat (if f = 5 then (List.range 48).map (fun j => rnd (l0 + 48 * k + j)) else [])
         (r.1, r.2.1, r.2.2 ||| (if vs.any (·.2) = true then 16 else 0)))
       ((groupOf q bl).1, up.write st i (groupOf q bl).2))) ∧
    PlyGives (.pscl d m t) s t c.n [⟨up, true, List.range q⟩] counts true
      (fun i st => let r := mapGroup (scaledBlock q (s.x (d + 1)).toInt) q (up.read st i q); (r.1, up.write st i r.2)) ∧
    PlyGives (.pnorm d m t) s t c.n [⟨up, true, List.range q⟩] counts false
      (fun i st => let r := mapGroup (normalBlock q) q (up.read st i q); (r.1, up.write st i r.2)) ∧
    (c.pk < q → PlyGives (.pcnt d m t) s t c.n [⟨rd, false, [c.pk]⟩] counts false
      (fun i st => (((((rd.read st i q).plies.getD c.pk []).filter (fun r => decide (r ≠ 0))).length, 0), st))) ∧
    (let dst := PlyEnd.operand (s.h m.h) m.h.toNat off c.n .write (pbTypes ++ floatTypes)
     let src := PlyEnd.second h2 c.h2 c.off2 c.n .read (pbTypes ++ floatTypes)
     (isPB (s.h m.h).type = true → isPB h2.type = false →
       PlyGives (.pcvt d m f t) s t c.n [⟨dst, true, List.range q⟩, ⟨src, false, []⟩] counts true (fun i st =>
         let xs := src.floats st i
         let bl := (List.range 16).map (fun k =>
           quantisedBlock ((List.range 48).map (fun j => valueOf h2.type (xs.getD (48 * k + j) 0))) q 0 [])
         ((groupOf q bl).1, dst.write st i (groupOf q bl).2))) ∧
     (isPB (s.h m.h).type = false → isPB h2.type = true → 1 ≤ c.pk → c.pk ≤ p2 →
       PlyGives (.pcvt d m f t) s t c.n [⟨dst, false, []⟩, ⟨src, true, List.range (pliesFetched mode c.pk p2)⟩] counts true (fun i st =>
         let bl := (src.read st i (pliesFetched mode c.pk p2)).blocks.map (floatOf (s.h m.h).type mode c.pk p2)
         let w := typeWidth (s.h m.h).type
         (((bl.map (fun b => b.2.1)).sum, flagsOf (bl.map (fun b => b.2.2))), st.wr (dst.view s.cur) ((dst.h.elemBit w (dst.pos + 768 * i)).toNat / 8)
           ((bl.flatMap (·.1)).flatMap (fun v => leBytes (w / 8) v))))))

/-- R249 to R253, R256, R260, R264, R265: the elementwise, comparing, selecting, filling and permuting vector
instructions on rows the slot owns and of the types they take: each active lane of D, and no other byte. An integer lane that
.SAT clamps sets SAT and NX (R68 as log 31, DEDUCED, reads it), VABS and VNEG of a WF32 zero keep its encoding F (log 32, DEDUCED),
and VRNG's words are CG8's with the counter rounding of log 11 (DEDUCED). -/
def Obligations.VectorLanes : Prop :=
  ∀ (s : State) (t : Tack) (d a b : Reg) (f : BitVec 3), Ready s t → Owned s [d] →
    let n := s.actives d
    let ty := s.rtype d
    let w := s.rwidth d
    let A (l : Nat) : Nat := (s.row a).getD l 0
    let B (l : Nat) : Nat := (s.row b).getD l 0
    let gives (i : Instr) (g : Nat → Nat → Nat × Nat) : Prop := RowIs i s d (activeLanes n (s.row d) g)
    let elem (i : Instr) (o : LaneOp) : Prop := gives i (fun l v => elemLane o ty f.toNat (A l) (B l) v)
    let same : Prop := s.rtype a = ty
    (Owned s [a, b] → (clsArith ty = true → same → s.rtype b = ty →
        elem (.vadd d a b f t) .add ∧ elem (.vsub d a b f t) .sub ∧ elem (.vmul d a b f t) .mul ∧ elem (.vfma d a b f t) .fma ∧
        elem (.vmin d a b f t) .min ∧ elem (.vmax d a b f t) .max) ∧
      (clsArith (s.rtype a) = true → s.rtype b = s.rtype a → w = s.rwidth a →
        gives (.vcmp d a b f t) (fun l _ => (if compares (s.rtype a) f.toNat (A l) (B l) = true then 2 ^ w - 1 else 0, 0))) ∧
      (accType (s.rtype a) = true → s.rtype b = s.rtype a → w = s.rwidth a →
        gives (.vsel d a b t) (fun l v => (if v ≠ 0 then A l else B l, 0))) ∧
      (s.rwidth a = w → s.rwidth b = w → gives (.vand d a b t) (fun l _ => (A l &&& B l, 0)) ∧
        gives (.vor d a b t) (fun l _ => (A l ||| B l, 0)) ∧ gives (.vxor d a b t) (fun l _ => (A l ^^^ B l, 0))) ∧
      (isInt ty = true → same → s.rtype b = ty →
        gives (.vshl d a b t) (fun l _ => (A l * 2 ^ (B l % w) % 2 ^ w, 0)) ∧
        gives (.vshr d a b t) (fun l _ => (((intOf ty (A l)).fdiv (2 ^ (B l % w)) % 2 ^ w).toNat, 0))) ∧
      (accType (s.rtype a) = true → same → isInt (s.rtype b) = true → s.rwidth b = s.rwidth a →
        gives (.vperm d a b t) (fun l _ => (A (B l), 0)))) ∧
    (Owned s [a] → (clsArith ty = true → same → gives (.vabs d a f t) (fun l v => elemLane .abs ty f.toNat (A l) (A l) v) ∧
        gives (.vneg d a f t) (fun l v => elemLane .neg ty f.toNat (A l) (A l) v)) ∧
      (isFloatT ty = true → ty ≠ 0x0B → same → gives (.vsfn d a f t) (fun l _ => sfnLane ty f.toNat (A l)))) ∧
    gives (.vbcst d a t) (fun _ _ => ((s.x a).toNat % 2 ^ w, 0)) ∧
    (isInt ty = true → gives (.viota d a t) (fun l _ => (((s.x a).toNat + l) % 2 ^ w, 0))) ∧
    (w = 32 → gives (.vrng d a b f t) (fun l _ => (rngLane f.toNat (s.x a) (s.x b) (s.x (b + 1)) l, 0)))

/-- R254, R255, R257 to R259, R262, R263: conversion of a row, its reductions and scans, and its lanes, statistics,
counters and columns one at a time. The flags of an integer to integer conversion that clamps are SAT and NX (R68 as log 31,
DEDUCED, reads it). -/
def Obligations.VectorItems : Prop :=
  ∀ (s : State) (t : Tack) (d a b : Reg) (f : BitVec 3), Ready s t →
    let ty := s.rtype a
    let n := s.actives a
    let wd := s.rwidth d
    let ra := rowWord (s.x a)
    let rd := rowWord (s.x d)
    let i := (s.x b).toNat
    let item (tile row : Nat) : BitVec 32 := (s.myCore.accum tile).item f.toNat row
    (Owned s [d, a] →
      (let cw := s.x b
       let ws := s.rwidth a
       let mode := cw.toNat % 8
       let part := cw.toNat / 16 % 4
       let sr := mode = 5
       let m := s.activeN (min (16384 / ws) (16384 / wd))
       let so := if ws < wd then part * (16384 / wd) else 0
       let dO := if wd < ws then part * (16384 / ws) else 0
       part < max ws wd / min ws wd → (sr → Owned s [b + 1] ∧ (ws = 32 ∨ wd = 32) ∧ s.rwidth (b + 1) = 32) →
        let conv (j : Nat) : Nat × Nat := cvtLane ty (s.rtype d) mode (cw.getLsbD 3) (if mode = 5 then (s.row (b + 1)).getD j 0 else 0)
          ((s.row a).getD (so + j) 0)
        RowIs (.vcvt d a b t) s d (((s.row d).zipIdx).map (fun (v, l) => if dO ≤ l ∧ l < dO + m then (conv (l - dO)).1 else v),
          ((List.range m).map (fun j => (conv j).2)).foldl (fun x y => x ||| y) 0)) ∧
      (clsArith ty = true → s.rtype d = ty → f.toNat < 6 →
        RowIs (.vscan d a f t) s d (scanRow (redOp ty f.toNat).1 (redOp ty f.toNat).2 (s.actives d) (s.row a))) ∧
      (wd = s.rwidth a → i < 16384 / s.rwidth a →
        let k := min 256 (s.actives d)
        let w := s.rwidth d
        RowIs (.vcolR d a ⟨b, 0⟩ t) s d (activeLanes k (s.row d) (fun l _ => (s.getLane s.cur.coreK ra.tile l w i, 0))) ∧
        (let runs := (List.range k).map (fun l => (accAddr s.cur.coreK rd.tile l (i * (w / 8)), w / 8))
         ∃ m, StoresOnly (.vcolW d a b t) s s.x 0 m runs ∧
          ∀ l, l < k → m.readNat (accAddr s.cur.coreK rd.tile l (i * (w / 8))) (w / 8) = (s.row a).getD l 0)) ∧
      (2 ≤ f.toNat → UserRuns s s.cur → s.me.ext = none → HandlerLands s s.cur → s.frtDest s.cur.tile 0x0B = 0 →
        ∃ u e, exec (.vcolR d a ⟨b, f⟩ t) s = .next u ∧ EntersHandler s u s.cur false e ∧ e.code = 0x0B)) ∧
    (Owned s [a] →
      (clsArith ty = true → ScalarIs (.vred d a f t) s d (vredResult ty f.toNat n (s.row a)).1 (vredResult ty f.toNat n (s.row a)).2) ∧
      (clsArith ty = true → accType ty = true → isInt ty = true → f = 0 →
        ScalarIs (.vred d a f t) s d (laneWord ty (((s.row a).take n).sum % 2 ^ s.rwidth a)) 0) ∧
      (f = 0 → i < 16384 / s.rwidth a → ScalarIs (.vget d a b f t) s d (laneWord ty ((s.row a).getD i 0)) 0) ∧
      (1 ≤ f.toNat → f.toNat ≤ 4 → ScalarIs (.vget d a b f t) s d ((item ra.tile ra.row).setWidth 64) 0)) ∧
    (Owned s [d] →
      (f = 0 → i < 16384 / wd → StoresOnly (.vput d a b f t) s s.x 0
        (s.mem.writeNat (rowAddr s d + i * (wd / 8)) (wd / 8) ((s.x a).toNat % 2 ^ wd)) [(rowAddr s d + i * (wd / 8), wd / 8)]) ∧
      (1 ≤ f.toNat → f.toNat ≤ 4 → ∃ u, exec (.vput d a b f t) s = .next u ∧ u.mem = s.mem ∧
        AccumFrame s u s.x 0 rd.tile ((s.myCore.accum rd.tile).setItem f.toNat rd.row ((s.x a).setWidth 32))))

/-- R266 (with R475) to R270: the online softmax step and its division, and rows quantised to blocks of 48 and back,
with the saturations counted. VQNT sets NX where a mantissa is rounded or clamped (R68 as log 31, DEDUCED, reads it). -/
def Obligations.SoftmaxAndQuantisation : Prop :=
  ∀ (s : State) (t : Tack) (d a b : Reg) (f : BitVec 3), Ready s t → Owned s [d] →
    let r := rowWord (s.x d)
    let acc := s.myCore.accum r.tile
    let n := s.actives d
    let outside (u : State) : Prop := ∀ x, Outside x [(rowAddr s d, 2048)] → u.mem.readByte x = s.mem.readByte x
    let counted (fl sat : Nat) (c : Accum) (u : State) : Prop :=
      AccumFrame s u s.x (fl ||| (if sat = 0 then 0 else 32)) r.tile { c with ovf := BitVec.ofNat 32 (min (c.ovf.toNat + sat) (2 ^ 32 - 1)) }
    (s.rtype d = 0x0A →
      (let q := softmaxRow n (acc.item 1 r.row).toNat (acc.item 2 r.row).toNat (s.row d)
       ∃ u, exec (.osmx d t) s = .next u ∧ u.mem = (s.putRow r q.1).mem ∧ outside u ∧ AccumFrame s u s.x q.2.2.2.2 r.tile
        (((acc.setItem 1 r.row (BitVec.ofNat 32 q.2.1)).setItem 2 r.row (BitVec.ofNat 32 q.2.2.1)).setItem 3 r.row
          (BitVec.ofNat 32 q.2.2.2.1))) ∧
      RowIs (.osmn d t) s d (activeLanes n (s.row d) (fun _ v => fDiv fp32 v (acc.item 2 r.row).toNat))) ∧
    (Owned s [a] →
      let cw := s.x b
      let nb := cw.toNat % 16
      let first := cw.toNat / 2 ^ 16 % 2 ^ 11
      let q := f.toNat + 1
      1 ≤ nb → nb ≤ 10 →
      (isFloatT (s.rtype a) = true → (s.rtype d = 0 ∧ q ≤ 4 ∨ s.rtype d = 1) → first + 48 * nb ≤ 16384 / s.rwidth a →
        let bl := (List.range nb).map (fun i =>
          quantBlock ((((s.row a).drop (first + 48 * i)).take 48).map (valueOf (s.rtype a))) q 0 [])
        let inexact := (List.range nb).any (fun i =>
          quantNX ((((s.row a).drop (first + 48 * i)).take 48).map (valueOf (s.rtype a))) q)
        ∃ u, exec (.vqnt d a b f t) s = .next u ∧ outside u ∧
          u.mem = (s.putRow r (bl.flatMap (fun x => x.2.1.map (wrapU (s.rwidth d))))).mem.writeBytes (rowAddr s d + 1984)
            (bl.map (fun x => BitVec.ofNat 8 x.1)) ∧ counted (if inexact = true then 1 else 0) ((bl.map (fun x => x.2.2)).sum) acc u) ∧
      (isFloatT (s.rtype d) = true → (s.rtype a = 0 ∧ q ≤ 4 ∨ s.rtype a = 1) → first + 48 * nb ≤ 16384 / s.rwidth d →
        let x (k : Nat) : Nat := (s.mem.readByte (rowAddr s a + 1984 + k)).toNat
        let out (l : Nat) : Nat × Nat := dqnLane (s.rtype d) q (x (l / 48)) ((s.row a).getD l 0)
        let outs := (List.range (48 * nb)).map out
        ∃ u, exec (.vdqn d a b f t) s = .next u ∧ outside u ∧
          u.mem = (s.putRow r ((s.row d).take first ++ outs.map (·.1))).mem ∧
          counted ((outs.map (·.2)).foldl (fun x y => x ||| y) 0) ((outs.filter (fun r => r.2 / 32 % 2 = 1)).length) acc u))

/-- R272 to R276, R283, R284: the instructions that set a tile's type, the stream format, the weight buffers, the
scales and the biases, with no pass in the array (while one is, they wait: MatrixPasses). -/
def Obligations.MatrixConfiguration : Prop :=
  ∀ (s : State) (t : Tack) (d a : Reg) (m : MemOp) (f : BitVec 3), Ready s t → NoReductions s → s.ownsMatrix = true →
    s.matrix.running = none →
    let mx := discarded s.matrix
    let v := s.x a
    let k := s.rtile d
    let acc := s.myCore.accum k
    let h := s.h m.h
    let off := s.offM m
    let s1 := s.drainCore s.cur.coreK
    let gives (i : Instr) (acc' : Accum) (mx' : Matrix) (mem : Memory) : Prop :=
      ∃ u, exec i s = .next u ∧ MatrixFrame s u s.x 0 k acc' mx' ∧ u.mem = mem
    let array (segs : List (List (Nat × Nat))) (j : Nat) : BitVec 32 :=
      BitVec.ofNat 32 (leNat (((readSegs s1.mem segs.flatten).drop (4 * j)).take 4))
    (s.ownsTile k = true → accType (v.toNat % 32) = true →
      let a1 : Accum := { acc with type := v.toNat % 32 }
      let a2 : Accum := if v.getLsbD 8 then { a1 with statm := [], statl := [], stata := [] } else a1
      gives (.mcfg d a t) (if v.getLsbD 9 then { a2 with ovf := 0 } else a2) mx s.mem) ∧
    (let ty := v.toNat % 32
     let pa := v.toNat / 2 ^ 8 % 16
     matrixType ty = true → pa ≤ opPlies ty →
      gives (.mfmt a t) acc { mx with fmtType := ty, fmtPa := if pa = 0 then opPlies ty else pa } s.mem) ∧
    gives (.mswp t) acc { mx with active := !mx.active } s.mem ∧
    (let cw := s.x d
     let mode := f.toNat
     let pw := latched h.type mode cw
     let nc := if cw.toNat % 2 ^ 10 = 0 then 512 else cw.toNat % 2 ^ 10
     let stack := if pw = 1 then 4 else if pw = 2 then 2 else 1
     let depth := 384 * stack
     let plies := if mode = 2 then [4, 5, 6, 7] else List.range pw
     pw ≠ 0 → cw.toNat % 2 ^ 10 ≤ 512 → (isPB h.type = true → h.e0 = depth) →
      ∀ segs leaf, access s h m.h.toNat off (h.blockWant off (nc * depth) plies [1] true) = some (segs, leaf) →
        let bl := s1.blocks48 (h.view s.cur m.h.toNat) h off 0 (nc * depth) (if mode = 2 then 8 else pw)
        ∃ u b, exec (.mlw d m f t) s = .next u ∧
          MatrixFrame s u s.x 0 k acc (if s.matrix.active then { mx with wb0 := b } else { mx with wb1 := b }) ∧
          b.type = h.type ∧ b.pw = pw ∧ b.mode = mode ∧ b.nc = nc ∧
          (∀ x, Outside x [(wbAddr s.cur.coreK (!s.matrix.active), 512 * 384)] → u.mem.readByte x = s1.mem.readByte x) ∧
          (∀ c blk, c < 512 → blk < 8 * stack → b.scale c blk = (if c < nc then (bl.getD (c * (8 * stack) + blk) (0, [])).1 else 0) ∧
            ∀ j, j < 48 → (u.weights s.cur.coreK (!s.matrix.active) b c blk).getD j 0 = (if c < nc then
              (let w := (bl.getD (c * (8 * stack) + blk) (0, [])).2.getD j 0
               if mode = 2 then w % 256 else w) else 0))) ∧
    (let col := f.getLsbD 0
     let src := f.toNat / 2
     let n := if col then 512 else 256
     let scaled (val : Nat → BitVec 32) (mem : Memory) : Prop :=
      ∃ tab, (∀ i, i < n → Tab.get one32 i tab = val i) ∧
        gives (.mscl d m f t) acc (if col then { mx with colScale := tab } else { mx with rowScale := tab }) mem
     (src = 0 → ∀ segs leaf, access s h m.h.toNat off (h.arrayWant off n) = some (segs, leaf) → scaled (array segs) s1.mem) ∧
     (src = 1 → scaled (fun _ => 0x3F800000) s.mem) ∧
     (col = false → s.ownsTile k = true → src = 2 → scaled (fun i => acc.item 3 i) s.mem) ∧
     (col = false → s.ownsTile k = true → src = 3 → scaled (fun i => BitVec.ofNat 32 (specialFn 2 (acc.item 2 i).toNat).1) s.mem)) ∧
    (∀ segs leaf, access s h m.h.toNat off (h.arrayWant off 512) = some (segs, leaf) →
      ∃ tab, (∀ i, i < 512 → Tab.get 0 i tab = array segs i) ∧ gives (.mbias m t) acc { mx with bias := tab } s1.mem) ∧
    gives (.mbiasClr t) acc { mx with bias := [] } s.mem

/-- R278 to R282: an MMA or MMAZ that passes its checks is put into the array when no pass is in it; MATRIX_PASS_COMPLETE then
leaves in each row the products added in order and completes the instruction; MRSM finishes a recorded pass, .DISCARD drops it.
R276, R277: while a pass of a slot is in the array its M stream may not be chosen, so that its next instruction waits. -/
def Obligations.MatrixPasses : Prop :=
  (∀ (s : State) (p : Place) (ps : Pass) (start : Nat), (s.core p.coreK).matrix.running = some (ps, start) → ps.slot = p.slotK →
    p.stream = 1 → eligible s p = false) ∧
  (∀ (s : State) (t : Tack) (d : Reg) (m : MemOp), Ready s t → NoReductions s → s.ownsMatrix = true → s.ownsTile (s.rtile d) = true →
    s.matrix.running = none → (∀ r, s.matrix.record = some r → r.addr ≠ s.me.pc) →
    let w := rowWord (s.x d)
    let mx := s.matrix
    let h := s.h m.h
    let off := s.offM m
    let ty := s.tileType w.tile
    let b := mx.activeBuf
    h.type = mx.fmtType → (isPB h.type = true → h.e0 = 384 * b.stack) →
    (ty = 0x0B ∨ ty = 2 ∧ isPB mx.fmtType = false ∧ isPB b.type = false ∧ opPlies mx.fmtType ≤ mx.fmtPa) → w.row + w.cnt ≤ 255 →
    ∀ segs leaf, access s h m.h.toNat off (h.blockWant off ((w.cnt + 1) * (384 * b.stack)) (List.range mx.fmtPa) [1] true) = some (segs, leaf) →
      ∀ zero, ∃ u, exec (if zero then .mmaz d m t else .mma d m t) s = .next u ∧ u.me.pc = s.me.pc ∧ (∀ r, u.x r = s.x r) ∧
        u.mem = (s.drainCore s.cur.coreK).mem ∧
        u.matrix.running = some ({ slot := s.cur.slotK, addr := s.me.pc, tack := t, k := 0, tile := w.tile, row := w.row, n := w.cnt + 1
                                   h := h, hidx := m.h.toNat, off := off, type := mx.fmtType, pa := mx.fmtPa, zero := zero }, s.clock) ∧
        u.matrix.record = none) ∧
  (∀ (s : State) (t : Tack) (d : Reg) (m : MemOp) (r : Pass) (zero : Bool), Ready s t → s.ownsMatrix = true → s.ownsTile r.tile = true →
    s.matrix.running = none → s.matrix.record = some r → r.addr = s.me.pc →
    ∃ u, exec (if zero then .mmaz d m t else .mma d m t) s = .next u ∧ u.me.pc = s.me.pc ∧ (∀ q, u.x q = s.x q) ∧ u.mem = s.mem ∧
      u.matrix.running = some ({ r with slot := s.cur.slotK, tack := t }, s.clock) ∧ u.matrix.record = none) ∧
  (∀ (s : State) (tile core start : Nat) (ps : Pass), (s.core (coreKey tile core)).matrix.running = some (ps, start) →
    start + (ps.n - ps.k) * ps.pa + 24 ≤ s.clock → s.dieOn tile = true →
    let k := coreKey tile core
    let p := mPlace ps.slot
    ∃ u, exec (.matrixPassComplete tile core) s = .next u ∧ u.mem = (s.passRows p ps ps.k (ps.n - ps.k)).mem ∧
      (u.core k).matrix = { (s.core k).matrix with running := none } ∧ (u.stream p.streamK).pc = ((s.stream p.streamK).advance 4).pc ∧
      (u.stream p.streamK).x = (s.stream p.streamK).x) ∧
  (∀ (s : State) (p : Place) (ps : Pass) (i : Nat), (s.core p.coreK).matrix.activeBuf.nc ≤ 512 →
    let u := s.passRow p ps i
    u.getRow p.coreK ps.tile (ps.row + i) 32 = passLanes s p ps i ∧
      ∀ a, Outside a (rowRuns p.coreK ps.tile (ps.row + i) 1) → u.mem.readByte a = s.mem.readByte a) ∧
  (∀ (s : State) (t : Tack), Ready s t → s.ownsMatrix = true →
    let acc := s.myCore.accum 0
    let gives (i : Instr) (mem : Memory) : Prop :=
      ∃ u, exec i s = .next u ∧ MatrixFrame s u s.x 0 0 acc { s.matrix with record := none } ∧ u.mem = mem
    (s.matrix.record = none → gives (.mrsm t) s.mem) ∧
    (∀ r, s.matrix.record = some r → s.ownsTile r.tile = true → gives (.mrsm t) (s.passRows s.cur r r.k (r.n - r.k)).mem) ∧
    gives (.mrsmDiscard t) s.mem)

/-- R285 to R287: MDRN writes its rows' outputs and the trailer, counts the saturations, and zeroes the rows where FLG
says so. -/
def Obligations.MatrixDrain : Prop :=
  ∀ (s : State) (t : Tack) (d : Reg) (m : MemOp) (f : BitVec 3), Ready s t → NoReductions s → s.ownsMatrix = true →
    s.ownsTile (s.rtile d) = true → s.cur.wf = true → s.cur.tile < 16 →
    let w := rowWord (s.x d)
    let h := s.h m.h
    let off := s.offM m
    let n := w.cnt + 1
    let tw := typeWidth h.type
    let s1 := s.drainCore s.cur.coreK
    let first := 8 * spaceAddr s.cur 1 h.base + h.intBit off 0
    let stop := spaceAddr s.cur 1 h.base + (h.intBit off 0 + n * 512 * tw + 7) / 8
    let out (i c : Nat) : Nat × Nat × Bool × Bool := drained s1 w h.type f.toNat i c
    let all := (List.range n).flatMap (fun i => (List.range 512).map (fun c => out i c))
    let sats := (all.filter (fun x => x.2.2.1)).length
    let nans := (all.filter (fun x => x.2.2.2)).length
    let fl := (all.map (fun x => x.2.1)).foldl (fun a b => a ||| b) 0
    let acc := s.myCore.accum w.tile
    let ovf := BitVec.ofNat 32 (min (acc.ovf.toNat + sats) (2 ^ 32 - 1))
    f.toNat < 5 → (s.tileType w.tile = 0x0B ∨ s.tileType w.tile = 2) → h.type ∈ [0x0A, 0x08, 0x09, 0x0C, 0x0D, 0x0E, 0, 1, 2] →
    w.row + w.cnt ≤ 255 → ∀ segs leaf, access s h m.h.toNat off (h.drainWant off n) = some (segs, leaf) →
      ∃ u, exec (.mdrn d m f t) s = .next u ∧ MatrixFrame s u s.x (fl ||| (if sats = 0 then 0 else 32)) w.tile { acc with ovf := ovf } (discarded s.matrix) ∧
        (∀ i, i < n → u.mem.readBits (first + i * 512 * tw) (512 * tw) =
          ((List.range 512).map (fun c => (out i c).1)).foldr (fun x rest => rest * 2 ^ tw + x) 0 % 2 ^ (512 * tw)) ∧
        u.mem.readNat stop 4 = ovf.toNat ∧ u.mem.readNat (stop + 4) 4 = sats % 2 ^ 32 ∧ u.mem.readNat (stop + 8) 4 = nans % 2 ^ 32 ∧
        u.mem.readNat (stop + 12) 4 = w.row + w.cnt * 256 + w.tile * 65536 ∧ u.mem.readNat (stop + 16) 48 = 0 ∧
        (∀ a, Outside a ((first / 8, stop + 64 - first / 8) :: (if w.flg / 2 % 2 = 1 then rowRuns s.cur.coreK w.tile w.row n else [])) →
          u.mem.readByte a = s1.mem.readByte a) ∧
        (w.flg / 2 % 2 = 1 → ∀ j, j < 2048 * n → u.mem.readByte (accAddr s.cur.coreK w.tile w.row 0 + j) = 0)

/-- R288 to R291: zeroing, copying and transposing rows of tiles the slot owns, and reading the engine's state. -/
def Obligations.TileHousekeeping : Prop :=
  ∀ (s : State) (t : Tack) (d a : Reg) (b e : Bool) (f : BitVec 3), Ready s t → s.ownsMatrix = true →
    let mx := discarded s.matrix
    let wd := rowWord (s.x d)
    let wa := rowWord (s.x a)
    let k := s.cur.coreK
    let acc := s.myCore.accum wd.tile
    let src := s.myCore.accum wa.tile
    let n := wd.cnt + 1
    let stats (acc' : Accum) (v : Nat → Nat → BitVec 32) : Prop := acc'.type = acc.type ∧ acc'.ovf = acc.ovf ∧
      ∀ j i, j = 1 ∨ j = 2 ∨ j = 3 → acc'.item j i = if b = true ∧ wd.row ≤ i ∧ i < wd.row + n then v j (i - wd.row) else acc.item j i
    (s.ownsTile wd.tile = true → wd.row + wd.cnt ≤ 255 →
      (∃ u acc', exec (.mzro d b t) s = .next u ∧ MatrixFrame s u s.x 0 wd.tile acc' mx ∧ stats acc' (fun j i => ({} : Accum).item j i) ∧
        (∀ j, j < 2048 * n → u.mem.readByte (accAddr k wd.tile wd.row 0 + j) = 0) ∧
        ∀ x, Outside x (rowRuns k wd.tile wd.row n) → u.mem.readByte x = s.mem.readByte x) ∧
      (s.ownsTile wa.tile = true → s.tileW wa.tile = s.tileW wd.tile → wa.row + wd.cnt ≤ 255 →
        ∃ u acc', exec (.movc d a b t) s = .next u ∧ MatrixFrame s u s.x 0 wd.tile acc' mx ∧ stats acc' (fun j i => src.item j (wa.row + i)) ∧
          (∀ j, j < 2048 * n → u.mem.readByte (accAddr k wd.tile wd.row 0 + j) = s.mem.readByte (accAddr k wa.tile wa.row 0 + j)) ∧
          ∀ x, Outside x (rowRuns k wd.tile wd.row n) → u.mem.readByte x = s.mem.readByte x)) ∧
    (s.ownsTile wd.tile = true → s.ownsTile wa.tile = true → s.rwidth d = 32 → s.rwidth a = 32 →
      let so := if b then 256 else 0
      let dO := if e then 256 else 0
      ∃ u, exec (.mtrn d a b e t) s = .next u ∧ MatrixFrame s u s.x 0 wd.tile acc mx ∧
        (∀ i j, i < 256 → j < 256 → u.getLane k wd.tile j 32 (dO + i) = s.getLane k wa.tile i 32 (so + j)) ∧
        (∀ j l, j < 256 → l < 512 → (l < dO ∨ dO + 256 ≤ l) → u.getLane k wd.tile j 32 l = s.getLane k wd.tile j 32 l) ∧
        ∀ x, Outside x (rowRuns k wd.tile 0 256) → u.mem.readByte x = s.mem.readByte x) ∧
    ((f = 3 ∨ f = 4 → s.ownsTile wa.tile = true) →
      let m := s.matrix
      let buf (w : WBuf) (act : Bool) : Nat := w.type + w.pw * 2 ^ 5 + w.mode * 2 ^ 9 + w.nc * 2 ^ 11 + (if act then 2 ^ 21 else 0)
      let v : Word :=
        if f = 0 then BitVec.ofNat 64 (buf m.wb0 (!m.active) + buf m.wb1 m.active * 2 ^ 32)
        else if f = 1 then (match m.record with
          | some r => addr56 r.addr ||| 0x8000000000000000
          | none => 0) ||| (if m.discarded then 0x4000000000000000 else 0)
        else if f = 2 then (match m.record with
          | some r => BitVec.ofNat 64 (r.k + (r.n - 1) * 2 ^ 8 + r.tile * 2 ^ 16 + (if r.zero then 2 ^ 19 else 0))
          | none => 0)
        else if f = 3 ∨ f = 4 then src.ovf.setWidth 64
        else if f = 5 then BitVec.ofNat 64 (((s.auxOf k).mgemv.filter (fun g => decide (g.slot = s.cur.slotK))).length)
        else 0
      ∃ u, exec (.mstat d a f t) s = .next u ∧ u.mem = s.mem ∧
        MatrixFrame s u (s.wrote d v) 0 wa.tile (if f = 4 then { src with ovf := 0 } else src) (if f = 1 then { m with discarded := false } else m))

/-- R292 to R294: an MGEMV is accepted when its core has fewer than four outstanding; MGEMV_COMPLETE leaves the products
in its row; MGWT answers the poison met since the last one. -/
def Obligations.MatrixVectorProducts : Prop :=
  (∀ (s : State) (t : Tack) (d : Reg) (m : MemOp), Ready s t → NoReductions s → s.ownsMatrix = true →
    let g := s.mgemvOf d m
    s.ownsTile g.tile = true → (s.auxOf s.cur.coreK).mgemv.length < 4 → matrixType g.vec.type = true →
    (isPB g.mat.type = true ∨ g.mat.type = 0) → g.n ≤ 512 → g.pa ≤ opPlies g.vec.type → g.pw ≤ opPlies g.mat.type →
    s.tileType g.tile = 0x0B → 2 ≤ g.mat.rank → g.k % 48 = 0 → (g.mat.type = 0 → g.moff % 48 = 0) →
    ∀ segs leaf, access s g.vec g.vidx g.voff g.vecWant = some (segs, leaf) → ∀ segs' leaf', access s g.mat g.midx g.moff g.matWant = some (segs', leaf') →
      ∃ u, exec (.mgemv d m t) s = .next u ∧ u.mem = (s.drainCore s.cur.coreK).mem ∧
        MatrixFrame s u s.x 0 g.tile (s.myCore.accum g.tile) (discarded s.matrix) ∧
        ∃ tc, (u.auxOf s.cur.coreK).mgemv = (s.auxOf s.cur.coreK).mgemv ++ [{ g with tc := tc }]) ∧
  (∀ (s : State) (tile core id : Nat) (g : Mgemv), (s.auxOf (coreKey tile core)).mgemv.find? (fun g => decide (g.id = id)) = some g →
    s.dieOn tile = true → s.poison = [] → (mPlace g.slot).coreK = coreKey tile core → s.coreFull (coreKey tile core) = false →
    let k := coreKey tile core
    let walked := s.setTile tile { s.tile tile with tcache := g.tc ++ (s.tile tile).tcache }
    ∃ u, exec (.mgemvComplete tile core id) s = .next u ∧ u.streams = s.streams ∧
      (g.k % 48 = 0 → u.getRow k g.tile g.row 32 = gemvRow walked (mPlace g.slot) g) ∧
      (∀ a, Outside a (rowRuns k g.tile g.row 1) → u.mem.readByte a = s.mem.readByte a) ∧
      (u.auxOf k).mgemv = (s.auxOf k).mgemv.filter (fun y => decide (y.id ≠ id))) ∧
  (∀ (s : State) (t : Tack) (d : Reg), Ready s t → s.ownsMatrix = true → (∀ g ∈ (s.auxOf s.cur.coreK).mgemv, g.slot ≠ s.cur.slotK) →
    let n := s.mySlot.mgPoison
    ∃ u, exec (.mgwt d t) s = .next u ∧ u.mem = s.mem ∧ u.mySlot.mgPoison = 0 ∧
      Sequential s u 4 (s.wrote d (BitVec.ofNat 64 (n + (if n = 0 then 0 else 2 ^ 63)))) 0)

/-- R55, R362, R364, R368, R449: a synchronous fault or a waiting event of a running slot enters its handler; one that
FRT routes elsewhere freezes the slot. A fault of a management procedure is in the runtime log and enters the thimble core's
firmware at its TVEC, which ends the procedure with 0x100 + code; one in its supervisor mode resets the module. A stream that
stands behind an EXT stops at the EXT, also where the fetch of the word after it faults (log 26, DEDUCED); that the firmware
acts at once, and its TVEC's word is not fetched, is log 81 (DESIGN CHOICE). -/
def Obligations.TakingAnException : Prop :=
  (∀ (s : State) (p : Place) (c : Cause), UserRuns s p →
    let e : Event := { code := c.code, info0 := c.info0, info1 := c.info1, info2 := c.info2, info3 := c.info3 }
    (s.frtDest p.tile c.code = 0 → HandlerLands s p → ∃ u, exec (.syncTrapDelivery p c) s = .next u ∧ EntersHandler s u p false e) ∧
    (s.frtDest p.tile c.code = 2 → ∃ u, exec (.syncTrapDelivery p c) s = .next u ∧ TrapTaken s u p false e ∧ TrapFrame s u p ∧
      (u.slot p.slotK).frozen = true ∧ (u.slot p.slotK).regs.super = false ∧
      u.reports = s.reports ++ [⟨.thimble, { e with stream := p.stream }, p.tile, p.slotK⟩])) ∧
  (∀ (s : State) (tile core slot : Nat) (e : Event) (rest : List Event),
    let p : Place := ⟨tile, core, slot, if e.stream < 5 then e.stream else 0⟩
    p.wf = true → tile < 16 → (s.slot p.slotK).mode = .running → (s.slot p.slotK).frozen = false → (s.slot p.slotK).regs.super = false →
    s.dieOn tile = true → NoPass s p → (s.slot p.slotK).fifo = e :: rest → HandlerLands s p →
    ∃ u, exec (.asyncTrapDelivery tile core slot) s = .next u ∧
      EntersHandler (s.setSlot p.slotK { s.slot p.slotK with fifo := rest }) u p true e) ∧
  (∀ (s : State) (c : Cause), (s.slot 512).mode = .running → (s.slot 512).frozen = false → (s.stream 2560).ended = false →
    let p : Place := ⟨16, 0, 0, 0⟩
    let tepc := if (s.stream 2560).ext.isSome then addr56 ((s.stream 2560).pc - 4) else (s.stream 2560).pc
    ((s.slot 512).regs.super = false → NoPass s p →
      ∃ u, exec (.thimbleTrap c) s = .next u ∧
        TrapTaken s u p false { code := c.code, info0 := c.info0, info1 := c.info1, info2 := c.info2, info3 := c.info3 } ∧
        (u.slot 512).regs.super = true ∧ (u.slot 512).sup.pc = (s.slot 512).regs.tvec ∧ u.hub.log = (c.code, tepc) :: s.hub.log ∧ u.mem = s.mem ∧
        u.turns.head? = some (.due (.firmware (some (0x100 + c.code))))) ∧
    ((s.slot 512).regs.super = true →
      ∃ u, exec (.thimbleTrap c) s = .next u ∧ u.hub.log.map (·.1) = c.code :: s.hub.log.map (·.1) ∧ u.turns.head? = some (.due .moduleReset))) ∧
  (∀ (s : State) (result : Nat), s.pausedOf 16 (((s.slot 512).task.map (·.id)).getD 0) = [] → (s.slot 512).faults = [] → (s.slot 512).delivered = none →
    let u := s.firmware (some result)
    (u.slot 512).mode = .free ∧ (u.slot 512).task = none ∧ u.hub.results = result :: s.hub.results ∧ u.mem = s.mem)

/-- R54, R143, R161 to R163: TRAP and SYSC complete and then enter the handler; the instructions of supervisor mode
raise 0x0D in user mode. CAUX of TRAP and SYSC is imm read as unsigned (log 27, DESIGN CHOICE). -/
def Obligations.SoftwareTrapsAndPrivilege : Prop :=
  (∀ (s : State) (t : Tack) (d : Reg) (imm : BitVec 15), Ready s t → UserRuns s s.cur → s.mySlot.fifo = [] → HandlerLands s s.cur →
    let e (code : Nat) : Event :=
      { code := code, stream := s.cur.stream, info1 := BitVec.ofNat 64 (immOfU s 15 imm % 2 ^ 32 * 2 ^ 32), info2 := s.x d }
    (s.frtDest s.cur.tile 0x12 = 0 → ∃ v u, OnlyStream s v ∧ Sequential s v 4 s.x 0 ∧ exec (.trap d imm t) s = .next u ∧
      EntersHandler v u s.cur true (e 0x12)) ∧
    (s.frtDest s.cur.tile 0x13 = 0 → ∃ v u, OnlyStream s v ∧ Sequential s v 4 s.x 0 ∧ exec (.sysc d imm t) s = .next u ∧
      EntersHandler v u s.cur true (e 0x13))) ∧
  (∀ (s : State) (t : Tack) (d : Reg) (idx : BitVec 12), Ready s t → UserRuns s s.cur → s.me.ext = none → HandlerLands s s.cur →
    s.frtDest s.cur.tile 0x0D = 0 →
    let faults (i : Instr) : Prop := ∃ u, exec i s = .next u ∧ EntersHandler s u s.cur false { code := 0x0D }
    faults (.eret t) ∧ faults (.wfi d t) ∧ (SupervisorOnly idx.toNat → faults (.mfs d idx t) ∧ faults (.mts d idx t)))

/-- R117, R162: ERET to user mode resumes the task where its PC registers say, a stream that the handler moved out of
its block; with an event pending it takes that event, after the moves and before the task issues (R364); with PMODE set the
handler goes on at PCC. R163: WFI ends at once with something pending, and else waits
until an operation has met its mask. -/
def Obligations.ReturnAndWait : Prop :=
  ∀ (s : State) (t : Tack) (d : Reg), Ready s t → s.super = true → s.cur.wf = true → s.mySlot.mode = .trapped →
    let k := s.cur.slotK
    (s.mySlot.regs.fstrm < 5 →
      (s.mySlot.regs.pmode = false → s.mySlot.fifo = [] → s.mySlot.faults = [] → s.mySlot.delivered = none →
        MovesLand k [0, 1, 2, 3, 4] s → ∃ u, exec (.eret t) s = .next u ∧ ResumesTask s u) ∧
      (∀ e rest, s.mySlot.regs.pmode = false → s.mySlot.fifo = e :: rest → s.mySlot.delivered = none → s.cur.tile < 16 →
        s.dieOn s.cur.tile = true → NoPass s s.cur → MovesLand k [0, 1, 2, 3, 4] s →
        let p : Place := { s.cur with stream := if e.stream < 5 then e.stream else 0 }
        ∃ v u, exec (.eret t) s = .next u ∧ ResumesTask s v ∧
          (HandlerLands v p → EntersHandler (v.setSlot k { v.slot k with fifo := rest }) u p true e)) ∧
      (s.mySlot.regs.pmode = true → (s.stream (5 * k)).moved = false →
        ∃ u, exec (.eret t) s = .next u ∧ u.cur = s.cur ∧ u.mySlot.mode = .trapped ∧ u.mySlot.regs = s.mySlot.regs ∧
          u.me.pc = (s.stream (5 * k)).pc ∧ u.me.block = (s.stream (5 * k)).block ∧ (∀ r, u.x r = s.x r) ∧ u.mem = s.mem)) ∧
    (s.mySlot.fifo ≠ [] ∨ s.mySlot.faults ≠ [] ∨ s.mySlot.regs.preq = true ∨ (∃ m, s.me.wait = some (.wfi m true)) → OnlyAdvances (.wfi d t) s 4) ∧
    (s.mySlot.fifo = [] → s.mySlot.faults = [] → s.mySlot.regs.preq = false → s.me.wait = none →
      ∃ u, exec (.wfi d t) s = .next u ∧ OnlyStream s u ∧ (∀ r, u.x r = s.x r) ∧ u.me.pc = s.me.pc ∧ u.me.wait = some (.wfi (s.x d) false))

/-- R32 to R49, R161: MFS reads every register its mode may read, an index with no register as zero. MTS writes the
fields R35 to R46 give, and nothing of a read-only register. -/
def Obligations.SystemRegisters : Prop :=
  ∀ (s : State) (t : Tack) (d : Reg) (idx : BitVec 12), Ready s t → s.cur.wf = true → s.cur.stream = 0 →
    let i := idx.toNat
    let v := s.x d
    let k := s.cur.slotK
    let r := s.mySlot.regs
    let c := s.myCore
    let gives := MtsGives s t d idx
    let regs (r' : TrapRegs) : Prop := gives (fun u => u.mySlot.regs = r' ∧ u.outside = s.outside ∧ ∀ q, u.x q = s.x q)
    let core (c' : Core) : Prop := gives (fun u => u.myCore = c' ∧ u.mySlot.regs = r ∧ ∀ q, u.x q = s.x q)
    (s.super = true ∨ ¬ SupervisorOnly i → WritesReg (.mfs d idx t) s 4 d (sysValue (s.popped t) i)) ∧
    (s.super = true →
      (i = 0x000 → regs { r with fstrm := v.toNat / 4 % 8, pmode := v.getLsbD 1 }) ∧
      (i = 0x001 → regs { r with cause := v.setWidth 32 &&& 0x800000FF }) ∧
      (i = 0x003 → regs { r with tvec := field 1 v }) ∧
      (i = 0x011 → regs { r with htbase := field 6 v }) ∧
      (i = 0x012 → regs { r with htcnt := min 64 (v.toNat % 128) }) ∧
      (i = 0x013 → regs { r with ctxbase := field 12 v }) ∧
      (i = 0x010 → gives (fun u => { u.mySlot.regs with eff := 0 } = { r with cap := v.toNat / 256 % 16, base := v.toNat % 16, eff := 0 } ∧
        u.outside = s.outside ∧ ∀ q, u.x q = s.x q)) ∧
      (∀ f, f < 5 → (i = 0x008 + f ∨ i = 0x002 ∧ r.fstrm = f) → gives (fun u => (u.stream (5 * k + f)).pc = field 1 v ∧
        (u.stream (5 * k + f)).x = (s.stream (5 * k + f)).x ∧ (∀ g, g ≠ f → u.stream (5 * k + g) = s.stream (5 * k + g)) ∧ ∀ q, u.x q = s.x q)) ∧
      (i = 0x018 → core { c with mshare := v.setWidth 32 &&& 0xFFFFF }) ∧
      (i = 0x019 → c.matrix.running = none → (s.auxOf s.cur.coreK).mgemv = [] → core { c with corecfg := v.setWidth 32 &&& 0x3FFFF }) ∧
      (i = 0x01A → core { c with lpcfg := v.setWidth 32 &&& 0xFFFF }) ∧
      (∀ f n, f < 5 → n < 64 → i = 0x400 + 64 * f + n → gives (fun u => ∀ q : Reg, (u.stream (5 * k + f)).getX q =
        if q = BitVec.ofNat 6 n ∧ n ≠ 0 then v else (s.stream (5 * k + f)).getX q)) ∧
      (∀ f, f < 5 → i = 0x540 + 2 * f → gives (fun u => (u.stream (5 * k + f)).fpflags = v.setWidth 32 &&& 0x3F)) ∧
      (∀ f, f < 5 → i = 0x541 + 2 * f → gives (fun u => (u.stream (5 * k + f)).vlen = v.setWidth 32 &&& 0xFFF)) ∧
      ((i ∉ [0x000, 0x001, 0x002, 0x003, 0x008, 0x009, 0x00A, 0x00B, 0x00C, 0x010, 0x011, 0x012, 0x013, 0x018, 0x019, 0x01A, 0x020, 0x021] ∧
        (i < 0x400 ∨ 0x549 < i)) ∨ (i = 0x002 ∧ 5 ≤ r.fstrm) → OnlyAdvances (.mts d idx t) s 4)) ∧
    (i = 0x020 → gives (fun u => u.me.fpflags = v.setWidth 32 &&& 0x3F ∧ ∀ q, u.x q = s.x q)) ∧
    (i = 0x021 → gives (fun u => (u.stream (5 * k)).vlen = v.setWidth 32 &&& 0xFFF ∧ ∀ q, u.x q = s.x q)) ∧
    (s.super = false → ¬ SupervisorOnly i → i ≠ 0x020 → i ≠ 0x021 → OnlyAdvances (.mts d idx t) s 4)

/-- R119, R135, R171, R195, R365, R476: a pending push is made once its channel has room, and not while a trap has stopped its
stream; a stall of 2^24 cycles raises
0x07; a buffered store reaches its home. -/
def Obligations.StallsAndStores : Prop :=
  (∀ (s : State) (p : Place), (s.slot p.slotK).mode = .trapped → s.superAt p = false → exec (.pendingTackPush p) s = .next s) ∧
  (∀ (s : State) (p : Place) (c : Nat), p.wf = true → (s.at p).push = [c] →
    (s.slot p.slotK).mode = .running ∨ (s.slot p.slotK).mode = .trapped ∧ s.superAt p = true → (s.slot p.slotK).frozen = false →
    s.dieOn p.tile = true → (s.slot p.slotK).tackCount c < 16 →
    ∃ u, exec (.pendingTackPush p) s = .next u ∧ (u.at p).push = [] ∧ (u.slot p.slotK).tackCount c = (s.slot p.slotK).tackCount c + 1 ∧
      (∀ d, d ≠ c → (u.slot p.slotK).tackCount d = (s.slot p.slotK).tackCount d) ∧ (u.at p).pc = (s.at p).pc ∧ u.outside = s.outside) ∧
  (∀ (s : State) (p : Place) (since : Nat), UserRuns s p → (s.at p).stalled = some since → since + 2 ^ 24 ≤ s.clock → s.frtDest p.tile 7 = 0 →
    ((s.at p).push = [] → (s.at p).blocked = true → (∃ m i t, (s.at p).wait = some (.rend m i t)) → HandlerLands s p →
      ∃ u, exec (.tackWatchdog p) s = .next u ∧ EntersHandler s u p false { code := 7, info2 := 0x200 }) ∧
    (∀ c rest k, (s.at p).push = c :: rest → (s.slot p.slotK).task = some k → s.findTask k.id = some p.slotK → (s.slot p.slotK).fifo.length < 8 →
      ∃ u, exec (.tackWatchdog p) s = .next u ∧ (u.slot p.slotK).fifo = (s.slot p.slotK).fifo ++ [{ code := 7, stream := p.stream, info2 := BitVec.ofNat 64 c }] ∧
        (u.at p).push = c :: rest ∧ (u.at p).pc = (s.at p).pc)) ∧
  (∀ (s : State) (tile core : Nat) (e : StoreEntry) (rest : List StoreEntry), (s.auxOf (coreKey tile core)).stores = e :: rest →
    ∃ u, exec (.storePerformedAtHome tile core 0) s = .next u ∧ u.mem = s.mem.writeBits e.bit e.width e.value ∧ u.streams = s.streams ∧
      u.slots = s.slots ∧ (u.auxOf (coreKey tile core)).stores = rest)

/-- R297 to R302, R308, R386 to R388: SEND takes a credit and the next flit slot of the stitch for its message, FSIG
starts its signal, FCPY and FRED their copies, on a circuit of the executing tile that is LIVE (or, but for SEND,
MAKING); a SEND without a credit or a free slot, or once an alarm has stopped the fabric (R463), waits. -/
def Obligations.FabricInstructions : Prop :=
  ∀ (s : State) (t : Tack) (a b : Reg) (m : MemOp) (w : MakeWord), Ready s t → s.cur.tile < 16 →
    (let v := (s.x a).toNat
     let c := v % 256
     let ci := s.circ c
     let used := if ci.flitAt = stitchOf s then ci.flitUsed else 0
     TransmitsHere s c w →
      (ci.state = .live → ci.credits ≠ 0 → used < ci.ports.length → s.hub.halted = false →
        (∀ x ∈ ci.transfers, x.place = s.cur → ∀ tile id, x.cargo ≠ .copy tile id) → CircuitBecomes (.sendM a b t) s c
        { ci with credits := ci.credits - 1, seq := ci.seq + 1, flitAt := stitchOf s, flitUsed := used + 1, flitNo := ci.flitNo + 1
                  transfers := ci.transfers ++ [{ cargo := .send { seq := ci.seq, payload := s.x b, tag := v / 256 % 65536, circ := c
                                                                   selfid := (selfIdOf s.module s.cur).toNat }
                                                  place := s.cur, task := s.taskId, phase := s.phaseNo }] }) ∧
      (ci.state = .live → ci.credits = 0 ∨ ci.ports.length ≤ used ∨ s.hub.halted = true → ∃ u, exec (.sendM a b t) s = .next u ∧ OnlyStream s u ∧ (∀ r, u.x r = s.x r) ∧ u.me.pc = s.me.pc) ∧
      (let sel := v / 256 % 512
       (ci.state = .making ∨ ci.state = .live) → (sel < 64 ∨ 256 ≤ sel) → CircuitBecomes (.fsig a b t) s c
        { ci with transfers := ci.transfers ++ [{ cargo := .fsig sel (v / 2 ^ 17 % 8) ((s.x b).setWidth 32)
                                                  place := s.cur, task := s.taskId }] })) ∧
    (∀ pat r segs leaf pages s1, patternAt s m = some (pat, r) → NoReductions s → (s.engine (.tile s.cur.tile)).ops.length < 64 →
      pat.total ≠ 0 → TransmitsHere s pat.circ w → ((s.circ pat.circ).state = .making ∨ (s.circ pat.circ).state = .live) →
      (let d := s.h (BitVec.ofNat 6 pat.dh)
       (s.circ pat.circ).tree = true ∨ d.peer = w.dmod.toNat ∧ d.ptile = w.dtile.toNat) →
      (let src := s.h (BitVec.ofNat 6 pat.sh)
       State.holdPages s.cur src pat.sh pat.width
        (if direct src.space then [] else (List.range pat.total).map (fun k => (s.copyPos (s.newCopy .fcpy pat (some r) 0) k).1)) [] (s.popped t) =
          ((.ok segs leaf, pages), s1)) →
      (pat.fabricBad .fcpy = false → s.copyChecks s.cur m.h.toNat pat (s.copyEnds .fcpy pat) [1, 2, 3, 4] [6] false = none →
        FabricAccepted (.fcpy m t) s .fcpy pat r pages) ∧
      (pat.fabricBad .fred = false → s.copyChecks s.cur m.h.toNat pat (s.copyEnds .fred pat) [1, 2, 3, 4] [6] false = none →
        FabricAccepted (.fred m t) s .fred pat r pages))

/-- R135, R151 to R155, R297 to R302, R308, R381, R383, R454, R466: where each of these forms has its own effect and goes on:
the words, whose stream stands past them with its registers as given, and the events of power and reset. -/
def Obligations.FencesFabricAndPowerComplete : Prop :=
  (∀ (s : State) (t : Tack) (d a b : Reg) (m : MemOp) (scope : BitVec 3), Ready s t → s.cur.wf = true →
    let completes (i : Instr) (x : Reg → Word) : Prop := ∃ u, exec i s = .next u ∧ Sequential s u 4 x 0
    ((∀ e ∈ (s.auxOf s.cur.coreK).stores, e.stream ≠ s.cur.lane) → (∀ e ∈ s.tiles, ∀ r ∈ e.2.reds, r.source ≠ s.cur.streamK) →
      completes (.fence scope t) s.x ∧ completes (.pfenRetain t) s.x) ∧
    completes (.rel scope t) s.x ∧ completes (.acq t) s.x ∧ completes (.acqR d m t) s.x ∧
    (∀ n t', s.me.wait = some (.lining n t') → AtLeast s.myCore.lpseq (BitVec.ofNat 32 n) → completes (.pfenLining t) s.x) ∧
    (∃ v, completes (.linept d t) (s.wrote d v)) ∧ completes (.prio d a t) (s.wrote d (BitVec.ofNat 64 s.mySlot.regs.base)) ∧
    (∀ w : MakeWord,
      (let ci := s.circ ((s.x a).toNat % 256)
       let sel := (s.x a).toNat / 256 % 512
       TransmitsHere s ((s.x a).toNat % 256) w →
       (ci.state = .live → ci.credits ≠ 0 → (if ci.flitAt = stitchOf s then ci.flitUsed else 0) < ci.ports.length → s.hub.halted = false →
        (∀ x ∈ ci.transfers, x.place = s.cur → ∀ tile id, x.cargo ≠ .copy tile id) → completes (.sendM a b t) s.x) ∧
       (ci.state = .making ∨ ci.state = .live → sel < 64 ∨ 256 ≤ sel → completes (.fsig a b t) s.x)) ∧
      (∀ pat r segs leaf pages s1, patternAt s m = some (pat, r) → NoReductions s → (s.engine (.tile s.cur.tile)).ops.length < 64 → s.cur.tile < 16 →
        pat.total ≠ 0 → TransmitsHere s pat.circ w → ((s.circ pat.circ).state = .making ∨ (s.circ pat.circ).state = .live) →
        (let h := s.h (BitVec.ofNat 6 pat.dh)
         (s.circ pat.circ).tree = true ∨ h.peer = w.dmod.toNat ∧ h.ptile = w.dtile.toNat) →
        (let src := s.h (BitVec.ofNat 6 pat.sh)
         State.holdPages s.cur src pat.sh pat.width
          (if direct src.space then [] else (List.range pat.total).map (fun k => (s.copyPos (s.newCopy .fcpy pat (some r) 0) k).1)) [] (s.popped t) =
            ((.ok segs leaf, pages), s1)) →
        (pat.fabricBad .fcpy = false → s.copyChecks s.cur m.h.toNat pat (s.copyEnds .fcpy pat) [1, 2, 3, 4] [6] false = none →
          completes (.fcpy m t) s.x) ∧
        (pat.fabricBad .fred = false → s.copyChecks s.cur m.h.toNat pat (s.copyEnds .fred pat) [1, 2, 3, 4] [6] false = none →
          completes (.fred m t) s.x)))) ∧
  (∀ (s : State) (tile : Nat) (good : Bool) (obs : BootObs),
    (tile < 16 → s.dieOn tile = true → ∃ u, exec (.powerFailDetect tile) s = .next u ∧ (u.tile tile).flushing = true) ∧
    ((s.tile tile).flushing = true → ∃ u, exec (.finalFlushCommit tile good) s = .next u ∧ (u.tile tile).powered = false) ∧
    (tile < 16 → (s.tile tile).powered = false → s.hub.hot = false → s.hub.off = false → bitN s.hub.fenced tile = false →
      ∃ u, exec (.liningResume tile) s = .next u ∧ (u.tile tile).powered = true) ∧
    (∃ u, exec .modulePowerLoss s = .next u ∧ u.hub.off = true) ∧
    (∃ u, exec (.moduleReset obs) s = .next u ∧ u.clock = 0 ∧ u.hub.job = none) ∧
    (∃ u, exec .thermalTrip s = .next u ∧ u.hub.hot = true) ∧
    (s.hub.hot = true → ∃ u, exec .thermalRecovery s = .next u ∧ u.hub.hot = false))

/-- R300, R301, R304 to R306, R308, R387, R389: a message's flit puts it into the queues of the circuit's ends here, and the
message stays on the circuit until its acknowledgement; its delivery claims, writes and publishes a bobbin slot and returns
the credit; signals and far elements that arrive take effect at their tile; a fabric copy whose last acknowledgement has come
ends. The model's own: that a tree message's credit returns with its last leaf here (log 66), that a tree's
acknowledgements wait for each leaf's own stitches (log 77), where a far window's handle places an element (log 9), and the
fields of a poisoned copy's trap (log 37). -/
def Obligations.FabricArrivals : Prop :=
  (∀ (s : State) (c : Nat) (t : Transfer) (m : Message), (s.circ c).state = .live → s.hub.halted = false → (s.circ c).transfers = [t] →
    t.cargo = .send m → t.flits = 0 → s.dieOn t.place.tile = true → (s.nearEnds (s.circ c)).all s.dieOn = true →
    ∃ u, exec (.flitArrival c .arrives) s = .next u ∧ Quiet s u ∧
      (u.circ c).transfers = [{ t with flits := 1, phase := t.phase.or s.phaseNo, acked := some (s.ackStitch c (stitchOf s)) }] ∧
      (u.circ c).queue = (s.circ c).queue ++ (s.nearEnds (s.circ c)).map (fun e => (e, m)) ∧ (u.circ c).credits = (s.circ c).credits) ∧
  (∀ (s : State) (c tile : Nat) (m : Message) (rest : List (Nat × Message)) (w : MakeWord), (s.circ c).queue = (tile, m) :: rest →
    (s.circ c).word = some w → w.rx = false → (∀ e ∈ rest, e.2.seq ≠ m.seq) → s.dieOn tile = true →
    ((s.circ c).tree = true → (s.circEnds (s.circ c)).findIdx (fun e => decide (e = (tile, s.module))) % 8 = stitchOf s % 8) →
    let core := coreKey tile w.rcore.toNat
    let b := s.bobbin core w.rbob.toNat
    let a := sram kScratch core (b.base + b.ssize * (b.claim.toNat % b.scount))
    (b.claim - b.head).toNat < b.scount → s.coreFull core = false →
    ∃ u, exec (.messageDelivery c) s = .next u ∧ StreamsUntouched s u ∧ (u.circ c).queue = rest ∧ (u.circ c).credits = min 16 ((s.circ c).credits + 1) ∧
      (u.bobbin core w.rbob.toNat).claim = b.claim + 1 ∧ u.mem.readNat a 8 = m.payload.toNat ∧ u.mem.readNat (a + 8) 2 = m.tag % 2 ^ 16 ∧
      u.mem.readNat (a + 10) 1 = m.circ % 256 ∧ u.mem.readNat (a + 12) 4 = m.selfid % 2 ^ 32 ∧
      ∀ x, Outside x [(a, 16)] → u.mem.readByte x = s.mem.readByte x) ∧
  (∀ (s : State) (tile core sel : Nat) (v : BitVec 32), (sel < 64 ∨ 256 ≤ sel) → s.dieOn tile = true → NoWaiters s →
    ∃ u, exec (.fsigArrival tile core sel v) s = .next u ∧ Quiet s u ∧ (u.sem tile core sel).v = (s.sem tile core sel).v + v ∧
      (u.sem tile core sel).sig = (s.sem tile core sel).sig) ∧
  (∀ (s s1 : State) (tile sh : Nat) (w : FarWrite) (segs : List (Nat × Nat)), s.dieOn tile = true → w.rop = 0 →
    s.farLoc tile w.ridx (.copyWrite false) true w.bit (typeWidth w.type) = (.ok segs sh, s1) → s1.writeStalls segs = false →
    ∃ u, exec (.fabricWriteArrival tile w) s = .next u ∧ StreamsUntouched s u ∧ u.mem = putBits s.mem segs sh (typeWidth w.type) w.value) ∧
  (∀ (s : State) (tile id r : Nat) (o : CopyOp), s.findOp (.tile tile) id = some o → o.waiting = true → o.pat.total ≤ o.done → o.freed = true →
    o.pat.dvv = true → o.recOff = some r → o.id = id → (o.pat.dvsel < 64 ∨ 256 ≤ o.pat.dvsel) → NoWaiters s →
    s.dieOn tile = true → (∃ e ∈ s.circuits, ∃ t ∈ e.2.transfers, ∃ n, t.cargo = .copy tile id ∧ t.acked = some n ∧ n ≤ stitchOf s) →
    let a := spaceAddr o.place 1 r
    (∀ p k, o.poisonAt = some p → o.pat.zpois = false → s.findTask o.task = some k → s.frtDest tile 5 = 0 → (s.slot k).fifo.length < 8 →
      ∃ u, exec (.fabricCopyComplete tile id) s = .next u ∧ (u.slot k).fifo = (s.slot k).fifo ++ [{
        code := 5, stream := o.place.stream, info0 := p, info1 := BitVec.ofNat 64 (o.pat.circ % 2 ^ 32 * 2 ^ 32)
        info2 := BitVec.ofNat 64 o.done, info3 := BitVec.ofNat 64 (r % 2 ^ 23 + 2 ^ 32) }]) ∧
    (o.poisonAt = none ∨ o.pat.zpois = true → ∃ u, exec (.fabricCopyComplete tile id) s = .next u ∧ StreamsUntouched s u ∧ u.findOp (.tile tile) id = none ∧
      u.mem.readNat (a + 108) 4 = (if o.zeroed = [] then 1 else 3) ∧ u.mem.readNat (a + 112) 4 = o.zeroed.length % 2 ^ 32 ∧
      u.mem.readNat (a + 120) 8 = o.done % 2 ^ 64 ∧
      (∀ x, x < a + 108 ∨ (a + 116 ≤ x ∧ x < a + 120) ∨ a + 128 ≤ x → u.mem.readByte x = s.mem.readByte x) ∧
      (u.sem o.place.tile o.place.core o.pat.dvsel).v = (s.sem o.place.tile o.place.core o.pat.dvsel).v + o.pat.dvinc))

/-- R309 to R316: COLL is accepted with the next ticket; CQRY and CWAIT answer what the tile remembers of a ticket, a
circuit or the phase; CABT ends an operation that is among the tickets remembered as an abort does. The model's own: the
first ticket is 1 (log 62), and CABT ends a ticket that no plan instance has taken up yet (log 80). -/
def Obligations.CollectiveInstructions : Prop :=
  ∀ (s : State) (t : Tack) (d a : Reg) (m : MemOp) (f : BitVec 3), Ready s t →
    let g := s.coll s.cur.tile
    let known (k : Nat) : Option (Nat × Nat) := (g.status.find? (fun e => decide (e.1 = k))).map (fun e => e.2)
    let k := (s.x a).toNat % 2 ^ 32
    (let h := s.h m.h
     let off := s.offM m
     ∀ segs leaf, NoReductions s → g.ops.length < 4 → access s h m.h.toNat off
        { acc := .read, spaces := [1], pr := true, pw := false, typeOk := !isPB h.type, align := 64
          n := if elemUnit h.type then 512 / max 1 (typeWidth h.type) else 64, ranges := [((h.unitByte off).toNat, 64)] } = some (segs, leaf) →
      let r := ((h.base : Int) + h.unitByte off).toNat
      let o := s.collOf (readSegs (s.drainCore s.cur.coreK).mem segs.flatten) r
      s.collChecks m.h.toNat o = none → 2 ≤ o.n → o.sig.count ≠ 0 →
      ∃ u, exec (.coll d m t) s = .next u ∧ Sequential s u 4 (s.wrote d ((g.count + 1).setWidth 64)) 0 ∧
        u.mem = (s.drainCore s.cur.coreK).mem.writeNat (spaceAddr s.cur 1 (r + 44)) 4 0 ∧
        (u.coll s.cur.tile).ops = g.ops ++ [o] ∧ (u.coll s.cur.tile).count = g.count + 1 ∧
        (u.coll s.cur.tile).status = (((g.count + 1).toNat, 0, 0) :: g.status).take 64) ∧
    (let op := g.ops.find? (fun o => decide (o.ticket = k))
     let ci := s.circ ((s.x a).toNat % 256)
     WritesReg (.cqry d a f t) s 4 d (
      if f = 0 then (match known k with
        | none => BitVec.allOnes 64
        | some (1, _) => 2
        | some (15, _) => 3
        | some _ => match op with | some o => if o.bound then 1 else 0 | none => 0)
      else if f = 1 then (match known k with
        | none => BitVec.allOnes 64
        | some (_, n) => BitVec.ofNat 64 (match op with | some o => o.steps | none => n))
      else if f = 2 then BitVec.ofNat 64 ((match ci.state with | .idle => 0 | .making => 1 | .live => 2 | .breaking => 3 | .failed => 4) +
        (if ci.rx then 8 else 0) + (if ci.tree then 16 else 0) + (if ci.state = .live then ci.ports.length else 0) * 256 + ci.cause * 65536)
      else if f = 3 then BitVec.ofNat 64 (match s.seq.phase with
        | none => 0
        | some (start, stop) => if s.clock / 16 + s.jumped = start then (if s.seq.lastEnd = start then start else 0) else stop)
      else 0)) ∧
    (known k = none → WritesReg (.cwait d a t) s 4 d (BitVec.allOnes 64)) ∧
    (∀ st n, st ≠ 0 → known k = some (st, n) → WritesReg (.cwait d a t) s 4 d (BitVec.ofNat 64 st)) ∧
    (∀ n, known k = some (0, n) → ∃ u, exec (.cwait d a t) s = .next u ∧ OnlyStream s u ∧ (∀ r, u.x r = s.x r) ∧ u.me.pc = s.me.pc) ∧
    (known k = none ∨ s.findColl s.cur.tile k = none → OnlyAdvances (.cabt a t) s 4) ∧
    (∀ o, known k ≠ none → s.findColl s.cur.tile k = some o → s.dieOn s.cur.tile = true → Undisturbed s → NoneArmed s o.csel → (∀ e ∈ s.held, e.task ≠ o.task) →
      ∃ u, exec (.cabt a t) s = .next u ∧ Sequential s u 4 s.x 0 ∧ u.findColl s.cur.tile k = none ∧
        u.mem = (s.mem.writeBytes (spaceAddr o.place 1 o.aboff) (o.record 1)).writeNat (spaceAddr o.place 1 (o.recOff + 44)) 4 15)

/-- R98, R312 to R315: a collective that has everything ends with STATUS 1 and its increment; one that is aborted leaves its
abort record, STATUS 0x0F and its increment; a final chunk that arrives is the rank's, and its destination's; a partial that
arrives before its turn in the order of R98 waits in the rank's staging, and changes no value. Each on a tile with power. -/
def Obligations.CollectiveEvents : Prop :=
  ∀ (s : State) (tile ticket : Nat) (o : CollOp), s.findColl tile ticket = some o → NoWaiters s → (o.csel < 64 ∨ 256 ≤ o.csel) →
    s.dieOn tile = true →
    let a := spaceAddr o.place 1 (o.recOff + 44)
    let known (u : State) : Option (Nat × Nat × Nat) := (u.coll tile).status.find? (fun e => decide (e.1 = ticket))
    (o.complete = true → ∃ u, exec (.collectiveComplete tile ticket) s = .next u ∧ StreamsUntouched s u ∧ u.findColl tile ticket = none ∧
      u.mem = s.mem.writeNat a 4 1 ∧ (u.sem tile o.place.core o.csel).v = (s.sem tile o.place.core o.csel).v + o.cinc ∧
      ((known s).isSome → known u = some (ticket, 1, o.steps))) ∧
    (∀ reason, s.frtDest tile 15 = 2 → ∃ u, exec (.collectiveAbort tile ticket reason) s = .next u ∧ StreamsUntouched s u ∧
      u.findColl tile ticket = none ∧ u.mem = (s.mem.writeBytes (spaceAddr o.place 1 o.aboff) (o.record reason)).writeNat a 4 15 ∧
      (u.sem tile o.place.core o.csel).v = (s.sem tile o.place.core o.csel).v + o.cinc ∧ ((known s).isSome → known u = some (ticket, 15, o.steps)) ∧
      u.reports = s.reports ++ [⟨.thimble, { code := 15, stream := o.place.stream, info2 := BitVec.ofNat 64 ticket, info3 := BitVec.ofNat 64 o.aboff }, tile, 0⟩]) ∧
    (∀ (k : Nat) (data : List Byte), k < o.nc → direct o.dst.space = true → s.engineStalls o.place o.dst.space = false →
      (o.bound = true ∨ ((s.coll tile).unbound o.plan).head? = some o) → (o.chunk k).written = false → (o.chunk k).ranks ≠ o.n →
      let n := (o.span k).2
      let at_ := spaceAddr (o.dst.view o.place o.didx).place o.dst.space (o.dst.elemStart (typeWidth o.sig.type) (o.doff + (o.span k).1))
      s.writeStalls [(at_, n * typeWidth o.sig.type / 8)] = false →
      let v := leNat data % 2 ^ (n * typeWidth o.sig.type)
      ∃ u o', exec (.chunkArrival tile ticket k .result data) s = .next u ∧ StreamsUntouched s u ∧ u.findColl tile ticket = some o' ∧ o'.bound = true ∧
        (o'.chunk k).state = 2 ∧ (o'.chunk k).value = v ∧ (o'.chunk k).ranks = o.n ∧ (o'.chunk k).written = o.writes k ∧
        u.mem = (if o.writes k = true ∧ n ≠ 0 then s.mem.writeBytes at_ (leBytes (n * typeWidth o.sig.type / 8) v) else s.mem)) ∧
    (∀ (k f : Nat) (data : List Byte), k < o.nc → o.bound = true → o.awaits k (o.chunk k) f = true → (∀ e ∈ (o.chunk k).parts, e.1 ≠ f) →
      (∀ g, o.nextFrom k (o.chunk k) = some g → g ≠ f ∧ ∀ e ∈ (o.chunk k).parts, e.1 ≠ g) →
      let v := leNat data % 2 ^ ((o.span k).2 * typeWidth o.sig.type)
      ∃ u, exec (.chunkArrival tile ticket k (.sum f) data) s = .next u ∧ Quiet s u ∧
        u.findColl tile ticket = some (o.setChunk k { o.chunk k with parts := (o.chunk k).parts ++ [(f, v)] }))

/-- R323 to R327, R148: XFM is accepted with its engine's next ticket; XWAIT and XQRY answer what the engine remembers;
XABT, of a ticket remembered, and XABT.Q end records with 0x02 or 0x06; SEMS.DISARM cancels what is armed on its semaphore
and sets it. The model's own: the first ticket is 1 (log 62), a record's comparison is latched (log 38), and the running
record counts among those queued (log 84). -/
def Obligations.TransformInstructions : Prop :=
  ∀ (s : State) (t : Tack) (d a : Reg) (m : MemOp) (f : BitVec 3) (e1 : Bool) (sel : BitVec 9), Ready s t →
    let tile := s.cur.tile
    (let e := if e1 then 1 else 0
     let g := s.xfm tile e
     let h := s.h m.h
     let off := s.offM m
     ∀ segs leaf, NoReductions s → g.queue.length < 32 → access s h m.h.toNat off
        { acc := .read, spaces := [1], pr := true, pw := false, typeOk := !isPB h.type, align := 64
          n := if elemUnit h.type then 512 / max 1 (typeWidth h.type) else 64, ranges := [((h.unitByte off).toNat, 64)] } = some (segs, leaf) →
      let r := ((h.base : Int) + h.unitByte off).toNat
      let o := s.xfmOf (readSegs (s.drainCore s.cur.coreK).mem segs.flatten) r (g.accepted + 1).toNat
      let wv := bitN o.wsel 15
      let sv := bitN o.ssel 15
      s.xfmChecks m.h.toNat { o with wsel := o.wsel % 512, ssel := o.ssel % 512 } wv sv = none →
      ∃ u, exec (.xfm d m e1 t) s = .next u ∧
        Sequential s u 4 (s.wrote d (BitVec.ofNat 64 ((g.accepted + 1).toNat + (if e1 then 2 ^ 32 else 0)))) 0 ∧
        u.mem = (s.drainCore s.cur.coreK).mem.writeNat (spaceAddr s.cur 1 r + 44) 4 0 ∧
        (u.xfm tile e).queue = g.queue ++
          [{ o with
             wsel := o.wsel % 512 + (if wv then 2 ^ 15 else 0)
             ssel := o.ssel % 512 + (if sv then 2 ^ 15 else 0)
             passed := !wv || decide (0 ≤ ((s.sem tile s.cur.core (o.wsel % 512)).v - o.wthr).toInt) }] ∧
        (u.xfm tile e).accepted = g.accepted + 1 ∧ (u.xfm tile e).ended = g.ended) ∧
    (let v := (s.x a).toNat
     let e := v / 2 ^ 32 % 2
     let k := v % 2 ^ 32
     let g := s.xfm tile e
     let known := (g.status.find? (fun x => decide (x.1 = k))).map (fun x => x.2)
     (known = none → WritesReg (.xwait d a t) s 4 d (BitVec.allOnes 64)) ∧
     (∀ n, n ≠ 0 → known = some n → WritesReg (.xwait d a t) s 4 d (BitVec.ofNat 64 n)) ∧
     (known = some 0 → ∃ u, exec (.xwait d a t) s = .next u ∧ OnlyStream s u ∧ (∀ r, u.x r = s.x r) ∧ u.me.pc = s.me.pc) ∧
     WritesReg (.xqry d a f t) s 4 d (
       if f = 0 then (match known with | none => BitVec.allOnes 64 | some n => BitVec.ofNat 64 n)
       else if f = 1 then BitVec.ofNat 64 g.queue.length else if f = 2 then g.ended.setWidth 64 else 0) ∧
     (known = none ∨ (∀ o ∈ g.queue, o.ticket ≠ k) → OnlyAdvances (.xabt a t) s 4) ∧
     (∀ o, known ≠ none → g.queue.find? (fun o => decide (o.ticket = k)) = some o → Undisturbed s → NoneArmed s (o.ssel % 512) → ∃ u, exec (.xabt a t) s = .next u ∧
       Sequential s u 4 s.x 0 ∧ (∀ x ∈ (u.xfm tile e).queue, x.ticket ≠ k) ∧ (xfmWords u o).1 = (if o.started then 6 else 2) ∧
       (o.started = false → (xfmWords u o).2 = (0, 0)) ∧
       (bitN o.ssel 15 = true → (u.sem tile o.place.core (o.ssel % 512)).v = (s.sem tile o.place.core (o.ssel % 512)).v + o.sinc)) ∧
     (Undisturbed s → ∃ u, exec (.xabtQ a t) s = .next u ∧ Sequential s u 4 s.x 0 ∧ (u.xfm tile e).queue = [] ∧
       (u.xfm tile e).ended = g.ended + BitVec.ofNat 32 g.queue.length ∧
       ∀ o ∈ g.queue, ∀ x ∈ (u.xfm tile e).status, x.1 = o.ticket → x.2 = 2 ∨ x.2 = 6)) ∧
    (let n := sel.toNat
     Names sel → Undisturbed s → ∃ u, exec (.semsDisarm a sel t) s = .next u ∧ Sequential s u 4 s.x 0 ∧
      semOf u n = { semOf s n with v := (s.x a).setWidth 32 } ∧
      (∀ (q : Place) (thr : BitVec 32) (d' : Reg), q.wf = true → q.tile = tile → (256 ≤ n ∨ q.core = s.cur.core) → q.slotK ≠ s.cur.slotK →
        q.slotK ∈ s.slots.map (fun x => x.1) → (s.slot q.slotK).regs.super = false →
        (s.stream q.streamK).wait = some (.semw n thr d' ⟨false, false⟩) → WaiterEnds s u q d' 1) ∧
      (∀ (q : Place) (win k : Nat) (mask : Word) (thr : BitVec 32) (d' : Reg), q.wf = true → q.tile = tile →
        (256 ≤ n ∨ q.core = s.cur.core) → q.slotK ≠ s.cur.slotK → q.slotK ∈ s.slots.map (fun x => x.1) →
        (s.slot q.slotK).regs.super = false → k < 64 → mask.getLsbD k = true → n = (if win < 4 then k else 256 + 64 * (win - 4) + k) →
        (s.stream q.streamK).wait = some (.semwa win mask thr d' ⟨false, false⟩) → WaiterEnds s u q d' (BitVec.ofNat 64 (256 + k))) ∧
      (∀ e, (e = .tile tile ∨ ∃ c, c < 8 ∧ e = .core tile c) → ∀ o ∈ (u.engine e).ops, ∀ thr, o.armed = some (n, thr) →
        ¬ (256 ≤ n ∨ o.place.core = s.cur.core)) ∧
      ∀ e, e < 2 → ∀ o ∈ (u.xfm tile e).queue, o.started = false → o.passed = false → bitN o.wsel 15 = true → o.wsel % 512 = n →
        ¬ (256 ≤ n ∨ o.place.core = s.cur.core))

/-- R324 to R326: a record starts when its engine reaches it and its comparison holds, or has held since it was accepted
(log 38); it ends with its output written, STATUS, OUTSZ and SATC in its record and its signal sent; poison in its source
ends it with 0x05. The model's own: OUTSZ of TRANSPOSE and CAST counts elements (log 24). -/
def Obligations.TransformRecords : Prop :=
  ∀ (s : State) (tile e : Nat) (o : XfmOp) (rest : List XfmOp), s.dieOn tile = true → (s.xfm tile e).queue = o :: rest →
    (o.started = false → s.engineStalls o.place o.dst.space = false → (bitN o.wsel 15 = false ∨ o.passed = true ∨ AtLeast (s.sem tile o.place.core (o.wsel % 512)).v o.wthr) →
      ∃ u, exec (.xfmRecordStart tile e) s = .next u ∧ Quiet s u ∧ (u.xfm tile e).queue = { o with started := true } :: rest ∧
        u.cores = s.cores) ∧
    (o.started = true → NoWaiters s → (∀ h ∈ s.held, h.task ≠ o.task) →
      let poisoned := (poisonIn s (sideRuns o.place o.src o.sidx o.soff o.units.1)).isSome
      let a := spaceAddr o.place 1 o.recOff
      let src (i : Nat) : Nat := s.mem.readBits (elemAddr o.place o.src o.sidx o.ws o.soff i) o.ws
      let dst (i : Nat) : Nat := elemAddr o.place o.dst o.didx o.wd o.doff i
      ∃ u, exec (.xfmRecordEnd tile e) s = .next u ∧ StreamsUntouched s u ∧
        (u.xfm tile e).queue = rest.filter (fun x => x.ticket ≠ o.ticket) ∧ (u.xfm tile e).ended = (s.xfm tile e).ended + 1 ∧
        (bitN o.ssel 15 = true → (u.sem tile o.place.core (o.ssel % 512)).v = (s.sem tile o.place.core (o.ssel % 512)).v + o.sinc) ∧
        (poisoned = true → (xfmWords u o).1 = 5) ∧
        (poisoned = false →
          (o.opc = 0 → (xfmWords u o).1 = 1 ∨ (xfmWords u o).1 = 3) ∧ (o.opc = 1 → (xfmWords u o).1 = 1 ∨ (xfmWords u o).1 = 12) ∧
          (2 ≤ o.opc → (xfmWords u o).1 = 1) ∧
          (o.opc = 0 → o.p1 % 64 = 0 → (xfmWords u o).2.1 = o.p1 % 2 ^ 32) ∧
          (o.opc = 2 → (xfmWords u o).2 = (o.p0 * o.p1 % 2 ^ 32, 0) ∧
            (o.wd = o.ws → (∀ k, k < o.p0 * o.p1 → dst k + o.wd ≤ 8 * (a + 44) ∨ 8 * (a + 56) ≤ dst k) →
              ∀ i j, i < o.p0 → j < o.p1 → u.mem.readBits (dst (j * o.p0 + i)) o.wd = src (i * o.p1 + j))) ∧
          (o.opc = 5 → (xfmWords u o).2.1 = o.p0 % 2 ^ 32 ∧
            let r (i : Nat) := cvtLane o.src.type o.dst.type (o.mode % 8) (bitN o.mode 3) 0 (src i)
            (xfmWords u o).2.2 = ((List.range o.p0).countP (fun i => bitN (r i).2 5)) % 2 ^ 32 ∧
            ((∀ k, k < o.p0 → dst k + o.wd ≤ 8 * (a + 44) ∨ 8 * (a + 56) ≤ dst k) →
              ∀ i, i < o.p0 → u.mem.readBits (dst i) o.wd = (r i).1 % 2 ^ o.wd))))

/-- R317 to R321, R399: what each word of a circuit program does when the sequencer executes it. The model's own: a word's
row is an event of its own, and PAUSEPT's is a request that stands until the sequencer reaches one (log 18). -/
def Obligations.SequencerWords : Prop :=
  ∀ (s : State), SequencerRuns s →
    let now := stitchOf s
    let after (q : Sequencer) (n : Nat) : State := { s with seq := { q with pc := s.seq.pc + 1, nextAt := now + n } }
    exec .sqAlign s = .next (after { s.seq with aligning := true } 1) ∧
    (∀ n : BitVec 16, s.seq.phase = none →
      exec (.sqPhase n) s = .next (after { s.seq with phase := some (now, now + n.toNat), phases := s.seq.phases + 1 } 1)) ∧
    (∀ (n : BitVec 16) (b e : Nat), s.seq.phase = some (b, e) → ∃ u, exec (.sqPhase n) s = .next u ∧ WordDone s u 1 ∧
      u.seq.phase = some (now, now + n.toNat) ∧ u.seq.lastEnd = now ∧ u.seq.phases = s.seq.phases + 1) ∧
    (∀ w : MakeWord, (s.circ w.circuit.toNat).state = .idle ∨ (s.circ w.circuit.toNat).state = .failed →
      (∃ u, exec (.sqMake w) s = .next u ∧ MakingStarts s u w false) ∧ ∃ u, exec (.sqTree w) s = .next u ∧ MakingStarts s u w true) ∧
    (∀ w : MakeWord, (s.circ w.circuit.toNat).state ≠ .idle → (s.circ w.circuit.toNat).state ≠ .failed →
      ∃ e, e.code = 48 ∧ exec (.sqMake w) s = .next { after s.seq 1 with reports := s.reports ++ [⟨.thimble, e, 16, 0⟩] }) ∧
    (∀ c : BitVec 8, let ci := s.circ c.toNat
      ∃ u, exec (.sqBreak c) s = .next u ∧ WordDone s u 1 ∧ (∀ k, k ≠ c.toNat → u.circ k = s.circ k) ∧
        u.circ c.toNat = (match ci.state with
          | .making | .live => { ci with state := .breaking, since := now, failing := none, transfers := [] }
          | .failed => { ci with state := .idle, slot := false }
          | _ => ci)) ∧
    (∀ r : BitVec 9, ∃ u, exec (.sqPrep r) s = .next u ∧ WordDone s u 1 ∧ Quiet s u ∧ u.circuits = s.circuits ∧
      ∀ a b, (s.routeOf r.toNat).near = [a] → (s.routeOf r.toNat).far = [b] → (s.routeOf r.toNat).kind ≠ 3 → (s.ep a).circ = none →
        (s.ep b).circ = none → (s.ep a).svc = false → (s.ep b).svc = false → s.pairCached a b = false → ∃ x ∈ (u.ep a).training, x.1 = b) ∧
    (∀ n : BitVec 16, exec (.sqWait n) s = .next (after s.seq (max 1 n.toNat))) ∧
    (∀ (sel : BitVec 9) (tile : BitVec 4) (core : BitVec 3) (v : BitVec 32), Names sel → NoWaiters s → s.dieOn tile.toNat = true →
      ∃ u, exec (.sqSigt sel tile core v) s = .next u ∧ WordDone s u 1 ∧ Quiet s u ∧
        (u.sem tile.toNat core.toNat sel.toNat).v = (s.sem tile.toNat core.toNat sel.toNat).v + v) ∧
    (∀ n : BitVec 16, exec (.sqLoop n) s = .next (after { s.seq with loops := (s.seq.pc, n.toNat) :: s.seq.loops } 1)) ∧
    (∀ p n r, s.seq.loops = (p, n) :: r → 1 < n →
      exec .sqNext s = .next { s with seq := { s.seq with pc := p + 1, nextAt := now + 1, loops := (p, n - 1) :: r } }) ∧
    (∀ p n r, s.seq.loops = (p, n) :: r → n ≤ 1 → exec .sqNext s = .next (after { s.seq with loops := r } 1)) ∧
    (∀ (c : BitVec 8) (plan step : BitVec 10), ∃ u, exec (.sqChunk c plan step) s = .next u ∧ WordDone s u 1 ∧ Quiet s u ∧
      let tile := (s.circ c.toNat).owner
      let g := s.coll tile
      let inst := if Tab.get 0 plan.toNat g.words = 0 then Tab.get 0 plan.toNat g.insts else Tab.get 0 plan.toNat g.words
      ∀ o k gather, step ≠ 0 → g.ops.find? (fun x => decide (x.plan = plan.toNat) && x.bound && decide (x.inst = inst)) = some o →
        (s.circ c.toNat).state = .live → o.sends step.toNat = ([k], gather) → (o.chunk k).state ≠ 0 →
        (u.circ c.toNat).transfers = (s.circ c.toNat).transfers ++
          [{ cargo := (let part : ChunkPart := if gather then .result else .sum o.rank
                       .chunk tile o.ticket o.sig o.plan o.inst k part (if o.formed k part then some (o.chunk k).value else none)
                        ((o.span k).2 * typeWidth o.sig.type / 8))
             place := o.place, task := o.task, phase := s.seq.phase.map (fun _ => s.seq.phases) }]) ∧
    ((s.seq.words.getD s.seq.pc 0).toNat % 256 = 9 → s.seq.pc < s.seq.words.length → s.seq.nextAt ≤ now →
      ∃ u, exec .sqPausept s = .next u ∧ WordDone s u 1 ∧ u.seq.paused = true ∧ AllBroken u) ∧
    ((s.seq.words.getD s.seq.pc 0).toNat % 256 ≠ 9 ∨ now < s.seq.nextAt → exec .sqPausept s = .next { s with seq := { s.seq with pauseAsked := true } }) ∧
    (∃ u, exec .sequencerEnd s = .next u ∧ u.seq.running = false ∧ AllBroken u ∧ ∀ c, (u.circ c).slot = false)

/-- R320, R321, R394, R399, R402 to R404: a circuit whose ports all lock is LIVE eight stitches after its word, one that
has failed an order of R403 is FAILED; a break ends two stitches after it; a phase's end breaks its circuits, and leaves a
FAILED one as it is (R407); a pause and ALIGN are released. The model's own: a failed circuit's ports are free at once
(log 65), and the time since which a port sends (log 19). -/
def Obligations.CircuitsInTime : Prop :=
  ∀ (s : State) (c : Nat), let ci := s.circ c
    let now := stitchOf s
    let seen : MakeObs := { nolock := 0, skew := [], far := none, loss := [] }
    (∀ w, ci.state = .making → ci.since + 8 ≤ now → AllLock s c w → ∃ u, exec (.circuitMakeResolve c seen) s = .next u ∧ OnlyCircuit s u c ∧
      u.circ c = { ci with state := .live, obs := none } ∧
      ∀ e, u.ep e = if e ∈ ci.ports.flatMap ((s.routeOf w.route.toNat).ports 1) then { s.ep e with litAt := some ((s.ep e).litAt.getD (s.clock / 16)) } else s.ep e) ∧
    (∀ obs w, ci.state = .making → ci.since + 8 ≤ now → ci.word = some w → ci.found ≠ 0 → ci.transfers = [] →
      ∃ u, exec (.circuitMakeResolve c obs) s = .next u ∧ OnlyCircuit s u c ∧ (u.circ c).state = .failed ∧ (u.circ c).cause = ci.found ∧
        ∀ e, (u.ep e).circ ≠ some c) ∧
    (∀ obs, ci.state = .making → now < ci.since + 8 →
      ∃ u, exec (.circuitMakeResolve c obs) s = .next u ∧ OnlyCircuit s u c ∧ u.circ c = { ci with obs := some obs }) ∧
    (ci.state = .breaking → ci.since + 2 ≤ now → ∃ u, exec (.circuitBreakComplete c) s = .next u ∧ OnlyCircuit s u c ∧
      u.circ c = { ci with state := .idle, ports := [], slot := false } ∧ ∀ e, (u.ep e).circ ≠ some c) ∧
    (∀ b e, s.seq.phase = some (b, e) → e ≤ now → ∃ u, exec .phaseEnd s = .next u ∧ u.seq.phase = none ∧ u.seq.lastEnd = now ∧
      (∀ w, ci.state = .live → ci.word = some w → (w.span = false ∧ ci.phase = some s.seq.phases ∨
          ∃ t ∈ ci.transfers, t.phase = some s.seq.phases) → (u.circ c).state = .breaking ∧ (u.circ c).transfers = []) ∧
      (∀ w, ci.word = some w → w.span = true → (∀ t ∈ ci.transfers, t.phase ≠ some s.seq.phases) → u.circ c = ci) ∧
      (ci.state = .failed → u.circ c = ci)) ∧
    (s.seq.paused = true → exec .pauseResume s = .next { s with seq := { s.seq with paused := false, nextAt := now + 1 } }) ∧
    (∀ high j, s.hub.job = some j → j.started = false → s.seq.aligning = true →
      ((∀ m, m < 64 → m ≠ s.module → bitN j.mask m = false) ∨ ∃ e ∈ s.links, (s.link e.1).service.isSome = true ∧ (s.link e.1).trust = 1) →
      ∃ u, exec (.alignRelease high) s = .next u ∧
      stitchOf u = max ((high + 12500 + 1023) / 1024 * 1024) now ∧ u.clock = s.clock ∧ u.hub.job = some { j with started := true } ∧
      ∀ t ∈ j.tiles, (s.tile t).walker.gen < (u.tile t).walker.gen ∧ (u.tile t).walker.run = true)

/-- R393, R395 to R397, R406, R407, R425: a lost wavelength or source leaves its circuits; the spare wavelength and the spare
source take over where the event goes to the sequencer, and trainings of the port's pairs begin again; a peer's switch leaves
no entry of the ports it feeds; bring-up and full training end with the port READY, or go on to the next try, or leave it DOWN. -/
def Obligations.OpticalLossAndTraining : Prop :=
  ∀ (s : State), (∀ e wl rx, wl ≤ 8 → e < 1344 → ∃ u, exec (.lossOfLock e wl rx) s = .next u ∧ OpticsOnly s u ∧
      (u.ep e).failwl = Nat.lor (s.ep e).failwl (2 ^ wl) ∧ (u.ep e).circ = none ∧ bitN (u.ep e).locked wl = false ∧
      ∀ c w, (s.ep e).circ = some c → (s.circ c).word = some w → (s.circ c).state = .live → (s.circ c).failing = none →
        ((s.circ c).ports.filter (fun i => !((s.routeOf w.route.toNat).ports (s.leafCount w (s.circ c).tree) i).contains e)).length < (s.circ c).minw →
        (u.circ c).failing = some 0x21) ∧
    (∀ e wl, let p := s.ep e
      p.sv = false → wl < 8 → bitN p.failwl wl = true → s.frtDest (if e < 768 then e / 48 else 0) 0x21 = 4 → ∃ u, exec (.spareWavelengthMapping e wl) s = .next u ∧ OpticsOnly s u ∧
        (u.ep e).sv = true ∧ (u.ep e).spare = wl ∧ (u.ep e).cache = [] ∧ (u.ep e).state = 1 ∧ (u.ep e).circ = none ∧
        (p.circ = none → u.circuits = s.circuits ∧ ∀ k, k ≠ e →
          u.ep k = { s.ep k with
            cache := if k < 768 then (s.ep k).cache.filter (fun x => decide (x ≠ e)) else (s.ep k).cache
            training := (s.ep k).training.map (fun t => if t.1 = e then (t.1, false, t.2.2) else t) })) ∧
    (∀ j, j < 52 → ∃ u, exec (.sourceFailure j) s = .next u ∧ OpticsOnly s u ∧ (u.laser j).state = 2 ∧ (u.laser j).power = 0 ∧
      ∀ e ∈ s.fedBy j, (u.ep e).circ = none) ∧
    (∀ j, j < 48 → (s.laser j).state = 2 → (s.laser (48 + j / 12)).state = 3 → s.frtDest 0 0x20 = 4 →
      ∃ u, exec (.spareSourceSwitch (.here j)) s = .next u ∧
      OpticsOnly s u ∧ (u.laser (48 + j / 12)).state = 1 ∧ (u.laser j).subst = some (48 + j / 12) ∧
      ∀ e ∈ s.fedBy j, (u.ep e).src = some (48 + j / 12) ∧ (u.ep e).cache = [] ∧ (u.ep e).state = 1) ∧
    (∀ m j, ∃ u, exec (.spareSourceSwitch (.peer m j)) s = .next u ∧ OpticsOnly s u ∧
      ∀ e, 768 ≤ e → (s.ep e).peermod = m → (s.ep e).peerep / 28 = j → (u.ep e).cache = [] ∧ (u.ep e).circ = none) ∧
    (∀ near far prep r, (s.ep near).cmd = none → (s.ep near).training = (far, false, prep) :: r →
      (∃ u, exec (.fastBringupEnd near far true) s = .next u ∧ OpticsOnly s u ∧ (u.ep near).state = 2 ∧ (u.ep near).training = r ∧
        (∀ w, w < 8 → bitN (s.ep near).failwl w = false → bitN (u.ep near).locked w = true ∧ bitN (u.ep near).trained w = true) ∧
        (near < 768 → far < 2048 → far ≠ near → ∃ c, (u.ep near).cache = far :: c)) ∧
      ∃ u, exec (.fastBringupEnd near far false) s = .next u ∧ OpticsOnly s u ∧ (u.ep near).training = (far, true, prep) :: r ∧
        (u.ep near).cache = [] ∧ (u.ep near).state = 1) ∧
    (∀ near far wlm, (s.ep near).cmd = some (3, wlm, far) →
      (∃ u, exec (.fastBringupEnd near far true) s = .next u ∧ OpticsOnly s u ∧ (u.ep near).state = 2 ∧ (u.ep near).cmd = none ∧
        (u.ep near).fail = false) ∧
      ∃ u, exec (.fastBringupEnd near far false) s = .next u ∧ u.ep near = { s.ep near with cmd := none, fail := true }) ∧
    (∀ near far prep r, (s.ep near).training = (far, true, prep) :: r →
      (∃ u, exec (.fullTrainingEnd near far true) s = .next u ∧ OpticsOnly s u ∧ (u.ep near).state = 2 ∧ (u.ep near).training = r) ∧
      ∃ u, exec (.fullTrainingEnd near far false) s = .next u ∧ OpticsOnly s u ∧ (u.ep near).state = 3 ∧ (u.ep near).training = r)

/-- R391, R392, R467 to R469, R472: the port and source control rows. -/
def Obligations.PortAndSourceControls : Prop :=
  ∀ (s : State) (e j : Nat) (v : Word), let p := s.ep e
    let l := s.laser j
    (e < 1344 → ∃ u, exec (.wlmapWrite e v) s = .next u ∧ OpticsOnly s u ∧ (u.ep e).sv = v.getLsbD 4 ∧ (u.ep e).spare = v.toNat % 8 ∧
      (u.ep e).cache = [] ∧ (u.ep e).circ = none ∧ (u.ep e).cmd = none ∧ ∀ k, k ≠ e → k < 768 → e ∉ (u.ep k).cache) ∧
    (j < 52 → l.en = false → v.getLsbD 16 = true → ∃ u, exec (.laserctlWrite j v) s = .next u ∧ OpticsOnly s u ∧ (u.laser j).en = true ∧
      (u.laser j).pset = v.toNat % 256 ∧ (u.laser j).state = l.state) ∧
    (j < 52 → l.en = true → v.getLsbD 16 = false → ∃ u, exec (.laserctlWrite j v) s = .next u ∧ OpticsOnly s u ∧ (u.laser j).en = false ∧
      (u.laser j).state = 0 ∧ (u.laser j).power = 0 ∧ ∀ x ∈ s.fedBy j, (u.ep x).circ = none) ∧
    (l.en = true → l.state = 0 ∨ l.state = 2 →
      (∃ u, exec (.laserLockEnd j false) s = .next u ∧ OpticsOnly s u ∧ u.laser j = { l with state := 2 }) ∧
      (j < 48 → ∃ u, exec (.laserLockEnd j true) s = .next u ∧ OpticsOnly s u ∧ u.laser j = { l with state := 1, power := l.pset }) ∧
      (48 ≤ j → l.repl = 63 → ∃ u, exec (.laserLockEnd j true) s = .next u ∧ OpticsOnly s u ∧
        u.laser j = { l with state := if l.subst.isSome then 1 else 3, power := l.pset })) ∧
    (l.en = true → l.state = 1 → (∀ t, t < 16 → s.dieOn t = true) → ∃ u, exec (.laserPowerControl j) s = .next u ∧ OpticsOnly s u ∧
      u.laser j = { l with power := if l.power < l.pset then l.power + 1 else if l.pset < l.power then l.power - 1 else l.power }) ∧
    exec (.ringThermalLock e) s = .next s ∧
    (∀ wlm farep, e < 1344 → p.circ = none → p.svc = false →
      (p.cmd = none → p.training = [] → ∃ u, exec (.pbLock e wlm) s = .next u ∧ OpticsOnly s u ∧
        u.ep e = { p with state := 1, cmd := some (1, wlm % 512, 0), fail := false }) ∧
      (p.cmd = none → p.training = [] → (768 ≤ e ∨ farep < 768 ∧ (s.ep farep).circ = none) →
        (∃ u, exec (.pbTrain e wlm farep) s = .next u ∧ OpticsOnly s u ∧ u.ep e = { p with cmd := some (2, wlm % 512, farep), fail := false }) ∧
        ∃ u, exec (.pbFast e wlm farep) s = .next u ∧ OpticsOnly s u ∧ u.ep e = { p with cmd := some (3, wlm % 512, farep), fail := false }) ∧
      ∃ u, exec (.pbAbort e) s = .next u ∧ OpticsOnly s u ∧ u.ep e = { p with cmd := none, locked := 0, trained := 0, state := 0, training := [] }) ∧
    (∀ wlm farep, e < 1344 → p.cmd ≠ none ∨ p.training ≠ [] → ∀ i, i = .pbLock e wlm ∨ i = .pbTrain e wlm farep ∨ i = .pbFast e wlm farep →
        ∃ u, exec i s = .next u ∧ OpticsOnly s u ∧ u.ep e = { p with err := true }) ∧
    (∀ wlm farep, e < 1344 → p.circ.isSome = true ∨ p.svc = true →
      ∀ i, i = .pbLock e wlm ∨ i = .pbTrain e wlm farep ∨ i = .pbFast e wlm farep ∨ i = .pbAbort e →
        ∃ u, exec i s = .next u ∧ OpticsOnly s u ∧ u.ep e = { p with err := true }) ∧
    (∀ wlm x failed, p.cmd = some (1, wlm, x) → ∃ u, exec (.lockEnd e failed) s = .next u ∧ OpticsOnly s u ∧ (u.ep e).cmd = none ∧
      ∀ w, w < 9 → bitN (u.ep e).locked w = (if bitN wlm w then !bitN failed w else bitN p.locked w) ∧
        bitN (u.ep e).failwl w = (bitN p.failwl w || (bitN wlm w && bitN failed w))) ∧
    (∀ wlm farep obs, p.cmd = some (2, wlm, farep) → ∃ u, exec (.trainEnd e obs) s = .next u ∧ OpticsOnly s u ∧ (u.ep e).cmd = none ∧
      (∀ w, w < 9 → bitN (u.ep e).trained w = (if bitN wlm w then !bitN obs.failed w && bitN p.locked w else bitN p.trained w)) ∧
      (∀ pe m d, obs.peer = some (pe, m, d) → 768 ≤ e →
        (u.ep e).peerep = pe % 2 ^ 11 ∧ (u.ep e).peermod = m % 64 ∧ (u.ep e).flight = d % 256) ∧
      (u.ep e).state = (if (u.ep e).lanes (fun w => bitN (u.ep e).trained w) then 2 else 3))

/-- R417 to R420, R463, R472, R473: peers, keys and service circuits; alarms; the background activities. -/
def Obligations.PeersAlarmsAndBackground : Prop :=
  ∀ (s : State) (peer : Nat), let l := s.link peer
    let now := s.clock / 16
    (∃ u, exec (.peerReset peer) s = .next u ∧ HubOnly s u ∧ u.link peer = { l with trust := 0, digest := 0, keys := false } ∧
      (∀ e, 768 ≤ e → (s.ep e).peermod = peer → (u.ep e).cache = []) ∧
      ∀ c w, (s.circ c).state = .live → (s.circ c).word = some w → peer ∈ s.peersOf w (s.circ c).tree → (u.circ c).failing = some 0x2D) ∧
    (∀ m digest, l.trust = 2 →
      (PeerPasses s.hub.sec m → ∃ u, exec (.measurementEnd peer m digest) s = .next u ∧ HubOnly s u ∧ u.link peer = { l with trust := 1, digest := digest, keys := true }) ∧
      (¬ PeerPasses s.hub.sec m → ∃ u, exec (.measurementEnd peer m digest) s = .next u ∧ HubOnly s u ∧
        u.link peer = { l with trust := 3, digest := digest })) ∧
    (s.hub.halted = false → l.keys = true → l.service.isSome = true → ∃ u, exec (.keyUpdate peer) s = .next u ∧ HubOnly s u ∧
      u.link peer = { l with phase := !l.phase, oldUntil := some (now + 1024) }) ∧
    (∀ n, l.oldUntil = some n → n ≤ now → ∃ u, exec (.keyPhaseWindowEnd peer) s = .next u ∧ HubOnly s u ∧ u.link peer = { l with oldUntil := none }) ∧
    (∃ u, exec (.serviceCircuitRemake peer) s = .next u ∧ HubOnly s u ∧ u.hub.log = (0x09, BitVec.ofNat 64 peer) :: s.hub.log ∧
      (∀ e, l.service = some e → (u.ep e).svc = false ∧ (u.link peer).service ≠ some e) ∧
      (∀ e, (u.link peer).service = some e → (u.ep e).svc = true ∧ e ∈ s.serviceCandidates peer) ∧
      (s.hub.halted = true → (u.link peer).service = none) ∧
      (s.hub.halted = false → (∃ e ∈ s.serviceCandidates peer, l.service ≠ some e) → (u.link peer).service.isSome)) ∧
    (∀ sensor, sensor < 6 → let level := max 1 (s.hub.levels / 4 ^ sensor % 4)
      ∃ u, exec (.alarmTrip sensor) s = .next u ∧ HubOnly s u ∧ bitN u.hub.seen sensor = true ∧ u.hub.maxl = max s.hub.maxl level ∧
        u.hub.halted = (s.hub.halted || decide (2 ≤ level)) ∧ (2 ≤ level → u.hub.alarm = some (max level (s.hub.alarm.getD 0)) ∧ ∀ m, (u.link m).keys = false)) ∧
    (∀ tile bank core, exec (.hbmRefresh tile bank) s = .next s ∧ exec (.mramScrub tile core) s = .next s) ∧
    exec .telemetrySampling s = .next s ∧
    (∀ tile g, tile < 16 → s.dieOn tile = true → exec (.patrolScrub tile g .clean) s = .next s ∧
      (∃ u, exec (.patrolScrub tile g .corrected) s = .next u ∧ HubOnly s u ∧
        (u.tile tile).cor = (if (s.tile tile).cor = BitVec.allOnes 32 then BitVec.allOnes 32 else (s.tile tile).cor + 1) ∧ u.poison = s.poison) ∧
      ∃ u, exec (.patrolScrub tile g .uncorrectable) s = .next u ∧ HubOnly s u ∧
        (u.tile tile).unc = (if (s.tile tile).unc = BitVec.allOnes 32 then BitVec.allOnes 32 else (s.tile tile).unc + 1) ∧
        (∀ x, x ∈ u.poison ↔ x = tile * 2 ^ 30 + g % 10 ^ 9 ∨ x ∈ s.poison))

/-- R57, R352, R355 to R358: START reads the records and asks for a lining point of every core; the first ready record's
next iteration starts on the lowest slot that can take it; STOP stops the walker. -/
def Obligations.WalkerRuns : Prop :=
  ∀ (s : State) (tile : Nat), let w := (s.tile tile).walker
    (tile < 16 → ∃ u, exec (.wStart tile) s = .next u ∧ Quiet s u ∧ (u.tile tile).walker.run = true ∧ (u.tile tile).walker.gen = w.gen + 1 ∧
      (u.tile tile).walker.base = w.base ∧ (u.tile tile).walker.cnt = w.cnt ∧
      (∀ c, c < 8 → (u.auxOf (8 * tile + c)).liningAsked = true) ∧
      (w.cnt = 0 → (u.tile tile).walker.recs = [] ∧ (u.tile tile).walker.done = true) ∧
      ∀ segs leaf s1, w.cnt = 1 → State.xlate tile (2 ^ 21) .read true 2 s (w.base.toNat % 2 ^ 56) 256 = (.ok segs leaf, s1) →
        poisonIn s1 segs = none →
        (u.tile tile).walker.recs = (if recValid (readSegs s.mem segs) then [walkRecOf 0 (readSegs s.mem segs)] else [])) ∧
    (tile < 16 → ∃ u, exec (.wStop tile) s = .next u ∧ Quiet s u ∧ (u.tile tile).walker = { w with run := false } ∧ u.slots = s.slots ∧
      u.turns = s.turns) ∧
    (∀ r k, w.run = true → s.dieOn tile = true → s.startHeld tile = false → w.recs = [r] → r.bad = false → r.next < r.total →
      s.iterReady tile r = true → s.slotFor tile r.cmask = some k → ∃ u, exec (.walkerIterationStart tile) s = .next u ∧ TaskStarts u k r ∧
        (u.slot k).mode = .running ∧ (u.slot k).handles = [] ∧ (u.slot k).fifo = [] ∧ (∀ c, (u.slot k).tackCount c = 0) ∧
        (u.slot k).regs.base = min r.prio (s.slot k).regs.cap ∧
        (u.slot k).task = some { id := s.tasks + 1, tile := tile, recIdx := r.index, iter := r.next, gen := w.gen, done := r.done } ∧
        (u.tile tile).walker = { w with recs := [{ r with next := r.next + 1 }] } ∧
        (∀ k', k' / 5 ≠ k → u.stream k' = s.stream k') ∧ ∀ a, u.mem.readByte a = s.mem.readByte a)

/-- R368, R371 to R375: PREEMPT, its halt and the save of the context; RESUME loads a context that is held, into a slot
that can take it; ENTER enters a frozen slot's handler and KILL ends its task; a command that may not act sets CMDERR. The
model's own: the records of a context from byte 0xE00 on, the task's number first (log 10). -/
def Obligations.PreemptionAndSettling : Prop :=
  ∀ (s : State) (tile core slot arg : Nat), tile < 16 → core < 8 → slot < 4 →
    let k := slotOf tile core slot
    let sl := s.slot k
    let hd := (s.ctxRead tile (arg % 2 ^ 44 * 4096) 64).getD []
    (sl.mode = .running → heldHeader ((s.ctxRead tile (areaOf s k arg).toNat 64).getD []) = false →
      ∃ u, exec (.wPreempt tile core slot arg) s = .next u ∧ Quiet s u ∧ u.slot k = { sl with regs := { sl.regs with ctxbase := areaOf s k arg, preq := true } } ∧
        Tab.get 0 k u.hub.preempts = areaOf s k arg) ∧
    (sl.mode = .running → heldHeader ((s.ctxRead tile (areaOf s k arg).toNat 64).getD []) = true →
      ∃ u, exec (.wPreempt tile core slot arg) s = .next u ∧ Quiet s u ∧ u.slots = s.slots ∧ (u.tile tile).walker.cmderr = true) ∧
    (sl.mode = .free → exec (.wPreempt tile core slot arg) s = .next s) ∧
    (sl.regs.preq = true → sl.mode = .running ∨ sl.mode = .trapped → s.dieOn tile = true → NoPass s ⟨tile, core, slot, 0⟩ →
      ∃ u, exec (.preemptHalt tile core slot) s = .next u ∧ StreamsStop s u k ∧ (u.slot k).mode = .preempted ∧ (u.slot k).psave = false ∧
        (u.slot k).halted = some (stitchOf s, decide (sl.mode = .trapped)) ∧ (u.slot k).regs.preq = false ∧ (u.slot k).handles = sl.handles ∧
        (u.slot k).task = sl.task ∧ ∀ a, u.mem.readByte a = s.mem.readByte a) ∧
    (∀ t segs leaf s1, sl.mode = .preempted → sl.psave = false → s.dieOn tile = true → sl.task = some t →
      (∀ e ∈ s.tiles, ∀ r ∈ e.2.reds, r.source / 20 ≠ 8 * tile + core) →
      State.areaWrite tile sl.regs.ctxbase.toNat ((s.drainCore (8 * tile + core)).contextRuns k) (s.drainCore (8 * tile + core)) = (.ok segs leaf, s1) →
      ∃ u, exec (.contextSaveComplete tile core slot) s = .next u ∧ StreamsUntouched s u ∧ (u.slot k).psave = true ∧ (u.slot k).mode = .preempted ∧
        u.mem = s1.mem ∧ (u.slot k).fifo = [] ∧ (u.slot k).mgemv = [] ∧ ⟨t.id, tile, sl.regs.ctxbase⟩ ∈ u.held) ∧
    (∀ body mx acc segs leaf s1, heldHeader hd = true → s.available k = true → s.savingInto tile (arg % 2 ^ 44 * 4096) = false → ctxField hd 24 1 = 4 → ctxField hd 25 1 = 0 → ctxField hd 12 4 = 0 →
      s.readContext tile (arg % 2 ^ 44 * 4096) hd = some (body, mx, acc) →
      State.areaWrite tile (arg % 2 ^ 44 * 4096) [(24, leBytes 1 0)] s = (.ok segs leaf, s1) → s.pausedOf tile (ctxField (body.drop 0xE00) 0 8) = [] → s.frtDest tile 0x11 = 5 →
      ∃ u, exec (.wResume tile core slot arg) s = .next u ∧ (u.slot k).mode = .running ∧ (u.slot k).psave = false ∧
        (∃ t, (u.slot k).task = some t ∧ t.id = ctxField (body.drop 0xE00) 0 8 ∧ t.tile = tile) ∧ u.mem = s1.mem ∧
        ∀ f, f < 5 → (u.stream (5 * k + f)).pc = BitVec.ofNat 64 (ctxField body (0x300 + 0x240 * f) 8 % 2 ^ 56 / 2 * 2) ∧
          ∀ r : Reg, r ≠ 0 → (u.stream (5 * k + f)).getX r = BitVec.ofNat 64 (ctxField body (0x100 + 0x240 * f + 8 * r.toNat) 8)) ∧
    (heldHeader hd = false ∨ s.available k = false ∨ s.savingInto tile (arg % 2 ^ 44 * 4096) = true → ∃ u, exec (.wResume tile core slot arg) s = .next u ∧ Quiet s u ∧ u.slots = s.slots ∧
      (u.tile tile).walker.cmderr = true) ∧
    (sl.mode = .trapped → sl.frozen = true → HandlerLands s ⟨tile, core, slot, 0⟩ → ∃ u, exec (.wEnter tile core slot) s = .next u ∧
      Quiet s u ∧ (u.slot k).mode = .trapped ∧ (u.slot k).frozen = false ∧ (u.slot k).regs.super = true ∧ (u.slot k).sup.pc = sl.regs.tvec ∧
      (u.slot k).sup.x = sl.sup.x) ∧
    (sl.mode = .trapped → sl.frozen = true → ∃ u, exec (.wKill tile core slot) s = .next u ∧ (u.slot k).mode = .free ∧ (u.slot k).task = none ∧
      ∀ f, f < 5 → (u.stream (5 * k + f)).ended = true) ∧
    (¬ (sl.mode = .trapped ∧ sl.frozen = true) → ∀ i, i = .wEnter tile core slot ∨ i = .wKill tile core slot →
      ∃ u, exec i s = .next u ∧ Quiet s u ∧ u.slots = s.slots ∧ (u.tile tile).walker.cmderr = true)

/-- R44, R378 to R380, R458: the periodic timer asks for a lining point; a point is captured with the number its commit will
carry, drained, and committed once every block is written; none before the first launch after a boot. The model's own: what
counts as a dirty block, and the order in which they are drained (log 36). -/
def Obligations.LiningPoints : Prop :=
  ∀ (s : State) (tile core : Nat), let k := 8 * tile + core
    let x := s.auxOf k
    let l := liningOf s tile core
    let period := (s.core k).lpcfg.toNat % 65536
    (period ≠ 0 → s.dieOn tile = true → s.hub.fresh = false → x.timer + 2000 * period ≤ s.clock → ∃ u, exec (.periodicLiningTimer tile core) s = .next u ∧ Quiet s u ∧
      (u.auxOf k).liningAsked = true ∧ (u.auxOf k).timer = s.clock ∧ u.linings = s.linings) ∧
    (period = 0 ∨ s.hub.fresh = true ∨ s.clock < x.timer + 2000 * period → exec (.periodicLiningTimer tile core) s = .next s) ∧
    (s.hub.fresh = true → exec (.liningCapture tile core) s = .next s) ∧
    (x.liningAsked = true → l.drain = none → s.dieOn tile = true → s.hub.fresh = false → (s.core k).matrix.running = none →
      (∀ e ∈ s.tiles, ∀ r ∈ e.2.reds, r.source / 20 ≠ k) →
      ∃ u p, exec (.liningCapture tile core) s = .next u ∧ StreamsUntouched s u ∧ u.mem = (s.drainCore k).mem ∧ (u.auxOf k).liningAsked = false ∧
        (u.auxOf k).stores = [] ∧ (liningOf u tile core).drain = some p ∧ p.seq = (s.core k).lpseq + 1 ∧ p.stitch = stitchOf s ∧ p.core = s.core k ∧
        p.mem = u.mem.filter (fun c => inWindows (coreWindows k) c.1) ∧ (liningOf u tile core).shared.isSome = true ∧
        (liningOf u tile core).left = u.dirtyCore k ++ u.dirtyTile tile ∧
        (liningOf u tile core).places = l.places ∧ u.cores = s.cores) ∧
    (∀ n, (s.tile tile).powered = true → ∃ u, exec (.liningWriterDrain tile core n) s = .next u ∧ Quiet s u ∧
      liningOf u tile core = (if l.drain.isSome then { l with
          left := l.left.filter (fun b => !(l.left.take n).contains b)
          work := ((l.left.take n).filter (fun b => !blockShared b)).foldl (spliceBlock ((l.drain.map (fun p => p.mem)).getD [])) l.work }
        else { l with work := ((s.dirtyCore k).take n).foldl (spliceBlock (s.mem.filter (fun c => inWindows (coreWindows k) c.1))) l.work }) ∧
      ∀ c, c ≠ core → c < 8 → core < 8 → liningOf u tile c = liningOf s tile c) ∧
    (∀ p, l.drain = some p → l.left = [] → s.dieOn tile = true → NewerThan p.seq l.places →
      NewerThan ((s.tile tile).tseq + 1) (sharedOf s tile).places → ∃ u, exec (.liningCommit tile core) s = .next u ∧ Quiet s u ∧
      (liningOf u tile core).committed = some p ∧ (sharedOf u tile).committed = some ((sharedOf s tile).newest l.shared) ∧ (liningOf u tile core).drain = none ∧ (u.core k).lpseq = p.seq ∧
      (u.tile tile).tseq = (s.tile tile).tseq + 1 ∧ { u.core k with lpseq := 0 } = { s.core k with lpseq := 0 }) ∧
    (l.left ≠ [] → exec (.liningCommit tile core) s = .next s)

/-- R195 to R197, R378, R381, R383, R454, R458, R466: power failure captures every core and the tile; the final flush commits
all of it or none, and before the first launch after a boot leaves the lining as it is; resume restores what was committed; loss
of the module's power keeps the lining alone; a reset whose boot meets no failure ends READY with its sources and ports up, and one
whose image R459 refuses ends at step 2.
The model's own: the flush takes the next TSEQ, and a point of every core (log 49, DEDUCED); that memory is otherwise kept (log 20, DEDUCED). -/
def Obligations.PowerAndReset : Prop :=
  ∀ (s : State) (tile : Nat), let t := s.tile tile
    (tile < 16 → s.dieOn tile = true → ∃ u, exec (.powerFailDetect tile) s = .next u ∧ (u.tile tile).flushing = true ∧ u.dieOn tile = false ∧
      (s.hub.fresh = true → u.linings = s.linings ∧ (sharedOf u tile).drain = none) ∧
      (s.hub.fresh = false → (sharedOf u tile).drain.isSome = true) ∧
      ∀ c, c < 8 → (s.hub.fresh = false → (liningOf u tile c).drain.isSome = true) ∧ (u.auxOf (8 * tile + c)).stores = [] ∧
        (liningOf u tile c).committed = (liningOf s tile c).committed) ∧
    (∀ good, t.flushing = true → NewerThan (t.tseq + 1) (sharedOf s tile).places →
      (∀ c p, c < 8 → (liningOf s tile c).drain = some p → NewerThan p.seq (liningOf s tile c).places) → ∃ u, exec (.finalFlushCommit tile good) s = .next u ∧ Quiet s u ∧ (u.tile tile).powered = false ∧
      (u.tile tile).flushing = false ∧ (u.tile tile).offAt = s.clock ∧ (u.tile tile).tseq = (if good ∧ (sharedOf s tile).drain.isSome then t.tseq + 1 else t.tseq) ∧
      (sharedOf u tile).committed = (if good then (sharedOf s tile).drain.or (sharedOf s tile).committed else (sharedOf s tile).committed) ∧
      (sharedOf u tile).flush.map (fun r => (r.good, r.tseq, r.stitch)) =
        (sharedOf s tile).drain.map (fun p => (good, t.tseq + 1, p.stitch)) ∧
      ∀ c, c < 8 → (liningOf u tile c).committed =
        if good then (liningOf s tile c).drain.or (liningOf s tile c).committed else (liningOf s tile c).committed) ∧
    (∃ u, exec .thermalTrip s = .next u ∧ u.hub.hot = true ∧ ∀ i, i < 16 → s.dieOn i = true → (u.tile i).flushing = true) ∧
    (s.hub.hot = true → ∃ u, exec .thermalRecovery s = .next u ∧ u.hub.hot = false ∧
      ∀ i, i < 16 → s.hub.off = false → bitN s.hub.fenced i = false → (u.tile i).powered = true) ∧
    (tile < 16 → t.powered = false → s.hub.hot = false → s.hub.off = false → bitN s.hub.fenced tile = false →
      (s.hub.fresh = false → (∀ c, c < 8 → (liningOf s tile c).committed.isSome = true) → ∃ u, exec (.liningResume tile) s = .next u ∧
        (u.tile tile).powered = true ∧ (u.tile tile).flushing = false ∧
        ∀ c p, c < 8 → (liningOf s tile c).committed = some p → (u.core (8 * tile + c)).lpseq = p.seq) ∧
      (s.hub.fresh = true → t.coll.ops = [] → (∀ e ∈ s.circuits, ∀ x ∈ e.2.transfers, x.place.tile ≠ tile) → ∃ u, exec (.liningResume tile) s = .next u ∧ (u.tile tile).powered = true ∧
        (∀ c, c < 8 → u.core (8 * tile + c) = {}) ∧ ∀ j, j < 32 → (u.slot (32 * tile + j)).mode = .free)) ∧
    (∃ u, exec .modulePowerLoss s = .next u ∧ u.hub.off = true ∧ (∀ k, u.stream k = {} ∧ u.slot k = {} ∧ u.core k = {}) ∧
      (∀ i, i < 16 → (u.tile i).powered = false) ∧ u.circuits = [] ∧ u.eps = [] ∧
      (∀ a, u.mem.readByte a = if 2 ^ 47 ≤ a ∧ a < 2 ^ 52 then s.mem.readByte a else State.reset.mem.readByte a) ∧
      ((s.linings.map (fun e => e.1)).Nodup → ∀ k, (Tab.get {} k u.linings).committed = (Tab.get {} k s.linings).committed)) ∧
    (∀ obs : BootObs, obs.fails = 0 → obs.cut = 0 → (∀ n, let e := Tab.get ({} : JournalEntry) n s.hub.journal; e.state ≠ 1 ∧ e.state ≠ 3) → s.hub.failed = 0 → s.hub.torn = false → s.hub.seedErased = false →
      ∃ u, exec (.moduleReset obs) s = .next u ∧ u.clock = 0 ∧ (∀ k, u.stream k = {} ∧ u.slot k = {} ∧ u.core k = {}) ∧
        (∀ a, u.mem.readByte a = if a < 2 ^ 52 then s.mem.readByte a else State.reset.mem.readByte a) ∧
        if fwCheck s.hub.rollback s.hub.flash = 0 then
          u.hub.ready = true ∧ u.hub.outcome = 1 ∧ u.hub.step = 12 ∧ u.hub.fatal = false ∧
          (∀ j, j < 52 → (u.laser j).state = if j < 48 then 1 else 3) ∧
          (∀ e, e < 768 → (u.ep e).state = if e ∈ obs.ports then 3 else 2) ∧
          ∀ n, 1 ≤ n → n ≤ 12 → (Tab.get ({} : JournalEntry) n u.hub.journal).state = 2
        else u.hub.ready = false ∧ u.hub.outcome = 2 ∧ u.hub.step = 2 ∧ u.hub.fatal = false ∧ bitN u.hub.failed 2 = true ∧ u.eps = [] ∧
          (Tab.get ({} : JournalEntry) 2 u.hub.journal).state = 3)

/-- R302, R331, R343 to R345, R481: invalidations, table roots and the split of the base die; tile 16 is the thimble
core's. -/
def Obligations.TranslationControls : Prop :=
  ∀ (s : State) (tile vpn : Nat) (v : Word), let t := s.tile tile
    let page := vpn % 2 ^ 40
    let dropsPage (i : Instr) (k : Nat) : Prop := ∃ u, exec i s = .next u ∧ Quiet s u ∧ (u.tile k).busy = true ∧
      (u.tile k).tcache = (s.tile k).tcache.filter (fun e => !decide (65536 * page / 2 ^ e.size = e.page)) ∧
      (let size := s.pageSize k (65536 * page)
       (u.tile k).pend = (s.tile k).pend.filter (fun e =>
        !(decide (65536 * page / 2 ^ e.2.1 = e.1) || decide (e.1 * 2 ^ e.2.1 / 2 ^ size = 65536 * page / 2 ^ size)))) ∧ (u.tile k).ptroot = (s.tile k).ptroot
    let dropsAll (i : Instr) (k : Nat) (root : Word) : Prop := ∃ u, exec i s = .next u ∧ Quiet s u ∧ (u.tile k).busy = true ∧
      (u.tile k).tcache = [] ∧ (u.tile k).pend = [] ∧ (u.tile k).ptroot = root
    let root : Word := BitVec.ofNat 64 (v.toNat / 2 ^ 13 % 2 ^ 39 * 2 ^ 13 + v.toNat % 2)
    dropsPage (.invalidatePage tile vpn) tile ∧ dropsPage (.hubInvalidatePage vpn) 16 ∧
    dropsAll (.invalidateAll tile) tile t.ptroot ∧ dropsAll .hubInvalidateAll 16 (s.tile 16).ptroot ∧
    dropsAll (.ptrootWrite tile v) tile root ∧ dropsAll (.hptrootWrite v) 16 root ∧
    (t.busy = true → s.heldByCopy tile = false → (∀ e ∈ s.tiles, e.2.reds = []) → (∀ c, c < 8 → (s.auxOf (8 * tile + c)).mgemv = []) → ∃ u, exec (.invalidationComplete tile) s = .next u ∧
      StreamsUntouched s u ∧ (u.tile tile).busy = false ∧ ∀ c, c < 8 → (u.auxOf (8 * tile + c)).stores = []) ∧
    (t.busy = false → exec (.invalidationComplete tile) s = .next s) ∧
    (v.toNat % 16 ≤ 8 → ∃ u, exec (.msplitWrite tile v) s = .next u ∧ Quiet s u ∧ (u.tile tile).bspWant = some (v.toNat % 16) ∧
      (u.tile tile).bsp = t.bsp) ∧
    (8 < v.toNat % 16 → exec (.msplitWrite tile v) s = .next s) ∧
    (∀ n, t.bspWant = some n → n ≤ 8 → s.tileBusy tile = false → (∀ e ∈ s.tiles, e.2.reds = []) → ∃ u, exec (.splitChange tile) s = .next u ∧ StreamsUntouched s u ∧
      (u.tile tile).bsp = n ∧ (u.tile tile).bspWant = none ∧
      ∀ a, u.mem.readByte a = if sram kBase tile (n * 2 ^ 24) ≤ a ∧ a < sram kBase tile (2 ^ 32) then State.reset.mem.readByte a
        else ((List.range 8).foldl (fun s c => s.drainCore (8 * tile + c)) s).mem.readByte a)

/-- R351, R411, R412, R423, R451, R452, R456, R459, R460, R462: the mailbox's requests end with their CODE and their effect; while
BUSY, and where no trusted path reaches the module, a request is ignored, and in recovery mode RECOVER and CLEARJ (the model's
choice, log 41) alone are served. The model's own: CANCEL stops the job at once, and what CLEARJ clears (log 47); the order of
the statuses of GROUP create, and 0 where the group to delete does not exist (log 48). -/
def Obligations.MailboxRequests : Prop :=
  ∀ (s : State), let body := requestBody s
    (∀ obs, MailboxServes s → ∃ u c d s1, exec (.launch obs) s = .next u ∧ s.launch body obs = (c, d, s1) ∧ RequestEnds s u (c % 256) ∧
      (ctxField body 0 4 ≠ 0x4B58494D → c = 1) ∧ (c ≠ 0 → u.seq = s.seq ∧ u.hub.job = s.hub.job) ∧
      (c = 0 → u.hub.job.isSome = true ∧ u.seq.running = true ∧ u.seq.pc = 0 ∧ u.module = obs.module % 64)) ∧
    (MailboxServes s → s.hub.job = none → ∃ u, exec .cancel s = .next u ∧ RequestEnds s u 1) ∧
    (∀ j, MailboxServes s → s.hub.job = some j → ∃ u, exec .cancel s = .next u ∧ RequestEnds s u 0 ∧ u.hub.job = none ∧ u.seq.running = false ∧
      ∀ t ∈ j.tiles, (u.tile t).walker.run = false) ∧
    (∀ write, s.requestReaches = true → s.hub.busy = false → let c := fwCheck s.hub.rollback body
      ∃ u, exec (.recover write) s = .next u ∧
        (if c ≠ 0 then RequestEnds s u c ∧ u.hub.flash = s.hub.flash
         else if write = .written then RequestEnds s u 0 ∧ u.hub.flash = body ∧ u.hub.torn = false ∧ u.turns = .due .moduleReset :: s.turns
         else if write = .failed then RequestEnds s u 4 ∧ u.hub.flash = s.hub.flash
         else u.hub.torn = true ∧ bitN u.hub.failed 2 = true ∧ u.turns = s.turns)) ∧
    (∀ others, MailboxServes s → let c := s.groupStatus body others
      ∃ u, exec (.groupCreate others) s = .next u ∧ RequestEnds s u c ∧ (others ≠ 0 → c ≠ 0) ∧
        (s.groups.any (fun e => decide (e.1 = ctxField body 0 1)) = true → c = 1) ∧ (c ≠ 0 → u.groups = s.groups) ∧
        (c = 0 → Tab.get ({} : CollGroup) (ctxField body 0 1) u.groups =
          { tslots := ctxField body 1 1
            ranks := (List.range (ctxField body 2 2)).map (fun r => (ctxField body (8 + 2 * r) 2 % 16, ctxField body (8 + 2 * r) 2 / 16 % 64)) })) ∧
    (MailboxServes s → let id := ctxField body 0 1
      let used := ∃ e ∈ s.tiles, ∃ o ∈ e.2.coll.ops, o.group = id
      (used → ∃ u, exec .groupDelete s = .next u ∧ RequestEnds s u 1 ∧ u.groups = s.groups) ∧
      (¬ used → ∃ u, exec .groupDelete s = .next u ∧ RequestEnds s u 0 ∧ u.groups = s.groups.filter (fun e => e.1 ≠ id))) ∧
    (MailboxServes s → ∃ u, exec .seccfg s = .next u ∧
      (if s.hub.sec.root ≠ [] ∧ Config.secSigned s.hub.sec.root body = false then RequestEnds s u 1 ∧ u.hub.sec = s.hub.sec
       else if Config.secOk body = false ∨ 16 < (Config.secAllowed body 1).length ∨ 16 < (Config.secAllowed body 2).length ∨
          16 < (Config.secAllowed body 3).length then RequestEnds s u 2 ∧ u.hub.sec = s.hub.sec
       else RequestEnds s u 0 ∧ u.hub.sec.root = Config.secRoot body ∧ u.hub.levels = u.hub.sec.levels ∧
        u.hub.sec.launchKey = Config.secLaunchKey body)) ∧
    (MailboxServes s → ∃ u, exec .logread s = .next u ∧ RequestEnds s u 0 ∧
      ∀ a, a < 0xC00000000000 + s.hub.mbaddr ∨ 0xC00000000000 + s.hub.mbaddr + s.hub.mblen ≤ a → u.mem.readByte a = s.mem.readByte a) ∧
    (s.requestReaches = true → s.hub.busy = false → ∃ u, exec .clearj s = .next u ∧ RequestEnds s u 0 ∧ u.hub.failed = 0 ∧ u.hub.badCores = [] ∧ u.mem = s.mem ∧
      (∀ e ∈ u.hub.journal, e.2.state = 2) ∧ (∀ e ∈ u.hub.lastBoot, e.2.state = 2) ∧
      ∀ e ∈ s.hub.journal, e.2.state = 2 → e ∈ u.hub.journal) ∧
    (∀ op, op = 0 ∨ 8 < op → MailboxServes s → ∃ u, exec (.mbcmdInvalid op) s = .next u ∧ RequestEnds s u 255) ∧
    (∀ i, (∃ obs, i = .launch obs) ∨ i = .cancel ∨ (∃ a, i = .groupCreate a) ∨ i = .groupDelete ∨ i = .seccfg ∨ i = .logread ∨ i = .clearj →
      (s.hub.busy = true ∨ s.requestReaches = false → exec i s = .next s) ∧
      (s.requestReaches = true → s.hub.busy = false → s.hub.recovery = true → i ≠ .clearj → ∃ u, exec i s = .next u ∧ RequestEnds s u 255 ∧ u.mem = s.mem))

/-- R13, R14, R168, R343, R352, R450, R451, R464: what a device register holds after a write, what a half write keeps, and the
loads and stores of the thimble core in space 9. The model's own: a write to MBCMD while BUSY changes nothing (log 43), and a
walker command is kept in WCMD until its turn (log 70). -/
def Obligations.DeviceRegisters : Prop :=
  ∀ (s : State) (v : Word),
    let n := v.toNat
    let writes (a : Nat) (P : State → Prop) : Prop := ∃ u, exec (.registerWrite a v) s = .next u ∧ Quiet s u ∧ P u
    writes 0x10 (fun u => u = s) ∧
    writes 0x18 (fun u => ∀ i, i < 8 → bitN u.hub.seen i = (bitN s.hub.seen i && !bitN n i)) ∧
    writes 0x10008 (fun u => u.hub.mbaddr = n % 2 ^ 46) ∧ writes 0x10010 (fun u => u.hub.mblen = n % 2 ^ 32) ∧
    (s.hub.busy = false → writes 0x10000 (fun u => u.hub.busy = true ∧ u.turns = s.turns ++ [.due (.mailbox (n % 256))])) ∧
    (s.hub.busy = true → exec (.registerWrite 0x10000 v) s = .next s) ∧
    (∀ t, t < 16 → let a := 0x200000 + 0x1000 * t
      writes a (fun u => (u.tile t).ptroot = BitVec.ofNat 64 (n / 2 ^ 13 % 2 ^ 39 * 2 ^ 13 + n % 2) ∧ (u.tile t).tcache = []) ∧
      writes (a + 0x20) (fun u => (u.tile t).unc = BitVec.ofNat 32 (n / 2 ^ 32) ∧ (u.tile t).cor = BitVec.ofNat 32 n) ∧
      writes (a + 0x100) (fun u => (u.tile t).walker.base = BitVec.ofNat 64 (n / 2 ^ 8 % 2 ^ 48 * 2 ^ 8)) ∧
      writes (a + 0x108) (fun u => (u.tile t).walker.cnt = n % 2 ^ 16) ∧
      writes (a + 0x120) (fun u => (u.tile t).supV = bitN n 7 ∧ (u.tile t).supCore = n % 8 ∧ (u.tile t).supSlot = n / 8 % 4) ∧
      writes (a + 0x128) (fun u => (u.tile t).rdrop = BitVec.ofNat 32 n) ∧
      (∀ c, c < 64 → writes (a + 0x200 + c / 8 * 8) (fun u => u.frt t c = n / 256 ^ (c % 8) % 16)) ∧
      ((s.tile t).walker.cmd = none → 1 ≤ n % 8 → n % 8 ≤ 6 →
        writes (a + 0x110) (fun u => (u.tile t).walker = { (s.tile t).walker with cmd := some v } ∧ u.turns = .due (.walkerCommand t) :: s.turns)) ∧
      ((s.tile t).walker.cmd = some v →
        let s0 := s.setTile t { s.tile t with walker := { (s.tile t).walker with cmd := none } }
        let core := n / 2 ^ 8 % 8
        let slot := n / 2 ^ 11 % 4
        let arg := n / 2 ^ 16 % 2 ^ 44
        let does (i : Instr) : Prop := ∃ u, exec i s0 = .next u ∧ runDue (.walkerCommand t) s = .next u
        (n % 8 = 1 → does (.wStart t)) ∧ (n % 8 = 2 → does (.wStop t)) ∧ (n % 8 = 3 → does (.wPreempt t core slot arg)) ∧
        (n % 8 = 4 → does (.wResume t core slot arg)) ∧ (n % 8 = 5 → does (.wEnter t core slot)) ∧ (n % 8 = 6 → does (.wKill t core slot)))) ∧
    (∀ a, a < 0x100800000 → devReg (a / 8 * 8) = none → exec (.registerWrite a v) s = .next
      { s with hub := { s.hub with log := (0, BitVec.ofNat 64 (a / 8 * 8)) :: s.hub.log } }) ∧
    (∀ (t : Tack) (d : Reg) (m : MemOp) (f : BitVec 3), Ready s t → (s.h m.h).space = 9 →
      let h := s.h m.h
      let off := s.offM m
      let at_ (bytes : Nat) : Nat := h.base + (h.scalarBits off bytes).1 / 8
      let loads (i : Instr) (bytes : Nat) : Prop := ∀ r, (access s h m.h.toNat off (h.scalarWant off bytes false true s.cur.thimble)).isSome = true →
        elemUnit h.type = false → devReg (at_ bytes / 8 * 8) = some r → ∃ u, exec i s = .next u ∧ OnlyStream s u ∧
          Sequential s u 4 (s.wrote d (BitVec.ofNat 64 (s.readReg r % 2 ^ 64 / 2 ^ (8 * (at_ bytes % 8)) % 2 ^ (8 * bytes)))) 0
      let stores (i : Instr) (bytes : Nat) : Prop := (access s h m.h.toNat off (h.scalarWant off bytes true true s.cur.thimble)).isSome = true →
        elemUnit h.type = false → devReg (at_ bytes / 8 * 8) = some .mbaddr → ∃ u, exec i s = .next u ∧ Sequential s u 4 s.x 0 ∧
          u.hub.mbaddr = (let old := s.hub.mbaddr
            let lo := 2 ^ (8 * (at_ bytes % 8))
            let w := 2 ^ (8 * bytes)
            (old % lo + (s.x d).toNat % w * lo + (if bytes = 8 then 0 else old / (lo * w) * (lo * w))) % 2 ^ 46) ∧ { u.hub with mbaddr := 0 } = { s.hub with mbaddr := 0 }
      loads (.ldd d m f t) 8 ∧ loads (.ldw d m f t) 4 ∧ stores (.std d m f t) 8 ∧ stores (.stw d m f t) 4)

/-- R101, R118, R360 (log 4): a turn of an engine runs the next word of the one stream it may choose, if that word does
not stall; with two ready streams and no share due, that of the higher effective priority. The other turns run their
event or pass their time; without a schedule the next engine in turn moves for one cycle. A turn whose write would stall
lets the writer go on to that block, and comes again (R379, R380; log 36). In a body, bytes that no word
has stop the step by name (R123, R124). -/
def Obligations.StepRunsDecodedInstruction : Prop :=
  ∀ (s : State) (r : List Turn),
    (∀ (p : Place) (n : Nat), s.turns = .engine p n :: r → WithinBudget s p → let s0 := ({ s with turns := r } : State).passTime n
      OnlyEligible s0 p →
        (∀ (i : Instr) (u t : State), NextWord s0 p i u → exec i u = .next t → (t.at p).blocked = false →
          ∀ j v, NextWord (Claims.State.notedReady s0 p) p j v → DeliversItself p (Claims.State.notedReady s0 p) (exec j v) →
            (WritesGo (Claims.State.notedReady s0 p) (exec j v) → step s = exec j v) ∧
            ∀ t' b, exec j v = .next t' → (Claims.State.notedReady s0 p).stalledWrite t' = some b →
              step s = .next (WriterFirst (Claims.State.notedReady s0 p) b [])) ∧
        (∀ (i : Instr) (u t : State), NextWord s0 p i u → exec i u = .next t → (t.at p).blocked = false →
          let s1 := Claims.State.notedReady s0 p
          ∀ j v t' q k w t'', NextWord s1 p j v → exec j v = .next t' → faulted p s1 t' = true → q < p.stream →
            (∀ f, f < q → eligible s1 { p with stream := f } = false) → eligible s1 { p with stream := q } = true →
            NextWord s1 { p with stream := q } k w → exec k w = .next t'' → faulted { p with stream := q } s1 t'' = true → WritesGo s1 (.next t'') → step s = .next t'') ∧
        (∀ (i : Instr) (u t : State), NextWord s0 p i u → exec i u = .next t → (t.at p).blocked = true →
          (∀ q ∈ engineSlots p, q ≠ p → eligible t q = false) → step s = .next t) ∧
        (∀ bs u e, let q := ({ s0 with cur := p } : State).endPageWait p
          q.fetchWord p.tile p.stream q.me.pc.toNat = (.ok bs, u) → decode bs = .error e → (q.me.block = none → isHeader bs = true) →
          step s = .fault .unscanned)) ∧
    (∀ (p : Place) (n : Nat), s.turns = .engine p n :: r → ¬ WithinBudget s p →
      step s = .next ((({ s with turns := r } : State).passTime n).writerDrain p.tile p.core 1)) ∧
    (∀ (p : Place) (n : Nat), s.turns = .engine p n :: r → WithinBudget s p →
      (∀ q ∈ engineSlots p, eligible (({ s with turns := r } : State).passTime n) q = false) →
      step s = .next (({ s with turns := r } : State).passTime n)) ∧
    (∀ (p : Place) (n a b : Nat) (u : State), s.turns = .engine p n :: r → WithinBudget s p →
      (engineSlots p).foldl (trial exec) ([], ({ s with turns := r } : State).passTime n) = ([a, b], u) →
      let pa : Place := { p with slot := a }
      let pb : Place := { p with slot := b }
      shareDue u pa = false → shareDue u pb = false →
        ((u.slot pb.slotK).regs.eff < (u.slot pa.slotK).regs.eff → ∀ i v, NextWord u pa i v → DeliversItself pa u (exec i v) → WritesGo u (exec i v) → step s = exec i v) ∧
        ((u.slot pa.slotK).regs.eff < (u.slot pb.slotK).regs.eff → ∀ i v, NextWord u pb i v → DeliversItself pb u (exec i v) → WritesGo u (exec i v) → step s = exec i v)) ∧
    (let s0 : State := { s with turns := r }
     (∀ i, s.turns = .event i :: r → (WritesGo s0 (exec i s0) → step s = exec i s0) ∧
        ∀ t b, exec i s0 = .next t → s0.stalledWrite t = some b → step s = .next (WriterFirst s0 b [.event i])) ∧
      ∀ d, s.turns = .due d :: r → (WritesGo s0 (runDue d s0) → step s = runDue d s0) ∧
        ∀ t b, runDue d s0 = .next t → s0.stalledWrite t = some b → step s = .next (WriterFirst s0 b [.due d])) ∧
    (∀ site kind, s.turns = .error site kind :: r → step s = .next (({ s with turns := r } : State).errorFound site kind)) ∧
    (∀ peer, s.turns = .clearTrust peer :: r → step s = .next (({ s with turns := r } : State).clearTrust peer)) ∧
    (∀ entry htbase table, s.turns = .procedure entry htbase table :: r →
      step s = .next (({ s with turns := r } : State).runProcedure entry htbase table)) ∧
    (∀ tile va ppn, s.turns = .migrate tile va ppn :: r → step s = .next (({ s with turns := r } : State).migrate tile va ppn)) ∧
    (∀ n, s.turns = .time n :: r → step s = .next (({ s with turns := r } : State).passTime n)) ∧
    (s.turns = [] → step s = step { s with turns := [.engine s.nextEngine 1] })

/-- R101 to R111, R317: for every well-formed instruction that is a word, and every value of its operands, the decoder
answers it on its encoding and leaves the bytes after it; and the decoder answers only well-formed instructions that have
an encoding of as many bytes as it has taken. -/
def Obligations.DecodeEncodeAgree : Prop :=
  (∀ (i : Instr) (rest : List Byte), i.wf = true →
    (∀ w, encode32 i = some w → decode (leBytes 4 w.toNat ++ rest) = .ok (i, rest)) ∧
    (∀ w, encode16 i = some w → decode (leBytes 2 w.toNat ++ rest) = .ok (i, rest)) ∧
    (∀ w, encodeSeq i = some w → decodeSeq w = .ok i)) ∧
  (∀ (bs rest : List Byte) (i : Instr), decode bs = .ok (i, rest) → i.wf = true ∧ ((encode32 i).isSome ∨ (encode16 i).isSome) ∧
    ∃ head, bs = head ++ rest ∧ head.length = i.size) ∧
  (∀ (w : BitVec 64) (i : Instr), decodeSeq w = .ok i → (encodeSeq i).isSome)

/-- R103 to R111, R317: words written out from the encoding tables, one or two a family, decode to what they stand for. -/
def Obligations.SpecWordsDecode : Prop :=
  let none_ : Tack := ⟨false, false⟩
  let word (w : Nat) (i : Instr) : Prop := decode (leBytes 4 w) = .ok (i, [])
  let half (w : Nat) (i : Instr) : Prop := decode (leBytes 2 w) = .ok (i, [])
  word 0x00008003 (.blk 0 4 0 0) ∧ word 0x00C0DC03 (.blk 3 6 3 2) ∧ word 0x00000015 (.endS none_) ∧
  word 0x038C2841 (.addR 5 6 7 none_) ∧ word 0x50061871 (.addi 3 3 160 none_) ∧ half 0xE912 (.cAddi 4 29) ∧
  word 0x81884825 (.semw 9 4 259 none_) ∧ word 0x03862895 (.ldw 5 ⟨3, 7⟩ 0 none_) ∧ word 0x050270A5 (.std 14 ⟨1, 10⟩ 0 none_) ∧
  word 0x05822897 (.ldd 5 ⟨1, 11⟩ 0 none_) ∧ word 0x0000801B (.ext 64) ∧ word 0x448420B1 (.aadd 4 ⟨2, 9⟩ 2 none_) ∧
  word 0x028018A7 (.hld 3 0 5 none_) ∧ word 0x268A60F1 (.pld 12 ⟨5, 13⟩ 1 none_) ∧ word 0x06165101 (.vadd 10 11 12 0 none_) ∧
  word 0xC00C2923 (.vred 5 6 6 none_) ∧ word 0x0000A135 (.osmx 20 none_) ∧ word 0x04844145 (.mma 8 ⟨2, 9⟩ none_) ∧
  word 0x20084149 (.mdrn 8 ⟨4, 0⟩ 1 none_) ∧ word 0x01844969 (.coll 9 ⟨2, 3⟩ none_) ∧
  decodeSeq 0x205CC40C18000503#64 = .ok (.sqMake
    { circuit := 5, stile := 2, dmod := 1, dtile := 7, width1 := 3, minw1 := 1, span := false, rcore := 0, rbob := 3, route := 12, rx := false }) ∧
  decodeSeq 0x0000000001050908#64 = .ok (.sqSigt 265 2 0 1) ∧ decodeSeq 0#64 = .ok .sequencerEnd

/-- The memories of the module stay canonical over every step, from every state in which they are (the model's
representation: log 1). -/
def Obligations.MemoryStaysCanonical : Prop := ∀ s t : State, Canonical s → step s = .next t → Canonical t

/-- The module right after reset, and with any instruction placed where the next step fetches, holds canonical memories
(log 1, log 7). -/
def Obligations.MemoryCanonicalAtReset : Prop :=
  Canonical State.reset ∧ ∀ (s : State) (nbits w : Nat), Canonical s → Canonical (s.withFetchWord nbits w)

/-- R28, R29, R35 to R46, R214, R331, R366: what reset leaves, where the spec gives the value; TINFO0, TINFO2 and TINFO3, for
which it gives none, are zero (log 2). -/
def Obligations.ResetValues : Prop :=
  let s := State.reset
  (∀ k, (∀ a row i, a < 8 → row < 256 → i < 2048 → s.mem.readByte (accAddr k a row i) = 0) ∧
    (∀ a, let t := Tab.get ({} : Accum) a (s.core k).accums
      t.type = 0x0B ∧ t.ovf = 0 ∧ ∀ row, t.item 1 row = 0xFF800000#32 ∧ t.item 2 row = 0#32 ∧ t.item 3 row = 0x3F800000#32) ∧
    (let m := (s.core k).matrix;
      m.active = false ∧ m.wb0.type = 0 ∧ m.wb0.pw = 4 ∧ m.wb1.type = 0 ∧ m.wb1.pw = 4 ∧ m.fmtType = 0 ∧ m.fmtPa = 4 ∧
      (∀ r, Tab.get (0x3F800000#32) r m.rowScale = 0x3F800000#32 ∧ Tab.get (0x3F800000#32) r m.colScale = 0x3F800000#32 ∧
        Tab.get (0#32) r m.bias = 0#32)) ∧
    (∀ b, let x := Tab.get ({} : Bobbin) b (s.core k).bobbins
      x.base = 0 ∧ x.ssize = 64 ∧ x.scount = 1 ∧ x.head = 0 ∧ x.claim = 0 ∧ x.fill = 0 ∧ x.pubv = 0) ∧
    (s.core k).mshare = 0 ∧ (s.core k).corecfg = 0 ∧ (s.core k).lpcfg = 100 ∧ (s.core k).lpseq = 0) ∧
  (∀ k, let r := (s.slot k).regs
    r.super = false ∧ r.pmode = false ∧ r.fstrm = 0 ∧ r.preq = false ∧ r.resumed = false ∧ r.torn = false ∧ r.cause = 0 ∧
    r.tvec = 0 ∧ r.htbase = 0 ∧ r.ctxbase = 0 ∧ r.info0 = 0 ∧ r.info1 = 0 ∧ r.info2 = 0 ∧ r.info3 = 0 ∧ r.cap = 15 ∧ r.eff = 0 ∧
    r.base = 0 ∧ r.htcnt = 0 ∧ (s.slot k).fifo = []) ∧
  (∀ k, (s.stream k).fpflags = 0 ∧ (s.stream k).vlen = 0 ∧ (s.stream k).pc = 0) ∧ s.clock = 0 ∧ s.stitch = 0 ∧
  (∀ t, (s.tile t).bsp = 0 ∧ s.frt t 0x01 = 8 ∧ s.frt t 0x0E = 8 ∧ s.frt t 0x11 = 13 ∧ s.frt t 0x20 = 12 ∧ s.frt t 0x21 = 12 ∧
    s.frt t 0x22 = 10 ∧ s.frt t 0x30 = 10 ∧ s.frt t 0x3F = 10)
end

