-- ==== Sys2Proof/Laws/Table.lean ====
section
/-!
SUPPORT. Laws of the sparse tables: a read after a write, and the canonical form. The read laws hold of any
list, so they need no premise on the table.
-/
namespace Sys2Proof.Machine

theorem Tab.get_erase_same {α : Type} (d : α) (i : Nat) (t : Tab α) : Tab.get d i (Tab.erase i t) = d := by
  induction t with
  | nil => rfl
  | cons e r ih =>
    obtain ⟨j, v⟩ := e
    simp only [Tab.erase, List.filter_cons] at *
    simp only [ne_eq, decide_not] at ih
    by_cases h : j = i
    · simp [h, ih]
    · simp [h, Tab.get, Ne.symm h, ih]

theorem Tab.get_erase_other {α : Type} (d : α) {i j : Nat} (h : j ≠ i) (t : Tab α) :
    Tab.get d j (Tab.erase i t) = Tab.get d j t := by
  induction t with
  | nil => rfl
  | cons e r ih =>
    obtain ⟨k, v⟩ := e
    simp only [Tab.erase, List.filter_cons] at *
    simp only [ne_eq, decide_not] at ih
    by_cases hk : k = i
    · subst hk; simp [Tab.get, h, ih]
    · simp [hk, Tab.get, ih]

theorem Tab.get_insert_same {α : Type} (d : α) (i : Nat) (v : α) (t : Tab α) :
    Tab.get d i (Tab.insert i v t) = v := by
  induction t with
  | nil => simp [Tab.insert, Tab.get]
  | cons e r ih =>
    obtain ⟨k, w⟩ := e
    simp only [Tab.insert]
    split_ifs with h1 h2
    · simp [Tab.get]
    · simp [Tab.get]
    · simp [Tab.get, h2, ih]

theorem Tab.get_insert_other {α : Type} (d : α) {i j : Nat} (h : j ≠ i) (v : α) (t : Tab α) :
    Tab.get d j (Tab.insert i v t) = Tab.get d j t := by
  induction t with
  | nil => simp [Tab.insert, Tab.get, h]
  | cons e r ih =>
    obtain ⟨k, w⟩ := e
    simp only [Tab.insert]
    split_ifs with h1 h2
    · simp [Tab.get, h]
    · subst h2; simp [Tab.get, h]
    · simp only [Tab.get, ih]

/-- A read of the index just set. -/
@[simp] theorem Tab.get_set_same {α : Type} [DecidableEq α] (d : α) (i : Nat) (v : α) (t : Tab α) :
    Tab.get d i (Tab.set d i v t) = v := by
  unfold Tab.set
  split_ifs with h
  · rw [h, Tab.get_erase_same]
  · exact Tab.get_insert_same d i v t

/-- A read of another index. -/
@[simp] theorem Tab.get_set_other {α : Type} [DecidableEq α] (d : α) {i j : Nat} (h : j ≠ i) (v : α) (t : Tab α) :
    Tab.get d j (Tab.set d i v t) = Tab.get d j t := by
  unfold Tab.set
  split_ifs
  · exact Tab.get_erase_other d h t
  · exact Tab.get_insert_other d h v t

theorem Tab.get_set {α : Type} [DecidableEq α] (d : α) (i j : Nat) (v : α) (t : Tab α) :
    Tab.get d j (Tab.set d i v t) = if j = i then v else Tab.get d j t := by
  split_ifs with h
  · subst h; simp
  · simp [h]

theorem Tab.mem_insert_key {α : Type} {i : Nat} {v : α} {t : Tab α} {e : Nat × α} (h : e ∈ Tab.insert i v t) :
    e = (i, v) ∨ e ∈ t := by
  induction t with
  | nil => simpa [Tab.insert] using h
  | cons x r ih =>
    obtain ⟨k, w⟩ := x
    simp only [Tab.insert] at h
    split_ifs at h with h1 h2
    · simpa using h
    · simp only [List.mem_cons] at h ⊢; tauto
    · simp only [List.mem_cons] at h ⊢
      rcases h with h | h
      · tauto
      · rcases ih h with h | h <;> tauto

/-- A write keeps the canonical form. -/
theorem Tab.wf_set {α : Type} [DecidableEq α] (d : α) (i : Nat) (v : α) {t : Tab α} (h : Tab.wf d t) :
    Tab.wf d (Tab.set d i v t) := by
  unfold Tab.set
  split_ifs with hv
  · refine ⟨?_, fun e he => h.2 e (List.mem_of_mem_filter he)⟩
    exact h.1.sublist (List.filter_sublist.map _)
  · constructor
    · have h1 := h.1
      clear h
      induction t with
      | nil => simp [Tab.insert]
      | cons x r ih =>
        obtain ⟨k, w⟩ := x
        simp only [Tab.insert]
        simp only [List.map_cons, List.pairwise_cons] at h1
        split_ifs with c1 c2
        · simp only [List.map_cons, List.pairwise_cons]
          refine ⟨?_, h1⟩
          intro a ha
          simp only [List.mem_cons] at ha
          rcases ha with rfl | ha
          · exact c1
          · exact lt_trans c1 (h1.1 a ha)
        · subst c2; simpa only [List.map_cons, List.pairwise_cons] using h1
        · simp only [List.map_cons, List.pairwise_cons]
          refine ⟨?_, ih h1.2⟩
          intro a ha
          obtain ⟨e, he, rfl⟩ := List.mem_map.1 ha
          rcases Tab.mem_insert_key he with rfl | he
          · show k < i
            omega
          · exact h1.1 _ (List.mem_map_of_mem he)
    · intro e he
      rcases Tab.mem_insert_key he with rfl | he
      · exact hv
      · exact h.2 e he

end Sys2Proof.Machine
end

