-- ==== Sys2Proof/Laws/State.lean ====
section
/-!
SUPPORT. The updates of the state, field by field: what each update leaves alone, and what a read of an object
gives after a write of it.
-/
namespace Sys2Proof.Machine

/-! ## Fields an update leaves alone -/

@[simp] theorem State.setStream_slots (s : State) (k : Nat) (v : Stream) : (s.setStream k v).slots = s.slots := rfl
@[simp] theorem State.setStream_cores (s : State) (k : Nat) (v : Stream) : (s.setStream k v).cores = s.cores := rfl
@[simp] theorem State.setStream_aux (s : State) (k : Nat) (v : Stream) : (s.setStream k v).aux = s.aux := rfl
@[simp] theorem State.setStream_engines (s : State) (k : Nat) (v : Stream) : (s.setStream k v).engines = s.engines := rfl
@[simp] theorem State.setStream_tiles (s : State) (k : Nat) (v : Stream) : (s.setStream k v).tiles = s.tiles := rfl
@[simp] theorem State.setStream_linings (s : State) (k : Nat) (v : Stream) : (s.setStream k v).linings = s.linings := rfl
@[simp] theorem State.setStream_tileLinings (s : State) (k : Nat) (v : Stream) : (s.setStream k v).tileLinings = s.tileLinings := rfl
@[simp] theorem State.setStream_mem (s : State) (k : Nat) (v : Stream) : (s.setStream k v).mem = s.mem := rfl
@[simp] theorem State.setStream_poison (s : State) (k : Nat) (v : Stream) : (s.setStream k v).poison = s.poison := rfl
@[simp] theorem State.setStream_held (s : State) (k : Nat) (v : Stream) : (s.setStream k v).held = s.held := rfl
@[simp] theorem State.setStream_hub (s : State) (k : Nat) (v : Stream) : (s.setStream k v).hub = s.hub := rfl
@[simp] theorem State.setStream_seq (s : State) (k : Nat) (v : Stream) : (s.setStream k v).seq = s.seq := rfl
@[simp] theorem State.setStream_circuits (s : State) (k : Nat) (v : Stream) : (s.setStream k v).circuits = s.circuits := rfl
@[simp] theorem State.setStream_eps (s : State) (k : Nat) (v : Stream) : (s.setStream k v).eps = s.eps := rfl
@[simp] theorem State.setStream_lasers (s : State) (k : Nat) (v : Stream) : (s.setStream k v).lasers = s.lasers := rfl
@[simp] theorem State.setStream_links (s : State) (k : Nat) (v : Stream) : (s.setStream k v).links = s.links := rfl
@[simp] theorem State.setStream_groups (s : State) (k : Nat) (v : Stream) : (s.setStream k v).groups = s.groups := rfl
@[simp] theorem State.setStream_reports (s : State) (k : Nat) (v : Stream) : (s.setStream k v).reports = s.reports := rfl
@[simp] theorem State.setStream_tasks (s : State) (k : Nat) (v : Stream) : (s.setStream k v).tasks = s.tasks := rfl
@[simp] theorem State.setStream_clock (s : State) (k : Nat) (v : Stream) : (s.setStream k v).clock = s.clock := rfl
@[simp] theorem State.setStream_jumped (s : State) (k : Nat) (v : Stream) : (s.setStream k v).jumped = s.jumped := rfl
@[simp] theorem State.setStream_module (s : State) (k : Nat) (v : Stream) : (s.setStream k v).module = s.module := rfl
@[simp] theorem State.setStream_cur (s : State) (k : Nat) (v : Stream) : (s.setStream k v).cur = s.cur := rfl
@[simp] theorem State.setStream_turns (s : State) (k : Nat) (v : Stream) : (s.setStream k v).turns = s.turns := rfl
@[simp] theorem State.setStream_free (s : State) (k : Nat) (v : Stream) : (s.setStream k v).free = s.free := rfl
@[simp] theorem State.setSlot_streams (s : State) (k : Nat) (v : Slot) : (s.setSlot k v).streams = s.streams := rfl
@[simp] theorem State.setSlot_cores (s : State) (k : Nat) (v : Slot) : (s.setSlot k v).cores = s.cores := rfl
@[simp] theorem State.setSlot_aux (s : State) (k : Nat) (v : Slot) : (s.setSlot k v).aux = s.aux := rfl
@[simp] theorem State.setSlot_engines (s : State) (k : Nat) (v : Slot) : (s.setSlot k v).engines = s.engines := rfl
@[simp] theorem State.setSlot_tiles (s : State) (k : Nat) (v : Slot) : (s.setSlot k v).tiles = s.tiles := rfl
@[simp] theorem State.setSlot_linings (s : State) (k : Nat) (v : Slot) : (s.setSlot k v).linings = s.linings := rfl
@[simp] theorem State.setSlot_tileLinings (s : State) (k : Nat) (v : Slot) : (s.setSlot k v).tileLinings = s.tileLinings := rfl
@[simp] theorem State.setSlot_mem (s : State) (k : Nat) (v : Slot) : (s.setSlot k v).mem = s.mem := rfl
@[simp] theorem State.setSlot_poison (s : State) (k : Nat) (v : Slot) : (s.setSlot k v).poison = s.poison := rfl
@[simp] theorem State.setSlot_held (s : State) (k : Nat) (v : Slot) : (s.setSlot k v).held = s.held := rfl
@[simp] theorem State.setSlot_hub (s : State) (k : Nat) (v : Slot) : (s.setSlot k v).hub = s.hub := rfl
@[simp] theorem State.setSlot_seq (s : State) (k : Nat) (v : Slot) : (s.setSlot k v).seq = s.seq := rfl
@[simp] theorem State.setSlot_circuits (s : State) (k : Nat) (v : Slot) : (s.setSlot k v).circuits = s.circuits := rfl
@[simp] theorem State.setSlot_eps (s : State) (k : Nat) (v : Slot) : (s.setSlot k v).eps = s.eps := rfl
@[simp] theorem State.setSlot_lasers (s : State) (k : Nat) (v : Slot) : (s.setSlot k v).lasers = s.lasers := rfl
@[simp] theorem State.setSlot_links (s : State) (k : Nat) (v : Slot) : (s.setSlot k v).links = s.links := rfl
@[simp] theorem State.setSlot_groups (s : State) (k : Nat) (v : Slot) : (s.setSlot k v).groups = s.groups := rfl
@[simp] theorem State.setSlot_reports (s : State) (k : Nat) (v : Slot) : (s.setSlot k v).reports = s.reports := rfl
@[simp] theorem State.setSlot_tasks (s : State) (k : Nat) (v : Slot) : (s.setSlot k v).tasks = s.tasks := rfl
@[simp] theorem State.setSlot_clock (s : State) (k : Nat) (v : Slot) : (s.setSlot k v).clock = s.clock := rfl
@[simp] theorem State.setSlot_jumped (s : State) (k : Nat) (v : Slot) : (s.setSlot k v).jumped = s.jumped := rfl
@[simp] theorem State.setSlot_module (s : State) (k : Nat) (v : Slot) : (s.setSlot k v).module = s.module := rfl
@[simp] theorem State.setSlot_cur (s : State) (k : Nat) (v : Slot) : (s.setSlot k v).cur = s.cur := rfl
@[simp] theorem State.setSlot_turns (s : State) (k : Nat) (v : Slot) : (s.setSlot k v).turns = s.turns := rfl
@[simp] theorem State.setSlot_free (s : State) (k : Nat) (v : Slot) : (s.setSlot k v).free = s.free := rfl
@[simp] theorem State.setCore_streams (s : State) (k : Nat) (v : Core) : (s.setCore k v).streams = s.streams := rfl
@[simp] theorem State.setCore_slots (s : State) (k : Nat) (v : Core) : (s.setCore k v).slots = s.slots := rfl
@[simp] theorem State.setCore_aux (s : State) (k : Nat) (v : Core) : (s.setCore k v).aux = s.aux := rfl
@[simp] theorem State.setCore_engines (s : State) (k : Nat) (v : Core) : (s.setCore k v).engines = s.engines := rfl
@[simp] theorem State.setCore_tiles (s : State) (k : Nat) (v : Core) : (s.setCore k v).tiles = s.tiles := rfl
@[simp] theorem State.setCore_linings (s : State) (k : Nat) (v : Core) : (s.setCore k v).linings = s.linings := rfl
@[simp] theorem State.setCore_tileLinings (s : State) (k : Nat) (v : Core) : (s.setCore k v).tileLinings = s.tileLinings := rfl
@[simp] theorem State.setCore_mem (s : State) (k : Nat) (v : Core) : (s.setCore k v).mem = s.mem := rfl
@[simp] theorem State.setCore_poison (s : State) (k : Nat) (v : Core) : (s.setCore k v).poison = s.poison := rfl
@[simp] theorem State.setCore_held (s : State) (k : Nat) (v : Core) : (s.setCore k v).held = s.held := rfl
@[simp] theorem State.setCore_hub (s : State) (k : Nat) (v : Core) : (s.setCore k v).hub = s.hub := rfl
@[simp] theorem State.setCore_seq (s : State) (k : Nat) (v : Core) : (s.setCore k v).seq = s.seq := rfl
@[simp] theorem State.setCore_circuits (s : State) (k : Nat) (v : Core) : (s.setCore k v).circuits = s.circuits := rfl
@[simp] theorem State.setCore_eps (s : State) (k : Nat) (v : Core) : (s.setCore k v).eps = s.eps := rfl
@[simp] theorem State.setCore_lasers (s : State) (k : Nat) (v : Core) : (s.setCore k v).lasers = s.lasers := rfl
@[simp] theorem State.setCore_links (s : State) (k : Nat) (v : Core) : (s.setCore k v).links = s.links := rfl
@[simp] theorem State.setCore_groups (s : State) (k : Nat) (v : Core) : (s.setCore k v).groups = s.groups := rfl
@[simp] theorem State.setCore_reports (s : State) (k : Nat) (v : Core) : (s.setCore k v).reports = s.reports := rfl
@[simp] theorem State.setCore_tasks (s : State) (k : Nat) (v : Core) : (s.setCore k v).tasks = s.tasks := rfl
@[simp] theorem State.setCore_clock (s : State) (k : Nat) (v : Core) : (s.setCore k v).clock = s.clock := rfl
@[simp] theorem State.setCore_jumped (s : State) (k : Nat) (v : Core) : (s.setCore k v).jumped = s.jumped := rfl
@[simp] theorem State.setCore_module (s : State) (k : Nat) (v : Core) : (s.setCore k v).module = s.module := rfl
@[simp] theorem State.setCore_cur (s : State) (k : Nat) (v : Core) : (s.setCore k v).cur = s.cur := rfl
@[simp] theorem State.setCore_turns (s : State) (k : Nat) (v : Core) : (s.setCore k v).turns = s.turns := rfl
@[simp] theorem State.setCore_free (s : State) (k : Nat) (v : Core) : (s.setCore k v).free = s.free := rfl
@[simp] theorem State.setAux_streams (s : State) (k : Nat) (v : CoreAux) : (s.setAux k v).streams = s.streams := rfl
@[simp] theorem State.setAux_slots (s : State) (k : Nat) (v : CoreAux) : (s.setAux k v).slots = s.slots := rfl
@[simp] theorem State.setAux_cores (s : State) (k : Nat) (v : CoreAux) : (s.setAux k v).cores = s.cores := rfl
@[simp] theorem State.setAux_engines (s : State) (k : Nat) (v : CoreAux) : (s.setAux k v).engines = s.engines := rfl
@[simp] theorem State.setAux_tiles (s : State) (k : Nat) (v : CoreAux) : (s.setAux k v).tiles = s.tiles := rfl
@[simp] theorem State.setAux_linings (s : State) (k : Nat) (v : CoreAux) : (s.setAux k v).linings = s.linings := rfl
@[simp] theorem State.setAux_tileLinings (s : State) (k : Nat) (v : CoreAux) : (s.setAux k v).tileLinings = s.tileLinings := rfl
@[simp] theorem State.setAux_mem (s : State) (k : Nat) (v : CoreAux) : (s.setAux k v).mem = s.mem := rfl
@[simp] theorem State.setAux_poison (s : State) (k : Nat) (v : CoreAux) : (s.setAux k v).poison = s.poison := rfl
@[simp] theorem State.setAux_held (s : State) (k : Nat) (v : CoreAux) : (s.setAux k v).held = s.held := rfl
@[simp] theorem State.setAux_hub (s : State) (k : Nat) (v : CoreAux) : (s.setAux k v).hub = s.hub := rfl
@[simp] theorem State.setAux_seq (s : State) (k : Nat) (v : CoreAux) : (s.setAux k v).seq = s.seq := rfl
@[simp] theorem State.setAux_circuits (s : State) (k : Nat) (v : CoreAux) : (s.setAux k v).circuits = s.circuits := rfl
@[simp] theorem State.setAux_eps (s : State) (k : Nat) (v : CoreAux) : (s.setAux k v).eps = s.eps := rfl
@[simp] theorem State.setAux_lasers (s : State) (k : Nat) (v : CoreAux) : (s.setAux k v).lasers = s.lasers := rfl
@[simp] theorem State.setAux_links (s : State) (k : Nat) (v : CoreAux) : (s.setAux k v).links = s.links := rfl
@[simp] theorem State.setAux_groups (s : State) (k : Nat) (v : CoreAux) : (s.setAux k v).groups = s.groups := rfl
@[simp] theorem State.setAux_reports (s : State) (k : Nat) (v : CoreAux) : (s.setAux k v).reports = s.reports := rfl
@[simp] theorem State.setAux_tasks (s : State) (k : Nat) (v : CoreAux) : (s.setAux k v).tasks = s.tasks := rfl
@[simp] theorem State.setAux_clock (s : State) (k : Nat) (v : CoreAux) : (s.setAux k v).clock = s.clock := rfl
@[simp] theorem State.setAux_jumped (s : State) (k : Nat) (v : CoreAux) : (s.setAux k v).jumped = s.jumped := rfl
@[simp] theorem State.setAux_module (s : State) (k : Nat) (v : CoreAux) : (s.setAux k v).module = s.module := rfl
@[simp] theorem State.setAux_cur (s : State) (k : Nat) (v : CoreAux) : (s.setAux k v).cur = s.cur := rfl
@[simp] theorem State.setAux_turns (s : State) (k : Nat) (v : CoreAux) : (s.setAux k v).turns = s.turns := rfl
@[simp] theorem State.setAux_free (s : State) (k : Nat) (v : CoreAux) : (s.setAux k v).free = s.free := rfl
@[simp] theorem State.setTile_streams (s : State) (k : Nat) (v : Tile) : (s.setTile k v).streams = s.streams := rfl
@[simp] theorem State.setTile_slots (s : State) (k : Nat) (v : Tile) : (s.setTile k v).slots = s.slots := rfl
@[simp] theorem State.setTile_cores (s : State) (k : Nat) (v : Tile) : (s.setTile k v).cores = s.cores := rfl
@[simp] theorem State.setTile_aux (s : State) (k : Nat) (v : Tile) : (s.setTile k v).aux = s.aux := rfl
@[simp] theorem State.setTile_engines (s : State) (k : Nat) (v : Tile) : (s.setTile k v).engines = s.engines := rfl
@[simp] theorem State.setTile_linings (s : State) (k : Nat) (v : Tile) : (s.setTile k v).linings = s.linings := rfl
@[simp] theorem State.setTile_tileLinings (s : State) (k : Nat) (v : Tile) : (s.setTile k v).tileLinings = s.tileLinings := rfl
@[simp] theorem State.setTile_mem (s : State) (k : Nat) (v : Tile) : (s.setTile k v).mem = s.mem := rfl
@[simp] theorem State.setTile_poison (s : State) (k : Nat) (v : Tile) : (s.setTile k v).poison = s.poison := rfl
@[simp] theorem State.setTile_held (s : State) (k : Nat) (v : Tile) : (s.setTile k v).held = s.held := rfl
@[simp] theorem State.setTile_hub (s : State) (k : Nat) (v : Tile) : (s.setTile k v).hub = s.hub := rfl
@[simp] theorem State.setTile_seq (s : State) (k : Nat) (v : Tile) : (s.setTile k v).seq = s.seq := rfl
@[simp] theorem State.setTile_circuits (s : State) (k : Nat) (v : Tile) : (s.setTile k v).circuits = s.circuits := rfl
@[simp] theorem State.setTile_eps (s : State) (k : Nat) (v : Tile) : (s.setTile k v).eps = s.eps := rfl
@[simp] theorem State.setTile_lasers (s : State) (k : Nat) (v : Tile) : (s.setTile k v).lasers = s.lasers := rfl
@[simp] theorem State.setTile_links (s : State) (k : Nat) (v : Tile) : (s.setTile k v).links = s.links := rfl
@[simp] theorem State.setTile_groups (s : State) (k : Nat) (v : Tile) : (s.setTile k v).groups = s.groups := rfl
@[simp] theorem State.setTile_reports (s : State) (k : Nat) (v : Tile) : (s.setTile k v).reports = s.reports := rfl
@[simp] theorem State.setTile_tasks (s : State) (k : Nat) (v : Tile) : (s.setTile k v).tasks = s.tasks := rfl
@[simp] theorem State.setTile_clock (s : State) (k : Nat) (v : Tile) : (s.setTile k v).clock = s.clock := rfl
@[simp] theorem State.setTile_jumped (s : State) (k : Nat) (v : Tile) : (s.setTile k v).jumped = s.jumped := rfl
@[simp] theorem State.setTile_module (s : State) (k : Nat) (v : Tile) : (s.setTile k v).module = s.module := rfl
@[simp] theorem State.setTile_cur (s : State) (k : Nat) (v : Tile) : (s.setTile k v).cur = s.cur := rfl
@[simp] theorem State.setTile_turns (s : State) (k : Nat) (v : Tile) : (s.setTile k v).turns = s.turns := rfl
@[simp] theorem State.setTile_free (s : State) (k : Nat) (v : Tile) : (s.setTile k v).free = s.free := rfl
@[simp] theorem State.tick_streams (s : State) : (s.tick).streams = s.streams := rfl
@[simp] theorem State.tick_slots (s : State) : (s.tick).slots = s.slots := rfl
@[simp] theorem State.tick_cores (s : State) : (s.tick).cores = s.cores := rfl
@[simp] theorem State.tick_aux (s : State) : (s.tick).aux = s.aux := rfl
@[simp] theorem State.tick_engines (s : State) : (s.tick).engines = s.engines := rfl
@[simp] theorem State.tick_tiles (s : State) : (s.tick).tiles = s.tiles := rfl
@[simp] theorem State.tick_linings (s : State) : (s.tick).linings = s.linings := rfl
@[simp] theorem State.tick_tileLinings (s : State) : (s.tick).tileLinings = s.tileLinings := rfl
@[simp] theorem State.tick_mem (s : State) : (s.tick).mem = s.mem := rfl
@[simp] theorem State.tick_poison (s : State) : (s.tick).poison = s.poison := rfl
@[simp] theorem State.tick_held (s : State) : (s.tick).held = s.held := rfl
@[simp] theorem State.tick_hub (s : State) : (s.tick).hub = s.hub := rfl
@[simp] theorem State.tick_seq (s : State) : (s.tick).seq = s.seq := rfl
@[simp] theorem State.tick_circuits (s : State) : (s.tick).circuits = s.circuits := rfl
@[simp] theorem State.tick_eps (s : State) : (s.tick).eps = s.eps := rfl
@[simp] theorem State.tick_lasers (s : State) : (s.tick).lasers = s.lasers := rfl
@[simp] theorem State.tick_links (s : State) : (s.tick).links = s.links := rfl
@[simp] theorem State.tick_groups (s : State) : (s.tick).groups = s.groups := rfl
@[simp] theorem State.tick_reports (s : State) : (s.tick).reports = s.reports := rfl
@[simp] theorem State.tick_tasks (s : State) : (s.tick).tasks = s.tasks := rfl
@[simp] theorem State.tick_clock (s : State) : (s.tick).clock = s.clock := rfl
@[simp] theorem State.tick_jumped (s : State) : (s.tick).jumped = s.jumped := rfl
@[simp] theorem State.tick_module (s : State) : (s.tick).module = s.module := rfl
@[simp] theorem State.tick_cur (s : State) : (s.tick).cur = s.cur := rfl
@[simp] theorem State.tick_turns (s : State) : (s.tick).turns = s.turns := rfl
@[simp] theorem State.report_streams (s : State) (d : Dest) (e : Event) (t k : Nat) : (s.report d e t k).streams = s.streams := rfl
@[simp] theorem State.report_slots (s : State) (d : Dest) (e : Event) (t k : Nat) : (s.report d e t k).slots = s.slots := rfl
@[simp] theorem State.report_cores (s : State) (d : Dest) (e : Event) (t k : Nat) : (s.report d e t k).cores = s.cores := rfl
@[simp] theorem State.report_aux (s : State) (d : Dest) (e : Event) (t k : Nat) : (s.report d e t k).aux = s.aux := rfl
@[simp] theorem State.report_engines (s : State) (d : Dest) (e : Event) (t k : Nat) : (s.report d e t k).engines = s.engines := rfl
@[simp] theorem State.report_tiles (s : State) (d : Dest) (e : Event) (t k : Nat) : (s.report d e t k).tiles = s.tiles := rfl
@[simp] theorem State.report_linings (s : State) (d : Dest) (e : Event) (t k : Nat) : (s.report d e t k).linings = s.linings := rfl
@[simp] theorem State.report_tileLinings (s : State) (d : Dest) (e : Event) (t k : Nat) : (s.report d e t k).tileLinings = s.tileLinings := rfl
@[simp] theorem State.report_mem (s : State) (d : Dest) (e : Event) (t k : Nat) : (s.report d e t k).mem = s.mem := rfl
@[simp] theorem State.report_poison (s : State) (d : Dest) (e : Event) (t k : Nat) : (s.report d e t k).poison = s.poison := rfl
@[simp] theorem State.report_held (s : State) (d : Dest) (e : Event) (t k : Nat) : (s.report d e t k).held = s.held := rfl
@[simp] theorem State.report_hub (s : State) (d : Dest) (e : Event) (t k : Nat) : (s.report d e t k).hub = s.hub := rfl
@[simp] theorem State.report_seq (s : State) (d : Dest) (e : Event) (t k : Nat) : (s.report d e t k).seq = s.seq := rfl
@[simp] theorem State.report_circuits (s : State) (d : Dest) (e : Event) (t k : Nat) : (s.report d e t k).circuits = s.circuits := rfl
@[simp] theorem State.report_eps (s : State) (d : Dest) (e : Event) (t k : Nat) : (s.report d e t k).eps = s.eps := rfl
@[simp] theorem State.report_lasers (s : State) (d : Dest) (e : Event) (t k : Nat) : (s.report d e t k).lasers = s.lasers := rfl
@[simp] theorem State.report_links (s : State) (d : Dest) (e : Event) (t k : Nat) : (s.report d e t k).links = s.links := rfl
@[simp] theorem State.report_groups (s : State) (d : Dest) (e : Event) (t k : Nat) : (s.report d e t k).groups = s.groups := rfl
@[simp] theorem State.report_tasks (s : State) (d : Dest) (e : Event) (t k : Nat) : (s.report d e t k).tasks = s.tasks := rfl
@[simp] theorem State.report_clock (s : State) (d : Dest) (e : Event) (t k : Nat) : (s.report d e t k).clock = s.clock := rfl
@[simp] theorem State.report_jumped (s : State) (d : Dest) (e : Event) (t k : Nat) : (s.report d e t k).jumped = s.jumped := rfl
@[simp] theorem State.report_module (s : State) (d : Dest) (e : Event) (t k : Nat) : (s.report d e t k).module = s.module := rfl
@[simp] theorem State.report_cur (s : State) (d : Dest) (e : Event) (t k : Nat) : (s.report d e t k).cur = s.cur := rfl
@[simp] theorem State.report_turns (s : State) (d : Dest) (e : Event) (t k : Nat) : (s.report d e t k).turns = s.turns := rfl
@[simp] theorem State.report_free (s : State) (d : Dest) (e : Event) (t k : Nat) : (s.report d e t k).free = s.free := rfl
@[simp] theorem State.soon_streams (s : State) (d : Due) : (s.soon d).streams = s.streams := rfl
@[simp] theorem State.soon_slots (s : State) (d : Due) : (s.soon d).slots = s.slots := rfl
@[simp] theorem State.soon_cores (s : State) (d : Due) : (s.soon d).cores = s.cores := rfl
@[simp] theorem State.soon_aux (s : State) (d : Due) : (s.soon d).aux = s.aux := rfl
@[simp] theorem State.soon_engines (s : State) (d : Due) : (s.soon d).engines = s.engines := rfl
@[simp] theorem State.soon_tiles (s : State) (d : Due) : (s.soon d).tiles = s.tiles := rfl
@[simp] theorem State.soon_linings (s : State) (d : Due) : (s.soon d).linings = s.linings := rfl
@[simp] theorem State.soon_tileLinings (s : State) (d : Due) : (s.soon d).tileLinings = s.tileLinings := rfl
@[simp] theorem State.soon_mem (s : State) (d : Due) : (s.soon d).mem = s.mem := rfl
@[simp] theorem State.soon_poison (s : State) (d : Due) : (s.soon d).poison = s.poison := rfl
@[simp] theorem State.soon_held (s : State) (d : Due) : (s.soon d).held = s.held := rfl
@[simp] theorem State.soon_hub (s : State) (d : Due) : (s.soon d).hub = s.hub := rfl
@[simp] theorem State.soon_seq (s : State) (d : Due) : (s.soon d).seq = s.seq := rfl
@[simp] theorem State.soon_circuits (s : State) (d : Due) : (s.soon d).circuits = s.circuits := rfl
@[simp] theorem State.soon_eps (s : State) (d : Due) : (s.soon d).eps = s.eps := rfl
@[simp] theorem State.soon_lasers (s : State) (d : Due) : (s.soon d).lasers = s.lasers := rfl
@[simp] theorem State.soon_links (s : State) (d : Due) : (s.soon d).links = s.links := rfl
@[simp] theorem State.soon_groups (s : State) (d : Due) : (s.soon d).groups = s.groups := rfl
@[simp] theorem State.soon_reports (s : State) (d : Due) : (s.soon d).reports = s.reports := rfl
@[simp] theorem State.soon_tasks (s : State) (d : Due) : (s.soon d).tasks = s.tasks := rfl
@[simp] theorem State.soon_clock (s : State) (d : Due) : (s.soon d).clock = s.clock := rfl
@[simp] theorem State.soon_jumped (s : State) (d : Due) : (s.soon d).jumped = s.jumped := rfl
@[simp] theorem State.soon_module (s : State) (d : Due) : (s.soon d).module = s.module := rfl
@[simp] theorem State.soon_cur (s : State) (d : Due) : (s.soon d).cur = s.cur := rfl
@[simp] theorem State.soon_free (s : State) (d : Due) : (s.soon d).free = s.free := rfl
@[simp] theorem State.later_streams (s : State) (d : Due) : (s.later d).streams = s.streams := rfl
@[simp] theorem State.later_slots (s : State) (d : Due) : (s.later d).slots = s.slots := rfl
@[simp] theorem State.later_cores (s : State) (d : Due) : (s.later d).cores = s.cores := rfl
@[simp] theorem State.later_aux (s : State) (d : Due) : (s.later d).aux = s.aux := rfl
@[simp] theorem State.later_engines (s : State) (d : Due) : (s.later d).engines = s.engines := rfl
@[simp] theorem State.later_tiles (s : State) (d : Due) : (s.later d).tiles = s.tiles := rfl
@[simp] theorem State.later_linings (s : State) (d : Due) : (s.later d).linings = s.linings := rfl
@[simp] theorem State.later_tileLinings (s : State) (d : Due) : (s.later d).tileLinings = s.tileLinings := rfl
@[simp] theorem State.later_mem (s : State) (d : Due) : (s.later d).mem = s.mem := rfl
@[simp] theorem State.later_poison (s : State) (d : Due) : (s.later d).poison = s.poison := rfl
@[simp] theorem State.later_held (s : State) (d : Due) : (s.later d).held = s.held := rfl
@[simp] theorem State.later_hub (s : State) (d : Due) : (s.later d).hub = s.hub := rfl
@[simp] theorem State.later_seq (s : State) (d : Due) : (s.later d).seq = s.seq := rfl
@[simp] theorem State.later_circuits (s : State) (d : Due) : (s.later d).circuits = s.circuits := rfl
@[simp] theorem State.later_eps (s : State) (d : Due) : (s.later d).eps = s.eps := rfl
@[simp] theorem State.later_lasers (s : State) (d : Due) : (s.later d).lasers = s.lasers := rfl
@[simp] theorem State.later_links (s : State) (d : Due) : (s.later d).links = s.links := rfl
@[simp] theorem State.later_groups (s : State) (d : Due) : (s.later d).groups = s.groups := rfl
@[simp] theorem State.later_reports (s : State) (d : Due) : (s.later d).reports = s.reports := rfl
@[simp] theorem State.later_tasks (s : State) (d : Due) : (s.later d).tasks = s.tasks := rfl
@[simp] theorem State.later_clock (s : State) (d : Due) : (s.later d).clock = s.clock := rfl
@[simp] theorem State.later_jumped (s : State) (d : Due) : (s.later d).jumped = s.jumped := rfl
@[simp] theorem State.later_module (s : State) (d : Due) : (s.later d).module = s.module := rfl
@[simp] theorem State.later_cur (s : State) (d : Due) : (s.later d).cur = s.cur := rfl
@[simp] theorem State.later_free (s : State) (d : Due) : (s.later d).free = s.free := rfl

/-! ## Reads of objects -/

@[simp] theorem State.stream_setSlot (s : State) (k : Nat) (v : Slot) (j : Nat) : (s.setSlot k v).stream j = s.stream j := rfl
@[simp] theorem State.stream_setCore (s : State) (k : Nat) (v : Core) (j : Nat) : (s.setCore k v).stream j = s.stream j := rfl
@[simp] theorem State.stream_setAux (s : State) (k : Nat) (v : CoreAux) (j : Nat) : (s.setAux k v).stream j = s.stream j := rfl
@[simp] theorem State.stream_setTile (s : State) (k : Nat) (v : Tile) (j : Nat) : (s.setTile k v).stream j = s.stream j := rfl
@[simp] theorem State.stream_tick (s : State) (j : Nat) : (s.tick).stream j = s.stream j := rfl
@[simp] theorem State.stream_report (s : State) (d : Dest) (e : Event) (t k : Nat) (j : Nat) : (s.report d e t k).stream j = s.stream j := rfl
@[simp] theorem State.stream_soon (s : State) (d : Due) (j : Nat) : (s.soon d).stream j = s.stream j := rfl
@[simp] theorem State.stream_later (s : State) (d : Due) (j : Nat) : (s.later d).stream j = s.stream j := rfl
theorem State.stream_setStream (s : State) (k j : Nat) (v) : (s.setStream k v).stream j = if j = k then v else s.stream j := by
  simp [State.stream, State.setStream, Tab.get_set]
@[simp] theorem State.stream_setStream_same (s : State) (k : Nat) (v) : (s.setStream k v).stream k = v := by
  simp [State.stream, State.setStream]
@[simp] theorem State.stream_setStream_other (s : State) {k j : Nat} (h : j ≠ k) (v) : (s.setStream k v).stream j = s.stream j := by
  simp [State.stream, State.setStream, h]
@[simp] theorem State.slot_setStream (s : State) (k : Nat) (v : Stream) (j : Nat) : (s.setStream k v).slot j = s.slot j := rfl
@[simp] theorem State.slot_setCore (s : State) (k : Nat) (v : Core) (j : Nat) : (s.setCore k v).slot j = s.slot j := rfl
@[simp] theorem State.slot_setAux (s : State) (k : Nat) (v : CoreAux) (j : Nat) : (s.setAux k v).slot j = s.slot j := rfl
@[simp] theorem State.slot_setTile (s : State) (k : Nat) (v : Tile) (j : Nat) : (s.setTile k v).slot j = s.slot j := rfl
@[simp] theorem State.slot_tick (s : State) (j : Nat) : (s.tick).slot j = s.slot j := rfl
@[simp] theorem State.slot_report (s : State) (d : Dest) (e : Event) (t k : Nat) (j : Nat) : (s.report d e t k).slot j = s.slot j := rfl
@[simp] theorem State.slot_soon (s : State) (d : Due) (j : Nat) : (s.soon d).slot j = s.slot j := rfl
@[simp] theorem State.slot_later (s : State) (d : Due) (j : Nat) : (s.later d).slot j = s.slot j := rfl
theorem State.slot_setSlot (s : State) (k j : Nat) (v) : (s.setSlot k v).slot j = if j = k then v else s.slot j := by
  simp [State.slot, State.setSlot, Tab.get_set]
@[simp] theorem State.slot_setSlot_same (s : State) (k : Nat) (v) : (s.setSlot k v).slot k = v := by
  simp [State.slot, State.setSlot]
@[simp] theorem State.slot_setSlot_other (s : State) {k j : Nat} (h : j ≠ k) (v) : (s.setSlot k v).slot j = s.slot j := by
  simp [State.slot, State.setSlot, h]
@[simp] theorem State.core_setStream (s : State) (k : Nat) (v : Stream) (j : Nat) : (s.setStream k v).core j = s.core j := rfl
@[simp] theorem State.core_setSlot (s : State) (k : Nat) (v : Slot) (j : Nat) : (s.setSlot k v).core j = s.core j := rfl
@[simp] theorem State.core_setAux (s : State) (k : Nat) (v : CoreAux) (j : Nat) : (s.setAux k v).core j = s.core j := rfl
@[simp] theorem State.core_setTile (s : State) (k : Nat) (v : Tile) (j : Nat) : (s.setTile k v).core j = s.core j := rfl
@[simp] theorem State.core_tick (s : State) (j : Nat) : (s.tick).core j = s.core j := rfl
@[simp] theorem State.core_report (s : State) (d : Dest) (e : Event) (t k : Nat) (j : Nat) : (s.report d e t k).core j = s.core j := rfl
@[simp] theorem State.core_soon (s : State) (d : Due) (j : Nat) : (s.soon d).core j = s.core j := rfl
@[simp] theorem State.core_later (s : State) (d : Due) (j : Nat) : (s.later d).core j = s.core j := rfl
theorem State.core_setCore (s : State) (k j : Nat) (v) : (s.setCore k v).core j = if j = k then v else s.core j := by
  simp [State.core, State.setCore, Tab.get_set]
@[simp] theorem State.core_setCore_same (s : State) (k : Nat) (v) : (s.setCore k v).core k = v := by
  simp [State.core, State.setCore]
@[simp] theorem State.core_setCore_other (s : State) {k j : Nat} (h : j ≠ k) (v) : (s.setCore k v).core j = s.core j := by
  simp [State.core, State.setCore, h]
@[simp] theorem State.auxOf_setStream (s : State) (k : Nat) (v : Stream) (j : Nat) : (s.setStream k v).auxOf j = s.auxOf j := rfl
@[simp] theorem State.auxOf_setSlot (s : State) (k : Nat) (v : Slot) (j : Nat) : (s.setSlot k v).auxOf j = s.auxOf j := rfl
@[simp] theorem State.auxOf_setCore (s : State) (k : Nat) (v : Core) (j : Nat) : (s.setCore k v).auxOf j = s.auxOf j := rfl
@[simp] theorem State.auxOf_setTile (s : State) (k : Nat) (v : Tile) (j : Nat) : (s.setTile k v).auxOf j = s.auxOf j := rfl
@[simp] theorem State.auxOf_tick (s : State) (j : Nat) : (s.tick).auxOf j = s.auxOf j := rfl
@[simp] theorem State.auxOf_report (s : State) (d : Dest) (e : Event) (t k : Nat) (j : Nat) : (s.report d e t k).auxOf j = s.auxOf j := rfl
@[simp] theorem State.auxOf_soon (s : State) (d : Due) (j : Nat) : (s.soon d).auxOf j = s.auxOf j := rfl
@[simp] theorem State.auxOf_later (s : State) (d : Due) (j : Nat) : (s.later d).auxOf j = s.auxOf j := rfl
theorem State.auxOf_setAux (s : State) (k j : Nat) (v) : (s.setAux k v).auxOf j = if j = k then v else s.auxOf j := by
  simp [State.auxOf, State.setAux, Tab.get_set]
@[simp] theorem State.auxOf_setAux_same (s : State) (k : Nat) (v) : (s.setAux k v).auxOf k = v := by
  simp [State.auxOf, State.setAux]
@[simp] theorem State.auxOf_setAux_other (s : State) {k j : Nat} (h : j ≠ k) (v) : (s.setAux k v).auxOf j = s.auxOf j := by
  simp [State.auxOf, State.setAux, h]
@[simp] theorem State.tile_setStream (s : State) (k : Nat) (v : Stream) (j : Nat) : (s.setStream k v).tile j = s.tile j := rfl
@[simp] theorem State.tile_setSlot (s : State) (k : Nat) (v : Slot) (j : Nat) : (s.setSlot k v).tile j = s.tile j := rfl
@[simp] theorem State.tile_setCore (s : State) (k : Nat) (v : Core) (j : Nat) : (s.setCore k v).tile j = s.tile j := rfl
@[simp] theorem State.tile_setAux (s : State) (k : Nat) (v : CoreAux) (j : Nat) : (s.setAux k v).tile j = s.tile j := rfl
@[simp] theorem State.tile_tick (s : State) (j : Nat) : (s.tick).tile j = s.tile j := rfl
@[simp] theorem State.tile_report (s : State) (d : Dest) (e : Event) (t k : Nat) (j : Nat) : (s.report d e t k).tile j = s.tile j := rfl
@[simp] theorem State.tile_soon (s : State) (d : Due) (j : Nat) : (s.soon d).tile j = s.tile j := rfl
@[simp] theorem State.tile_later (s : State) (d : Due) (j : Nat) : (s.later d).tile j = s.tile j := rfl
theorem State.tile_setTile (s : State) (k j : Nat) (v) : (s.setTile k v).tile j = if j = k then v else s.tile j := by
  simp [State.tile, State.setTile, Tab.get_set]
@[simp] theorem State.tile_setTile_same (s : State) (k : Nat) (v) : (s.setTile k v).tile k = v := by
  simp [State.tile, State.setTile]
@[simp] theorem State.tile_setTile_other (s : State) {k j : Nat} (h : j ≠ k) (v) : (s.setTile k v).tile j = s.tile j := by
  simp [State.tile, State.setTile, h]

/-! ## The executing stream -/

@[simp] theorem State.superAt_setStream (s : State) (k : Nat) (v : Stream) (p : Place) :
    (s.setStream k v).superAt p = s.superAt p := rfl

/-- A write of a stream or bank keeps which of the two is in use. -/
@[simp] theorem State.superAt_setAt (s : State) (p : Place) (v : Stream) : (s.setAt p v).superAt p = s.superAt p := by
  unfold State.setAt
  split_ifs with h
  · simp [State.superAt] at h ⊢
  · rfl

/-- A read of the stream just written. -/
@[simp] theorem State.at_setAt (s : State) (p : Place) (v : Stream) : (s.setAt p v).at p = v := by
  rw [State.at, State.superAt_setAt]
  unfold State.setAt
  split_ifs with h <;> simp

theorem State.setAt_cur (s : State) (p : Place) (v : Stream) : (s.setAt p v).cur = s.cur := by
  unfold State.setAt; split_ifs <;> rfl

@[simp] theorem State.cur_setMe (s : State) (v : Stream) : (s.setMe v).cur = s.cur := State.setAt_cur s _ v

@[simp] theorem State.me_setMe (s : State) (v : Stream) : (s.setMe v).me = v := by
  unfold State.me; rw [State.cur_setMe]; exact State.at_setAt s s.cur v

/-- x0 reads zero (R17). -/
@[simp] theorem Stream.getX_zero (st : Stream) : st.getX 0#6 = 0 := by simp [Stream.getX]

/-- A register read after a register write (R17). -/
theorem Stream.getX_setX (st : Stream) (d r : Reg) (v : Word) :
    (st.setX d v).getX r = if r = 0#6 then 0 else if r = d then v else st.getX r := by
  unfold Stream.getX Stream.setX
  by_cases hr : r = 0#6
  · simp [hr]
  · by_cases hd : d = 0#6
    · have : r ≠ d := fun h => hr (h.trans hd)
      simp [hr, hd]
    · by_cases h : r = d
      · subst h; simp [hr]
      · have : r.toNat ≠ d.toNat := fun e => h (BitVec.eq_of_toNat_eq e)
        simp [hr, hd, h, this]

@[simp] theorem State.x_setX (s : State) (d r : Reg) (v : Word) :
    (s.setX d v).x r = if r = 0#6 then 0 else if r = d then v else s.x r := by
  simp [State.x, State.setX, Stream.getX_setX]

end Sys2Proof.Machine
end

