-- ==== Sys2Proof/Laws/Issue.lean ====
section
/-!
SUPPORT. What issue can do, said once: the four answers of a body, and the frame of a completion.
-/
namespace Sys2Proof.Machine

/-! ## Frames compose -/

theorem OtherStreamsKept.refl (s : State) : OtherStreamsKept s s :=
  ⟨rfl, fun _ _ => rfl, fun _ _ => rfl, rfl, by split_ifs <;> rfl⟩

theorem State.super_of_own {s t : State} (hc : t.cur = s.cur) (h : t.mySlot.rest = s.mySlot.rest) : t.super = s.super := by
  have h1 : t.mySlot.regs = s.mySlot.regs := by
    have := congrArg Slot.regs h
    exact this
  simp only [State.super, State.superAt, State.mySlot, hc] at *
  rw [h1]

theorem OtherStreamsKept.trans {s t u : State} (h : OtherStreamsKept s t) (g : OtherStreamsKept t u) : OtherStreamsKept s u := by
  have hs : t.super = s.super := State.super_of_own h.cur h.own
  refine ⟨g.cur.trans h.cur, ?_, ?_, g.own.trans h.own, ?_⟩
  · intro k hk
    rw [g.streams k (by rw [h.cur]; exact hk), h.streams k hk]
  · intro k hk
    rw [g.slots k (by rw [h.cur]; exact hk), h.slots k hk]
  · have hb := h.bank
    have gb := g.bank
    rw [hs, h.cur] at gb
    split_ifs at * <;> exact gb.trans hb

theorem OnlyStream.refl (s : State) : OnlyStream s s := ⟨OtherStreamsKept.refl s, rfl, fun _ => rfl⟩

theorem OnlyStream.trans {s t u : State} (h : OnlyStream s t) (g : OnlyStream t u) : OnlyStream s u :=
  ⟨h.toOtherStreamsKept.trans g.toOtherStreamsKept, g.outside.trans h.outside, fun a => (g.memory a).trans (h.memory a)⟩

theorem OnlyStream.setMe (s : State) (v : Stream) : OnlyStream s (s.setMe v) := by
  unfold State.setMe State.setAt
  split_ifs with h
  · refine ⟨⟨rfl, fun _ _ => rfl, fun k hk => by simp [hk], ?_, ?_⟩, rfl, fun _ => rfl⟩
    · simp [State.mySlot, Slot.rest]
    · simp [State.super, h]
  · refine ⟨⟨rfl, fun k hk => by simp [hk], fun _ _ => rfl, rfl, ?_⟩, rfl, fun _ => rfl⟩
    simp only [State.super, h]
    rfl

theorem OnlyStream.setTack (s : State) (v : Tab Nat) : OnlyStream s (s.setMySlot { s.mySlot with tack := v }) := by
  refine ⟨⟨rfl, fun _ _ => rfl, fun k hk => by simp [State.setMySlot, hk], ?_, ?_⟩, rfl, fun _ => rfl⟩
  · simp [State.mySlot, State.setMySlot, Slot.rest]
  · split_ifs
    · rfl
    · simp [State.mySlot, State.setMySlot]

theorem State.me_setTack (s : State) (v : Tab Nat) : (s.setMySlot { s.mySlot with tack := v }).me = s.me := by
  unfold State.me State.at State.setMySlot State.mySlot
  simp only [State.superAt, State.setSlot_cur, State.slot_setSlot_same, State.stream_setSlot]
  rfl

theorem OnlyStream.popped (s : State) (t : Tack) : OnlyStream s (s.popped t) := by
  unfold State.popped
  split_ifs
  · exact OnlyStream.setTack s _
  · exact OnlyStream.refl s

@[simp] theorem State.me_popped (s : State) (t : Tack) : (s.popped t).me = s.me := by
  unfold State.popped
  split_ifs
  · exact State.me_setTack s _
  · rfl

@[simp] theorem State.x_popped (s : State) (t : Tack) (r : Reg) : (s.popped t).x r = s.x r := by
  simp [State.x]

@[simp] theorem State.cur_popped (s : State) (t : Tack) : (s.popped t).cur = s.cur := (OnlyStream.popped s t).cur

/-! ## The answers of a body -/

/-- A ready word whose body completes. -/
theorem issueX_done {size : Nat} {t : Tack} {body : State → Eff} {s s2 : State} (h : Ready s t)
    (hb : body (s.popped t) = .done s2) : issueX size t body s = .next (s2.retireAt s.cur size t) := by
  obtain ⟨hp, hw⟩ := h
  unfold issueX
  have hq : (s.at s.cur).push = [] := hp
  simp only [hp, hq, ne_eq, not_true_eq_false, if_false]
  by_cases ht : t.w = true
  · have h0 : ¬ (s.slot s.cur.slotK).tackCount (wChannel s.cur.stream s.me) = 0 := Nat.pos_iff_ne_zero.1 (hw ht)
    simp only [State.popped, ht, if_true, State.setMySlot, State.mySlot] at hb
    simp only [ht, h0, Bool.true_and, decide_false, Bool.false_eq_true, if_false, if_true, hb]
  · simp only [Bool.not_eq_true] at ht
    simp only [State.popped, ht, Bool.false_eq_true, if_false] at hb
    simp only [ht, Bool.false_and, Bool.false_eq_true, if_false, hb]

/-- A ready word whose body transfers control. -/
theorem issueX_goto {size : Nat} {t : Tack} {body : State → Eff} {s s2 : State} {pc : Word} (h : Ready s t)
    (hb : body (s.popped t) = .goto pc s2) :
    issueX size t body s =
      .next ((s2.setAt s.cur { s2.at s.cur with pc := pc, block := none }).complete s.cur t (pChannel s.cur.stream (s2.at s.cur))) := by
  obtain ⟨hp, hw⟩ := h
  unfold issueX
  have hq : (s.at s.cur).push = [] := hp
  simp only [hp, hq, ne_eq, not_true_eq_false, if_false]
  by_cases ht : t.w = true
  · have h0 : ¬ (s.slot s.cur.slotK).tackCount (wChannel s.cur.stream s.me) = 0 := Nat.pos_iff_ne_zero.1 (hw ht)
    simp only [State.popped, ht, if_true, State.setMySlot, State.mySlot] at hb
    simp only [ht, h0, Bool.true_and, decide_false, Bool.false_eq_true, if_false, if_true, hb]
  · simp only [Bool.not_eq_true] at ht
    simp only [State.popped, ht, Bool.false_eq_true, if_false] at hb
    simp only [ht, Bool.false_and, Bool.false_eq_true, if_false, hb]

/-- A ready word whose body starts an operation that completes it later. -/
theorem issueX_held {size : Nat} {t : Tack} {body : State → Eff} {s s2 : State} (h : Ready s t)
    (hb : body (s.popped t) = .held s2) : issueX size t body s = .next s2 := by
  obtain ⟨hp, hw⟩ := h
  unfold issueX
  have hq : (s.at s.cur).push = [] := hp
  simp only [hp, hq, ne_eq, not_true_eq_false, if_false]
  by_cases ht : t.w = true
  · have h0 : ¬ (s.slot s.cur.slotK).tackCount (wChannel s.cur.stream s.me) = 0 := Nat.pos_iff_ne_zero.1 (hw ht)
    simp only [State.popped, ht, if_true, State.setMySlot, State.mySlot] at hb
    simp only [ht, h0, Bool.true_and, decide_false, Bool.false_eq_true, if_false, if_true, hb]
  · simp only [Bool.not_eq_true] at ht
    simp only [State.popped, ht, Bool.false_eq_true, if_false] at hb
    simp only [ht, Bool.false_and, Bool.false_eq_true, if_false, hb]

/-- A ready word that faults: the W token goes back and the fault is taken (R121). -/
theorem issueX_trap {size : Nat} {t : Tack} {body : State → Eff} {s s2 : State} {e : Event} (h : Ready s t)
    (hb : body (s.popped t) = .trap e s2) :
    issueX size t body s = .next
      ((if t.w then s2.setSlot s.cur.slotK ((s2.slot s.cur.slotK).addTack (wChannel s.cur.stream s.me) 1) else s2).syncFault s.cur e) := by
  obtain ⟨hp, hw⟩ := h
  unfold issueX
  have hq : (s.at s.cur).push = [] := hp
  simp only [hp, hq, ne_eq, not_true_eq_false, if_false]
  by_cases ht : t.w = true
  · have h0 : ¬ (s.slot s.cur.slotK).tackCount (wChannel s.cur.stream s.me) = 0 := Nat.pos_iff_ne_zero.1 (hw ht)
    simp only [State.popped, ht, if_true, State.setMySlot, State.mySlot] at hb
    simp only [ht, h0, Bool.true_and, decide_false, Bool.false_eq_true, if_false, if_true, hb]
  · simp only [Bool.not_eq_true] at ht
    simp only [State.popped, ht, Bool.false_eq_true, if_false] at hb
    simp only [ht, Bool.false_and, Bool.false_eq_true, if_false, hb]

/-! ## What completing leaves -/

theorem Stream.advance_x (st : Stream) (n : Nat) : (st.advance n).x = st.x := by
  unfold Stream.advance; dsimp only; split
  · split_ifs <;> rfl
  · rfl
theorem Stream.advance_fpflags (st : Stream) (n : Nat) : (st.advance n).fpflags = st.fpflags := by
  unfold Stream.advance; dsimp only; split
  · split_ifs <;> rfl
  · rfl
theorem Stream.advance_vlen (st : Stream) (n : Nat) : (st.advance n).vlen = st.vlen := by
  unfold Stream.advance; dsimp only; split
  · split_ifs <;> rfl
  · rfl
theorem Stream.advance_ended (st : Stream) (n : Nat) : (st.advance n).ended = st.ended := by
  unfold Stream.advance; dsimp only; split
  · split_ifs <;> rfl
  · rfl

/-- What completing an instruction does: the stream's own bookkeeping and the push. -/
theorem State.complete_frame (s : State) (t : Tack) (c : Nat) : OnlyStream s (s.complete s.cur t c) := by
  unfold State.complete
  have h := OnlyStream.setMe s { s.me with ext := none, blocked := false, stalled := none, ready := none, issued := s.clock, wait := none }
  change OnlyStream s (if t.p then _ else _)
  split_ifs
  · refine h.trans ?_
    set s1 := s.setMe { s.me with ext := none, blocked := false, stalled := none, ready := none, issued := s.clock, wait := none } with hs1
    have hc : s1.cur = s.cur := h.cur
    change OnlyStream s1 (s1.pushTack s.cur c)
    rw [← hc]
    unfold State.pushTack
    dsimp only
    split_ifs
    · exact OnlyStream.setTack s1 _
    · have h2 := OnlyStream.setMe s1 { s1.at s1.cur with push := (s1.at s1.cur).push ++ [c], stalled := some s1.clock }
      exact ⟨⟨h2.cur, h2.streams, h2.slots, h2.own, h2.bank⟩, h2.outside, h2.memory⟩
  · exact h

theorem State.complete_me (s : State) (t : Tack) (c : Nat) :
    let u := (s.complete s.cur t c).me
    u.x = s.me.x ∧ u.fpflags = s.me.fpflags ∧ u.vlen = s.me.vlen ∧ u.ended = s.me.ended ∧ u.ext = none ∧
      u.wait = none ∧ u.pc = s.me.pc ∧ u.block = s.me.block := by
  set v : Stream := { s.me with ext := none, blocked := false, stalled := none, ready := none, issued := s.clock, wait := none } with hv
  have e1 : s.complete s.cur t c = if t.p then (s.setMe v).pushTack s.cur c else s.setMe v := rfl
  have h0 : (s.setMe v).me = v := State.me_setMe s v
  have hc : (s.setMe v).cur = s.cur := State.cur_setMe s v
  rw [e1]
  split_ifs
  · unfold State.pushTack
    dsimp only
    split_ifs
    · have : ((s.setMe v).setSlot s.cur.slotK (((s.setMe v).slot s.cur.slotK).addTack c 1)).me = (s.setMe v).me := by
        have := State.me_setTack (s.setMe v) (((s.setMe v).mySlot.addTack c 1).tack)
        rw [← this]
        simp only [State.setMySlot, State.mySlot, hc]
        rfl
      rw [this, h0]
      exact ⟨rfl, rfl, rfl, rfl, rfl, rfl, rfl, rfl⟩
    · have h2 : (s.setMe v).at s.cur = v := State.at_setAt s s.cur v
      rw [h2]
      have key : ∀ (u : State) (w : Stream), u.cur = s.cur → ((u.setAt s.cur w).later (.pendingTackPush s.cur)).me = w := by
        intro u w hu
        have := State.me_setMe u w
        unfold State.setMe at this
        rw [hu] at this
        exact this
      have this := key (s.setMe v) { v with push := v.push ++ [c], stalled := some (s.setMe v).clock } hc
      rw [this]
      exact ⟨rfl, rfl, rfl, rfl, rfl, rfl, rfl, rfl⟩
  · rw [h0]; exact ⟨rfl, rfl, rfl, rfl, rfl, rfl, rfl, rfl⟩

/-- What retiring an instruction does. -/
theorem State.retire_frame (s : State) (n : Nat) (t : Tack) : OnlyStream s (s.retireAt s.cur n t) := by
  unfold State.retireAt
  have h := OnlyStream.setMe s (s.me.advance n)
  refine h.trans ?_
  have := State.complete_frame (s.setMe (s.me.advance n)) t (pChannel s.cur.stream (s.at s.cur))
  rw [State.cur_setMe] at this
  exact this

theorem State.retire_sequential (s : State) (n : Nat) (t : Tack) : Sequential s (s.retireAt s.cur n t) n s.x 0 := by
  have h := State.complete_me (s.setMe (s.me.advance n)) t (pChannel s.cur.stream (s.at s.cur))
  rw [State.cur_setMe, State.me_setMe] at h
  obtain ⟨h1, h2, h3, h4, h5, h6, h7, h8⟩ := h
  have e : s.retireAt s.cur n t = (s.setMe (s.me.advance n)).complete s.cur t (pChannel s.cur.stream (s.at s.cur)) := rfl
  rw [e]
  refine ⟨?_, ?_, ?_, ?_, h5, h6, h7, h8⟩
  · intro r
    simp only [State.x, Stream.getX]
    rw [h1, Stream.advance_x]
  · rw [h2, Stream.advance_fpflags]; simp
  · rw [h3, Stream.advance_vlen]
  · rw [h4, Stream.advance_ended]

/-- A body that keeps the stream's control state, then a completion. -/
theorem Sequential.of_retire {s s2 : State} (n : Nat) (t : Tack) {x : Reg → Word} {fl : BitVec 32} (hc : s2.cur = s.cur)
    (hx : ∀ r, s2.x r = x r) (hf : s2.me.fpflags = s.me.fpflags ||| fl) (hv : s2.me.vlen = s.me.vlen)
    (he : s2.me.ended = s.me.ended) (hpc : s2.me.pc = s.me.pc) (hbl : s2.me.block = s.me.block) :
    Sequential s (s2.retireAt s.cur n t) n x fl := by
  have h := State.retire_sequential s2 n t
  rw [hc] at h
  have ha : (s2.me.advance n).pc = (s.me.advance n).pc ∧ (s2.me.advance n).block = (s.me.advance n).block := by
    unfold Stream.advance
    simp only [hpc, hbl]
    split
    · split_ifs <;> exact ⟨rfl, rfl⟩
    · exact ⟨rfl, rfl⟩
  exact ⟨fun r => (h.x r).trans (hx r), by rw [h.fpflags, hf]; simp, h.vlen.trans hv, h.ended.trans he, h.ext, h.wait,
    h.pc.trans ha.1, h.block.trans ha.2⟩

/-! ## Register results -/

/-- An I-form or U-form result (R157, R158): the registers and the EXT a value reads are those the word finds. -/
theorem aluI_writes {t : Tack} {d : Reg} {f : State → Word} {s : State} (h : Ready s t)
    (hf : ∀ u : State, u.me = s.me → f u = f s) :
    ∃ u, aluI t d f s = .next u ∧ OnlyStream s u ∧ Sequential s u 4 (s.wrote d (f s)) 0 := by
  refine ⟨_, issueX_done h rfl, ?_, ?_⟩
  · refine ((OnlyStream.popped s t).trans (OnlyStream.setMe (s.popped t) ((s.popped t).me.setX d (f (s.popped t))))).trans ?_
    have := State.retire_frame ((s.popped t).setX d (f (s.popped t))) 4 t
    simpa only [State.setX, State.cur_setMe, State.cur_popped] using this
  · have hm : (s.popped t).me = s.me := State.me_popped s t
    refine Sequential.of_retire 4 t (by simp [State.setX]) ?_ ?_ ?_ ?_ ?_ ?_
    · intro r; rw [State.x_setX, hf _ hm, State.x_popped]; rfl
    all_goals
      simp only [State.setX, State.me_setMe, hm, Stream.setX]
      split_ifs <;> simp

/-- An R-form result (R156). -/
theorem aluR_writes {t : Tack} {d : Reg} {f : State → Word} {s : State} (h : Ready s t)
    (hf : ∀ u v : State, (∀ r, u.x r = v.x r) → f u = f v) :
    ∃ u, aluR t d f s = .next u ∧ OnlyStream s u ∧ Sequential s u 4 (s.wrote d (f s)) 0 := by
  set s0 := s.setMe { s.me with ext := none } with hs0
  have hm : s0.me = { s.me with ext := none } := State.me_setMe s _
  have hc : s0.cur = s.cur := State.cur_setMe s _
  have hx : ∀ r, s0.x r = s.x r := by intro r; simp only [State.x, hm, Stream.getX]
  have hsl : ∀ c, s0.mySlot.tackCount c = s.mySlot.tackCount c := by
    have := congrArg Slot.tack (show s0.mySlot = _ from rfl)
    intro c
    simp only [hs0, State.mySlot, State.setMe, State.setAt]
    split_ifs <;> simp [Slot.tackCount]
  have h0 : Ready s0 t := by
    refine ⟨by rw [hm]; exact h.1, fun w => ?_⟩
    rw [hsl, hc, hm]
    exact h.2 w
  obtain ⟨u, e, fr, sq⟩ := aluI_writes (d := d) (f := f) h0 (fun v hv => hf v s0 (fun r => by simp only [State.x, hv]))
  refine ⟨u, e, (OnlyStream.setMe s _).trans fr, ?_⟩
  have ha : (s0.me.advance 4).pc = (s.me.advance 4).pc ∧ (s0.me.advance 4).block = (s.me.advance 4).block := by
    rw [hm]; unfold Stream.advance; dsimp only
    split
    · split_ifs <;> exact ⟨rfl, rfl⟩
    · exact ⟨rfl, rfl⟩
  refine ⟨fun r => ?_, ?_, ?_, ?_, sq.ext, sq.wait, sq.pc.trans ha.1, sq.block.trans ha.2⟩
  · rw [sq.x r]; simp only [State.wrote, hx, hf s0 s hx]
  · rw [sq.fpflags, hm]
  · rw [sq.vlen, hm]
  · rw [sq.ended, hm]

end Sys2Proof.Machine
end

