-- ==== Sys2Proof/Laws/Memory.lean ====
section
/-!
SUPPORT. Laws of the memory: every memory operation keeps the canonical form, and what a byte reads as after
a run of bytes is stored.
-/
namespace Sys2Proof.Machine

theorem Memory.wf_nil : Memory.wf [] := ⟨List.Pairwise.nil, by intro e he; cases he⟩

/-- The bytes a filter keeps are canonical. -/
theorem Memory.wf_filter {m : Memory} (h : Memory.wf m) (p : Host.Cell → Bool) : Memory.wf (m.filter p) :=
  ⟨h.1.sublist (List.filter_sublist.map _), fun e he => h.2 e (List.mem_of_mem_filter he)⟩

theorem Memory.wf_zero {m : Memory} (h : Memory.wf m) (a n : Nat) : Memory.wf (m.zero a n) := Memory.wf_filter h _

theorem Memory.mem_cells {a : Nat} {bs : List Byte} {e : Host.Cell} (h : e ∈ Memory.cells a bs) :
    a ≤ e.1 ∧ e.1 < a + bs.length ∧ e.2 ≠ 0#8 := by
  induction bs generalizing a with
  | nil => simp [Memory.cells] at h
  | cons b r ih =>
    simp only [Memory.cells] at h
    split_ifs at h with hb
    · obtain ⟨h1, h2, h3⟩ := ih h
      simp only [List.length_cons]
      exact ⟨by omega, by omega, h3⟩
    · simp only [List.mem_cons] at h
      rcases h with rfl | h
      · simp only [List.length_cons]
        exact ⟨le_refl _, by omega, hb⟩
      · obtain ⟨h1, h2, h3⟩ := ih h
        simp only [List.length_cons]
        exact ⟨by omega, by omega, h3⟩

theorem Memory.wf_cells (a : Nat) (bs : List Byte) : Memory.wf (Memory.cells a bs) := by
  refine ⟨?_, fun e he => (Memory.mem_cells he).2.2⟩
  induction bs generalizing a with
  | nil => simp [Memory.cells]
  | cons b r ih =>
    simp only [Memory.cells]
    split_ifs
    · exact ih (a + 1)
    · simp only [List.map_cons, List.pairwise_cons]
      refine ⟨?_, ih (a + 1)⟩
      intro x hx
      obtain ⟨e, he, rfl⟩ := List.mem_map.1 hx
      exact (Memory.mem_cells he).1

/-- Three canonical parts in address order are canonical together. -/
theorem Memory.wf_append {l m r : Memory} {a b : Nat} (hl : Memory.wf l) (hm : Memory.wf m) (hr : Memory.wf r)
    (h1 : ∀ e ∈ l, e.1 < a) (h2 : ∀ e ∈ m, a ≤ e.1 ∧ e.1 < b) (h3 : ∀ e ∈ r, b ≤ e.1) (hab : a ≤ b) :
    Memory.wf (l ++ m ++ r) := by
  constructor
  · simp only [List.map_append]
    rw [List.pairwise_append, List.pairwise_append]
    refine ⟨⟨hl.1, hm.1, ?_⟩, hr.1, ?_⟩
    · intro x hx y hy
      obtain ⟨e, he, rfl⟩ := List.mem_map.1 hx
      obtain ⟨f, hf, rfl⟩ := List.mem_map.1 hy
      exact lt_of_lt_of_le (h1 e he) (h2 f hf).1
    · intro x hx y hy
      obtain ⟨f, hf, rfl⟩ := List.mem_map.1 hy
      rcases List.mem_append.1 hx with hx | hx
      · obtain ⟨e, he, rfl⟩ := List.mem_map.1 hx
        have := h1 e he; have := h3 f hf; omega
      · obtain ⟨e, he, rfl⟩ := List.mem_map.1 hx
        have := (h2 e he).2; have := h3 f hf; omega
  · intro e he
    simp only [List.mem_append] at he
    rcases he with (he | he) | he
    · exact hl.2 e he
    · exact hm.2 e he
    · exact hr.2 e he

theorem Memory.wf_writeBytes {m : Memory} (h : Memory.wf m) (a : Nat) (bs : List Byte) : Memory.wf (m.writeBytes a bs) := by
  unfold Memory.writeBytes
  refine Memory.wf_append (a := a) (b := a + bs.length) (Memory.wf_filter h _) (Memory.wf_cells a bs) (Memory.wf_filter h _) ?_ ?_ ?_ (by omega)
  · intro e he; simpa using (List.mem_filter.1 he).2
  · intro e he; exact ⟨(Memory.mem_cells he).1, (Memory.mem_cells he).2.1⟩
  · intro e he; simpa using (List.mem_filter.1 he).2

theorem Memory.wf_writeNat {m : Memory} (h : Memory.wf m) (a n v : Nat) : Memory.wf (m.writeNat a n v) :=
  Memory.wf_writeBytes h _ _

theorem Memory.wf_writeBits {m : Memory} (h : Memory.wf m) (b w v : Nat) : Memory.wf (m.writeBits b w v) :=
  Memory.wf_writeNat h _ _ _

theorem Memory.wf_writeSegs {m : Memory} (h : Memory.wf m) (segs : List (Nat × Nat)) (bs : List Byte) :
    Memory.wf (writeSegs m segs bs) := by
  induction segs generalizing m bs with
  | nil => exact h
  | cons e r ih => exact ih (Memory.wf_writeBytes h _ _) _

theorem Memory.wf_putBits {m : Memory} (h : Memory.wf m) (segs : List (Nat × Nat)) (sh w v : Nat) :
    Memory.wf (putBits m segs sh w v) := Memory.wf_writeSegs h _ _

theorem Memory.wf_spliceMem {src m : Memory} (hs : Memory.wf src) (h : Memory.wf m) (w : Nat) :
    Memory.wf (spliceMem src m w) := by
  unfold spliceMem
  refine Memory.wf_append (a := w) (b := w + 2 ^ 32) (Memory.wf_filter h _) (Memory.wf_filter hs _) (Memory.wf_filter h _) ?_ ?_ ?_ (by omega)
  · intro e he; simpa using (List.mem_filter.1 he).2
  · intro e he; simpa using (List.mem_filter.1 he).2
  · intro e he; simpa using (List.mem_filter.1 he).2

theorem Memory.wf_foldl_splice {src : Memory} (hs : Memory.wf src) (ws : List Nat) {m : Memory} (h : Memory.wf m) :
    Memory.wf (ws.foldl (spliceMem src) m) := by
  induction ws generalizing m with
  | nil => exact h
  | cons w r ih => exact ih (Memory.wf_spliceMem hs h w)

/-- Bytes moved to another place stay canonical. -/
theorem Memory.wf_moved {m : Memory} (h : Memory.wf m) (a b n : Nat) :
    Memory.wf ((m.filter (fun c => decide (a ≤ c.1) && decide (c.1 < a + n))).map (fun c => (c.1 - a + b, c.2))) := by
  have hf := Memory.wf_filter h (fun c => decide (a ≤ c.1) && decide (c.1 < a + n))
  refine ⟨?_, ?_⟩
  · have h1 := hf.1
    rw [List.map_map, List.pairwise_map]
    rw [List.pairwise_map] at h1
    refine h1.imp_of_mem ?_
    intro x y hx hy hxy
    have := (List.mem_filter.1 hx).2
    simp only [Bool.and_eq_true, decide_eq_true_eq, Function.comp_apply] at *
    omega
  · intro e he
    obtain ⟨c, hc, rfl⟩ := List.mem_map.1 he
    exact hf.2 c hc

theorem Memory.wf_copyRange {m : Memory} (h : Memory.wf m) (a b n : Nat) : Memory.wf (m.copyRange a b n) := by
  unfold Memory.copyRange
  refine Memory.wf_append (a := b) (b := b + n) (Memory.wf_filter h _) (Memory.wf_moved h a b n) (Memory.wf_filter h _) ?_ ?_ ?_ (by omega)
  · intro e he; simpa using (List.mem_filter.1 he).2
  · intro e he
    obtain ⟨c, hc, rfl⟩ := List.mem_map.1 he
    have := (List.mem_filter.1 hc).2
    simp only [Bool.and_eq_true, decide_eq_true_eq] at this
    simp only
    omega
  · intro e he; simpa using (List.mem_filter.1 he).2

/-! ## Reads -/

theorem Tab.get_append {α : Type} (d : α) (i : Nat) (l r : Tab α) (h : ∀ e ∈ l, e.1 ≠ i) :
    Tab.get d i (l ++ r) = Tab.get d i r := by
  induction l with
  | nil => rfl
  | cons e l ih =>
    obtain ⟨j, v⟩ := e
    have hj : j ≠ i := h (j, v) (by simp)
    simp only [List.cons_append, Tab.get, Ne.symm hj, if_false]
    exact ih (fun e he => h e (by simp [he]))

theorem Tab.get_filter {α : Type} (d : α) (i : Nat) (p : Nat → Bool) (t : Tab α) :
    Tab.get d i (t.filter (fun e => p e.1)) = if p i then Tab.get d i t else d := by
  induction t with
  | nil => simp [Tab.get]
  | cons e r ih =>
    obtain ⟨j, v⟩ := e
    simp only [List.filter_cons]
    by_cases hj : j = i
    · subst hj
      by_cases hp : p j
      · simp [hp, Tab.get]
      · simp only [hp, Bool.false_eq_true, if_false] at ih ⊢
        exact ih
    · by_cases hp : p j
      · simp only [hp, if_true, Tab.get, Ne.symm hj, if_false]; exact ih
      · simp only [hp, Bool.false_eq_true, if_false, Tab.get, Ne.symm hj]; exact ih

theorem Tab.get_append_some {α : Type} (d : α) (i : Nat) (l r : Tab α) (h : ∀ e ∈ r, e.1 ≠ i) :
    Tab.get d i (l ++ r) = Tab.get d i l := by
  induction l with
  | nil =>
    induction r with
    | nil => rfl
    | cons e r ih =>
      obtain ⟨j, v⟩ := e
      have hj : j ≠ i := h (j, v) (by simp)
      simp only [List.nil_append, Tab.get, Ne.symm hj, if_false]
      exact ih (fun e he => h e (by simp [he]))
  | cons e l ih =>
    obtain ⟨j, v⟩ := e
    simp only [List.cons_append, Tab.get, ih]

theorem Memory.readByte_cells (a i : Nat) (bs : List Byte) :
    Tab.get Memory.unlisted (a + i) (Memory.cells a bs) = bs.getD i 0#8 := by
  induction bs generalizing a i with
  | nil => simp [Memory.cells, Tab.get, Memory.unlisted]
  | cons b r ih =>
    simp only [Memory.cells]
    cases i with
    | zero =>
      split_ifs with hb
      · rw [show Tab.get Memory.unlisted (a + 0) (Memory.cells (a + 1) r) = Memory.unlisted from ?_]
        · simp [hb]
        · have := Tab.get_append (Memory.unlisted) (a + 0) (Memory.cells (a + 1) r) [] (by
            intro e he; have := (Memory.mem_cells he).1; omega)
          simpa [Tab.get] using this
      · simp [Tab.get]
    | succ n =>
      have e : a + (n + 1) = a + 1 + n := by omega
      split_ifs
      · rw [e, ih]; simp
      · simp only [Tab.get]
        rw [if_neg (by omega), e, ih]; simp

/-- A byte inside a stored run reads as stored. -/
theorem Memory.readByte_writeBytes_in (m : Memory) (a i : Nat) (bs : List Byte) (h : i < bs.length) :
    (m.writeBytes a bs).readByte (a + i) = bs.getD i 0#8 := by
  unfold Memory.readByte Memory.writeBytes
  rw [List.append_assoc, Tab.get_append, Tab.get_append_some, Memory.readByte_cells]
  · intro e he
    have := (List.mem_filter.1 he).2
    simp only [decide_eq_true_eq] at this
    omega
  · intro e he
    have := (List.mem_filter.1 he).2
    simp only [decide_eq_true_eq] at this
    omega

/-- A byte outside a stored run reads as before. -/
theorem Memory.readByte_writeBytes_out (m : Memory) (a x : Nat) (bs : List Byte) (h : x < a ∨ a + bs.length ≤ x) :
    (m.writeBytes a bs).readByte x = m.readByte x := by
  unfold Memory.readByte Memory.writeBytes
  rcases h with h | h
  · rw [List.append_assoc, Tab.get_append_some]
    · rw [Tab.get_filter (p := fun c => decide (c < a))]; simp [h]
    · intro e he
      rcases List.mem_append.1 he with he | he
      · have := (Memory.mem_cells he).1; omega
      · have := (List.mem_filter.1 he).2
        simp only [decide_eq_true_eq] at this
        omega
  · rw [Tab.get_append]
    · rw [Tab.get_filter (p := fun c => decide (a + bs.length ≤ c))]; simp [h]
    · intro e he
      rcases List.mem_append.1 he with he | he
      · have := (List.mem_filter.1 he).2
        simp only [decide_eq_true_eq] at this
        omega
      · have := (Memory.mem_cells he).2.1; omega

/-- A zero run reads 0 inside and as before outside. -/
theorem Memory.readByte_zero (m : Memory) (a n x : Nat) :
    (m.zero a n).readByte x = if a ≤ x ∧ x < a + n then 0#8 else m.readByte x := by
  unfold Memory.readByte Memory.zero
  rw [Tab.get_filter (p := fun c => !(decide (a ≤ c) && decide (c < a + n)))]
  by_cases h : a ≤ x ∧ x < a + n
  · simp [h, Memory.unlisted]
  · rw [if_neg h]
    have : (!(decide (a ≤ x) && decide (x < a + n))) = true := by
      simp only [Bool.not_eq_true', Bool.and_eq_false_iff, decide_eq_false_iff_not]
      omega
    simp [this]

/-- A run read is the bytes at its addresses. -/
theorem Memory.readBytes_eq (m : Memory) (a n : Nat) :
    m.readBytes a n = (List.range n).map (fun i => m.readByte (a + i)) := by
  unfold Memory.readBytes
  apply List.map_congr_left
  intro i hi
  have hi := List.mem_range.1 hi
  unfold Memory.readByte
  rw [Tab.get_filter (p := fun c => decide (a ≤ c) && decide (c < a + n))]
  have : (decide (a ≤ a + i) && decide (a + i < a + n)) = true := by simp; omega
  rw [if_pos this]

theorem reset_mem_wf : Memory.wf State.reset.mem := Memory.wf_nil

end Sys2Proof.Machine
end

