-- ==== Sys2Proof/Laws/PerInstr.lean ====
section
/-!
SUPPORT. Decoding what was encoded, instruction by instruction: the fields of a word read back as they were
packed, and for every constructor the decoder answers it on its own encoding.
-/
namespace Sys2Proof.Laws

/-! ## Fields of a word -/

theorem toNat_joined {n m : Nat} (x : BitVec n) (y : BitVec m) : (x ++ y).toNat = x.toNat * 2 ^ m + y.toNat := by
  rw [BitVec.toNat_append, ← Nat.shiftLeft_add_eq_or_of_lt y.isLt, Nat.shiftLeft_eq]

theorem field_eq {k s l : Nat} {x : BitVec k} {y : BitVec l} (h : x.toNat / 2 ^ s % 2 ^ l = y.toNat) :
    x.extractLsb' s l = y :=
  BitVec.eq_of_toNat_eq (by rw [BitVec.extractLsb'_toNat, Nat.shiftRight_eq_div_pow, h])

theorem bit_eq {k s : Nat} {x : BitVec k} {y : Bool} (h : x.toNat / 2 ^ s % 2 = y.toNat) : x.getLsbD s = y := by
  rw [BitVec.getLsbD, Nat.testBit_eq_decide_div_mod_eq, h]; cases y <;> rfl

theorem low_field {n m : Nat} (x : BitVec n) (y : BitVec m) : (x ++ y).extractLsb' 0 m = y :=
  field_eq (by rw [toNat_joined]; have := y.isLt; simp [Nat.mod_eq_of_lt this])

theorem low_bit (s : Bool) : (0#2 ++ BitVec.ofBool s : BitVec 3).getLsbD 0 = s := by cases s <;> rfl

theorem RWord_pack_toNat (r : RWord) : r.pack.toNat =
    ((((((r.f.toNat * 64 + r.b.toNat) * 64 + r.a.toNat) * 64 + r.d.toNat) * 2 + r.p.toNat) * 2 + r.w.toNat) * 256 +
      r.op.toNat) * 2 + 1 := by
  refine (toNat_joined _ _).trans ?_
  simp only [toNat_joined, BitVec.toNat_ofBool, BitVec.toNat_ofNat]
  omega

theorem RWord_unpack_pack (r : RWord) : RWord.unpack r.pack = r := by
  have h := RWord_pack_toNat r
  have hf := r.f.isLt
  have hb := r.b.isLt
  have ha := r.a.isLt
  have hd := r.d.isLt
  have ho := r.op.isLt
  have hp := r.p.toNat_lt
  have hw := r.w.toNat_lt
  obtain ⟨f, b, a, d, p, w, op⟩ := r
  simp only [RWord.unpack, RWord.mk.injEq]
  simp only at *
  refine ⟨field_eq ?_, field_eq ?_, field_eq ?_, field_eq ?_, bit_eq ?_, bit_eq ?_, field_eq ?_⟩ <;> rw [h] <;> omega

theorem imm15_ofU (imm : BitVec 15) (d : BitVec 6) (t : Tack) (op : BitVec 8) : (RWord.ofU imm d t op).imm15 = imm := by
  apply BitVec.eq_of_toNat_eq
  refine (toNat_joined _ _).trans ?_
  simp only [RWord.ofU, toNat_joined, BitVec.extractLsb'_toNat, Nat.shiftRight_eq_div_pow]
  omega

theorem imm9_ofI (imm : BitVec 9) (a d : BitVec 6) (t : Tack) (op : BitVec 8) : (RWord.ofI imm a d t op).imm9 = imm := by
  apply BitVec.eq_of_toNat_eq
  refine (toNat_joined _ _).trans ?_
  simp only [RWord.ofI, BitVec.extractLsb'_toNat, Nat.shiftRight_eq_div_pow]
  omega

theorem bytes_of_word32 (w : BitVec 32) : BitVec.ofNat 8 (w.toNat / 256 / 256 / 256) ++ BitVec.ofNat 8 (w.toNat / 256 / 256) ++
    BitVec.ofNat 8 (w.toNat / 256) ++ BitVec.ofNat 8 w.toNat = w := by
  apply BitVec.eq_of_toNat_eq
  refine (toNat_joined _ _).trans ?_
  simp only [toNat_joined, BitVec.toNat_ofNat]
  omega

theorem bytes_of_word16 (w : BitVec 16) : half16 (BitVec.ofNat 8 w.toNat) (BitVec.ofNat 8 (w.toNat / 256)) = w := by
  apply BitVec.eq_of_toNat_eq
  refine (toNat_joined _ _).trans ?_
  simp only [BitVec.toNat_ofNat]
  omega

theorem low_bit_of_byte (n : Nat) : (BitVec.ofNat 8 n).getLsbD 0 = decide (n % 2 = 1) := by
  rw [BitVec.getLsbD, Nat.testBit_eq_decide_div_mod_eq, BitVec.toNat_ofNat]
  congr 1
  apply propext
  omega

/-- A 32-bit word's bytes decode as the word does (R101). -/
theorem decode_word32 (w : BitVec 32) (rest : List Byte) (h : w.toNat % 2 = 1) :
    decode (leBytes 4 w.toNat ++ rest) = (decode32 w).map (fun i => (i, rest)) := by
  simp only [leBytes, List.cons_append, List.nil_append, decode, low_bit_of_byte, h, decide_true, if_true, bytes_of_word32]

/-- A compact word's bytes decode as the word does (R101). -/
theorem decode_word16 (w : BitVec 16) (rest : List Byte) (h : w.toNat % 2 = 0) :
    decode (leBytes 2 w.toNat ++ rest) = (decode16 w).map (fun i => (i, rest)) := by
  have h' : ¬ w.toNat % 2 = 1 := by omega
  simp only [leBytes, List.cons_append, List.nil_append, decode, low_bit_of_byte, h', decide_false, Bool.false_eq_true, if_false,
    bytes_of_word16]

end Sys2Proof.Laws

namespace Sys2Proof.Laws.RoundTrip

/-- Decoding the encoding of a well-formed instruction answers it, and leaves the bytes after its word. -/
def Statement (i : Instr) : Prop := i.wf = true →
  (∀ w rest, encode32 i = some w → decode (leBytes 4 w.toNat ++ rest) = .ok (i, rest)) ∧
  (∀ w rest, encode16 i = some w → decode (leBytes 2 w.toNat ++ rest) = .ok (i, rest)) ∧
  (∀ w, encodeSeq i = some w → decodeSeq w = .ok i)

theorem of32 {i : Instr} (w : BitVec 32) (h : encode32 i = some w) (h16 : encode16 i = none) (hs : encodeSeq i = none)
    (hb : w.toNat % 2 = 1) (hd : i.wf = true → decode32 w = .ok i) : Statement i := by
  intro hwf
  refine ⟨fun v rest e => ?_, fun v rest e => ?_, fun v e => ?_⟩
  · rw [h] at e; cases e; rw [decode_word32 w rest hb, hd hwf]; rfl
  · rw [h16] at e; cases e
  · rw [hs] at e; cases e

/-- The decoder of a row of major opcodes. -/
def rowOf : Nat → Nat → RWord → Option Instr
  | 0 => decodeRow0
  | 1 => decodeRow1
  | 2 => decodeRow2
  | 3 => decodeRow3
  | 4 => decodeRow4
  | 5 => decodeRow5
  | 6 => decodeRow6
  | 7 => decodeRow7
  | 8 => decodeRow8
  | 9 => decodeRow9
  | 10 => decodeRowA
  | _ => decodeRowB

theorem decodeOp_rowOf {r : RWord} {row lo : Nat} (ho : r.op = BitVec.ofNat 8 (16 * row + lo)) (hr : row < 12) (hl : lo < 16) :
    decodeOp r = rowOf row lo r := by
  have h : r.op.toNat = 16 * row + lo := by rw [ho, BitVec.toNat_ofNat]; omega
  have h1 : (16 * row + lo) / 16 = row := by omega
  have h2 : (16 * row + lo) % 16 = lo := by omega
  rw [decodeOp, h, h1, h2]
  interval_cases row <;> rfl

theorem ofR (row lo : Nat) {i : Instr} (r : RWord) (h : encode32 i = some r.pack) (h16 : encode16 i = none)
    (hs : encodeSeq i = none) (ho : r.op = BitVec.ofNat 8 (16 * row + lo))
    (hr : (decide (row < 12) && decide (lo < 16) && (decide (row ≠ 0) || (decide (lo ≠ 1) && decide (lo ≠ 2) && decide (lo ≠ 13)))) = true)
    (hd : rowOf row lo r = some i) : Statement i := by
  simp only [Bool.and_eq_true, Bool.or_eq_true, decide_eq_true_eq] at hr
  refine of32 r.pack h h16 hs (by rw [RWord_pack_toNat]; omega) (fun _ => ?_)
  have hop : r.pack.extractLsb' 1 8 = r.op := congrArg RWord.op (RWord_unpack_pack r)
  have hn : r.op.toNat = 16 * row + lo := by rw [ho, BitVec.toNat_ofNat]; omega
  have ne (k : BitVec 8) (hk : k.toNat ≠ 16 * row + lo) : ¬ r.op = k := by
    rintro rfl
    exact hk hn
  simp only [decode32, hop, if_neg (ne 0x01#8 (by simp only [BitVec.toNat_ofNat]; omega)),
    if_neg (ne 0x02#8 (by simp only [BitVec.toNat_ofNat]; omega)), if_neg (ne 0x0D#8 (by simp only [BitVec.toNat_ofNat]; omega)),
    RWord_unpack_pack, decodeOp_rowOf ho hr.1.1 hr.1.2, hd]

theorem of16 {i : Instr} (op d a : BitVec 5) (h : encode16 i = some (a ++ d ++ op ++ 0#1)) (h32 : encode32 i = none)
    (hs : encodeSeq i = none) (hd : ∀ w : BitVec 16, w.extractLsb' 1 5 = op → w.extractLsb' 6 5 = d →
      w.extractLsb' 11 5 = a → decode16 w = .ok i) : Statement i := by
  intro _
  refine ⟨fun v rest e => ?_, fun v rest e => ?_, fun v e => ?_⟩
  · rw [h32] at e; cases e
  · rw [h] at e; cases e
    have hn : (a ++ d ++ op ++ 0#1 : BitVec 16).toNat = ((a.toNat * 32 + d.toNat) * 32 + op.toNat) * 2 := by
      refine (toNat_joined _ _).trans ?_
      simp only [toNat_joined, BitVec.toNat_ofNat]
      omega
    have ha := a.isLt
    have hd' := d.isLt
    have ho := op.isLt
    rw [decode_word16 _ rest (by rw [hn]; omega),
      hd _ (field_eq (by rw [hn]; omega)) (field_eq (by rw [hn]; omega)) (field_eq (by rw [hn]; omega))]
    rfl
  · rw [hs] at e; cases e

theorem ofSeq {i : Instr} (w : BitVec 64) (h : encodeSeq i = some w) (h32 : encode32 i = none) (h16 : encode16 i = none)
    (hd : decodeSeq w = .ok i) : Statement i := by
  intro _
  refine ⟨fun v rest e => ?_, fun v rest e => ?_, fun v e => ?_⟩
  · rw [h32] at e; cases e
  · rw [h16] at e; cases e
  · rw [h] at e; cases e; exact hd

theorem ofEvent {i : Instr} (h32 : encode32 i = none) (h16 : encode16 i = none) (hs : encodeSeq i = none) : Statement i := by
  intro _
  refine ⟨fun v rest e => ?_, fun v rest e => ?_, fun v e => ?_⟩
  · rw [h32] at e; cases e
  · rw [h16] at e; cases e
  · rw [hs] at e; cases e

/-! ## One lemma per constructor -/

theorem decodeMake_encodeMake (op : BitVec 8) (w : MakeWord) :
    decodeMake (encodeMake op w) = w ∧ (encodeMake op w).extractLsb' 0 8 = op := by
  obtain ⟨circuit, stile, dmod, dtile, width1, minw1, span, rcore, rbob, route, rx⟩ := w
  have h : (encodeMake op ⟨circuit, stile, dmod, dtile, width1, minw1, span, rcore, rbob, route, rx⟩).toNat =
      (((((((((((stile.toNat * 64 + dmod.toNat) * 16 + dtile.toNat) * 16 + width1.toNat) * 16 + minw1.toNat) * 2 + span.toNat) * 8 +
        rcore.toNat) * 16 + rbob.toNat) * 512 + route.toNat) * 2 + rx.toNat) * 256 * 256 + circuit.toNat) * 256 + op.toNat) := by
    refine (toNat_joined _ _).trans ?_
    simp only [toNat_joined, BitVec.toNat_ofBool, BitVec.toNat_ofNat]
    omega
  have h1 := circuit.isLt
  have h2 := stile.isLt
  have h3 := dmod.isLt
  have h4 := dtile.isLt
  have h5 := width1.isLt
  have h6 := minw1.isLt
  have h7 := span.toNat_lt
  have h8 := rcore.isLt
  have h9 := rbob.isLt
  have h10 := route.isLt
  have h11 := rx.toNat_lt
  have h12 := op.isLt
  refine ⟨?_, field_eq (by rw [h]; omega)⟩
  simp only [decodeMake, MakeWord.mk.injEq]
  refine ⟨field_eq ?_, field_eq ?_, field_eq ?_, field_eq ?_, field_eq ?_, field_eq ?_, bit_eq ?_, field_eq ?_,
    field_eq ?_, field_eq ?_, bit_eq ?_⟩ <;> rw [h] <;> omega

theorem decodeSeq_sqMake (w : MakeWord) : decodeSeq (encodeMake 3#8 w) = .ok (.sqMake w) := by
  obtain ⟨h1, h2⟩ := decodeMake_encodeMake 3#8 w
  simp only [decodeSeq, h1, h2]
  rfl

theorem decodeSeq_sqTree (w : MakeWord) : decodeSeq (encodeMake 4#8 w) = .ok (.sqTree w) := by
  obtain ⟨h1, h2⟩ := decodeMake_encodeMake 4#8 w
  simp only [decodeSeq, h1, h2]
  rfl

theorem nop (t) : Statement (.nop t) :=
  ofR 0 0 ⟨0#3, 0#6, 0#6, 0#6, t.p, t.w, 0x00#8⟩ rfl rfl rfl rfl rfl rfl
theorem blk (rep : BitVec 6) (len : BitVec 9) (pp wp : BitVec 2) : Statement (.blk rep len pp wp) := by
  have h : (0#4 ++ rep ++ len ++ pp ++ wp ++ 0x01#8 ++ 1#1 : BitVec 32).toNat =
      ((((rep.toNat * 512 + len.toNat) * 4 + pp.toNat) * 4 + wp.toNat) * 256 + 1) * 2 + 1 := by
    refine (toNat_joined _ _).trans ?_
    simp only [toNat_joined, BitVec.toNat_ofNat]
    omega
  have h1 := rep.isLt
  have h2 := len.isLt
  have h3 := pp.isLt
  have h4 := wp.isLt
  have ho : (0#4 ++ rep ++ len ++ pp ++ wp ++ 0x01#8 ++ 1#1 : BitVec 32).extractLsb' 1 8 = 0x01#8 :=
    field_eq (by rw [h]; simp only [BitVec.toNat_ofNat]; omega)
  have e1 : (0#4 ++ rep ++ len ++ pp ++ wp ++ 0x01#8 ++ 1#1 : BitVec 32).extractLsb' 22 6 = rep := field_eq (by rw [h]; omega)
  have e2 : (0#4 ++ rep ++ len ++ pp ++ wp ++ 0x01#8 ++ 1#1 : BitVec 32).extractLsb' 13 9 = len := field_eq (by rw [h]; omega)
  have e3 : (0#4 ++ rep ++ len ++ pp ++ wp ++ 0x01#8 ++ 1#1 : BitVec 32).extractLsb' 11 2 = pp := field_eq (by rw [h]; omega)
  have e4 : (0#4 ++ rep ++ len ++ pp ++ wp ++ 0x01#8 ++ 1#1 : BitVec 32).extractLsb' 9 2 = wp := field_eq (by rw [h]; omega)
  refine of32 _ rfl rfl rfl (by rw [h]; omega) (fun hwf => ?_)
  simp only [Instr.wf, Bool.and_eq_true, decide_eq_true_eq] at hwf
  simp [decode32, ho, e1, e2, e3, e4, hwf]
theorem blkx (c : BitVec 6) (len : BitVec 9) (pp wp : BitVec 2) : Statement (.blkx c len pp wp) := by
  have h : (0#4 ++ c ++ len ++ pp ++ wp ++ 0x02#8 ++ 1#1 : BitVec 32).toNat =
      ((((c.toNat * 512 + len.toNat) * 4 + pp.toNat) * 4 + wp.toNat) * 256 + 2) * 2 + 1 := by
    refine (toNat_joined _ _).trans ?_
    simp only [toNat_joined, BitVec.toNat_ofNat]
    omega
  have h1 := c.isLt
  have h2 := len.isLt
  have h3 := pp.isLt
  have h4 := wp.isLt
  have ho : (0#4 ++ c ++ len ++ pp ++ wp ++ 0x02#8 ++ 1#1 : BitVec 32).extractLsb' 1 8 = 0x02#8 :=
    field_eq (by rw [h]; simp only [BitVec.toNat_ofNat]; omega)
  have e1 : (0#4 ++ c ++ len ++ pp ++ wp ++ 0x02#8 ++ 1#1 : BitVec 32).extractLsb' 22 6 = c := field_eq (by rw [h]; omega)
  have e2 : (0#4 ++ c ++ len ++ pp ++ wp ++ 0x02#8 ++ 1#1 : BitVec 32).extractLsb' 13 9 = len := field_eq (by rw [h]; omega)
  have e3 : (0#4 ++ c ++ len ++ pp ++ wp ++ 0x02#8 ++ 1#1 : BitVec 32).extractLsb' 11 2 = pp := field_eq (by rw [h]; omega)
  have e4 : (0#4 ++ c ++ len ++ pp ++ wp ++ 0x02#8 ++ 1#1 : BitVec 32).extractLsb' 9 2 = wp := field_eq (by rw [h]; omega)
  refine of32 _ rfl rfl rfl (by rw [h]; omega) (fun hwf => ?_)
  simp only [Instr.wf, decide_eq_true_eq] at hwf
  simp [decode32, ho, e1, e2, e3, e4, hwf]
theorem br (off t) : Statement (.br off t) :=
  ofR 0 3 (RWord.ofU off 0#6 t 0x03#8) rfl rfl rfl rfl rfl (congrArg (fun x => some (Instr.br x t)) (imm15_ofU off _ t _))
theorem bz (a off t) : Statement (.bz a off t) :=
  ofR 0 4 (RWord.ofU off a t 0x04#8) rfl rfl rfl rfl rfl (congrArg (fun x => some (Instr.bz a x t)) (imm15_ofU off _ t _))
theorem bnz (a off t) : Statement (.bnz a off t) :=
  ofR 0 5 (RWord.ofU off a t 0x05#8) rfl rfl rfl rfl rfl (congrArg (fun x => some (Instr.bnz a x t)) (imm15_ofU off _ t _))
theorem brx (a t) : Statement (.brx a t) :=
  ofR 0 6 ⟨0#3, 0#6, a, 0#6, t.p, t.w, 0x06#8⟩ rfl rfl rfl rfl rfl rfl
theorem call (off t) : Statement (.call off t) :=
  ofR 0 7 (RWord.ofU off 0#6 t 0x07#8) rfl rfl rfl rfl rfl (congrArg (fun x => some (Instr.call x t)) (imm15_ofU off _ t _))
theorem retB (t) : Statement (.retB t) :=
  ofR 0 8 ⟨0#3, 0#6, 0#6, 0#6, t.p, t.w, 0x08#8⟩ rfl rfl rfl rfl rfl rfl
theorem rend (mask : BitVec 5) (id : BitVec 3) (t : Tack) : Statement (.rend mask id t) := by
  have h : (0#7 ++ id ++ mask : BitVec 15).toNat = id.toNat * 32 + mask.toNat := by
    refine (toNat_joined _ _).trans ?_
    simp only [toNat_joined, BitVec.toNat_ofNat]
    omega
  have h1 := mask.isLt
  have h2 := id.isLt
  refine ofR 0 9 (RWord.ofU (0#7 ++ id ++ mask) 0#6 t 0x09#8) rfl rfl rfl rfl rfl ?_
  change some (Instr.rend _ _ t) = _
  rw [imm15_ofU, show (0#7 ++ id ++ mask : BitVec 15).extractLsb' 0 5 = mask from field_eq (by rw [h]; omega),
    show (0#7 ++ id ++ mask : BitVec 15).extractLsb' 5 3 = id from field_eq (by rw [h]; omega)]
theorem endS (t) : Statement (.endS t) :=
  ofR 0 10 ⟨0#3, 0#6, 0#6, 0#6, t.p, t.w, 0x0A#8⟩ rfl rfl rfl rfl rfl rfl
theorem yield (t) : Statement (.yield t) :=
  ofR 0 11 ⟨0#3, 0#6, 0#6, 0#6, t.p, t.w, 0x0B#8⟩ rfl rfl rfl rfl rfl rfl
theorem waitc (d : Reg) (n : BitVec 14) (t : Tack) : Statement (.waitc d n t) := by
  have h : (0#1 ++ n : BitVec 15).toNat = 0 * 16384 + n.toNat := by
    refine (toNat_joined _ _).trans ?_
    simp only [BitVec.toNat_ofNat]
    omega
  have h1 := n.isLt
  refine ofR 0 12 (RWord.ofU (0#1 ++ n) d t 0x0C#8) rfl rfl rfl rfl rfl ?_
  change (if (RWord.ofU _ _ _ _).imm15.getLsbD 14 then some (Instr.waitcS d _ t) else some (Instr.waitc d _ t)) = _
  rw [imm15_ofU, show (0#1 ++ n : BitVec 15).extractLsb' 0 14 = n from field_eq (by rw [h]; omega),
    show (0#1 ++ n : BitVec 15).getLsbD 14 = false from bit_eq (by rw [h]; simp only [Bool.toNat_false]; omega)]
  rfl
theorem waitcS (d : Reg) (n : BitVec 14) (t : Tack) : Statement (.waitcS d n t) := by
  have h : (1#1 ++ n : BitVec 15).toNat = 1 * 16384 + n.toNat := by
    refine (toNat_joined _ _).trans ?_
    simp only [BitVec.toNat_ofNat]
    omega
  have h1 := n.isLt
  refine ofR 0 12 (RWord.ofU (1#1 ++ n) d t 0x0C#8) rfl rfl rfl rfl rfl ?_
  change (if (RWord.ofU _ _ _ _).imm15.getLsbD 14 then some (Instr.waitcS d _ t) else some (Instr.waitc d _ t)) = _
  rw [imm15_ofU, show (1#1 ++ n : BitVec 15).extractLsb' 0 14 = n from field_eq (by rw [h]; omega),
    show (1#1 ++ n : BitVec 15).getLsbD 14 = true from bit_eq (by rw [h]; simp only [Bool.toNat_true]; omega)]
  rfl
theorem ext (imm : BitVec 23) : Statement (.ext imm) := by
  have h : (imm ++ 0x0D#8 ++ 1#1 : BitVec 32).toNat = (imm.toNat * 256 + 13) * 2 + 1 := by
    refine (toNat_joined _ _).trans ?_
    simp only [toNat_joined, BitVec.toNat_ofNat]
    omega
  have hi := imm.isLt
  have ho : (imm ++ 0x0D#8 ++ 1#1 : BitVec 32).extractLsb' 1 8 = 0x0D#8 := field_eq (by rw [h]; simp only [BitVec.toNat_ofNat]; omega)
  have he : (imm ++ 0x0D#8 ++ 1#1 : BitVec 32).extractLsb' 9 23 = imm := field_eq (by rw [h]; omega)
  exact of32 (imm ++ 0x0D#8 ++ 1#1) rfl rfl rfl (by rw [h]; omega) (fun _ => by simp only [decode32, ho, he]; rfl)
theorem trap (d imm t) : Statement (.trap d imm t) :=
  ofR 0 14 (RWord.ofU imm d t 0x0E#8) rfl rfl rfl rfl rfl (congrArg (fun x => some (Instr.trap d x t)) (imm15_ofU imm _ t _))
theorem sysc (d imm t) : Statement (.sysc d imm t) :=
  ofR 0 15 (RWord.ofU imm d t 0x0F#8) rfl rfl rfl rfl rfl (congrArg (fun x => some (Instr.sysc d x t)) (imm15_ofU imm _ t _))
theorem tkw (j : BitVec 2) (n1 : BitVec 3) (t : Tack) : Statement (.tkw j n1 t) := by
  have h : (0#4 ++ n1 ++ j : BitVec 9).toNat = n1.toNat * 4 + j.toNat := by
    refine (toNat_joined _ _).trans ?_
    simp only [toNat_joined, BitVec.toNat_ofNat]
    omega
  have h1 := n1.isLt
  have h2 := j.isLt
  refine ofR 1 0 (RWord.ofI (0#4 ++ n1 ++ j) 0#6 0#6 t 0x10#8) rfl rfl rfl rfl rfl ?_
  change some (Instr.tkw _ _ t) = _
  rw [imm9_ofI, show (0#4 ++ n1 ++ j : BitVec 9).extractLsb' 0 2 = j from field_eq (by rw [h]; omega),
    show (0#4 ++ n1 ++ j : BitVec 9).extractLsb' 2 3 = n1 from field_eq (by rw [h]; omega)]
theorem tkp (j : BitVec 2) (n1 : BitVec 3) (t : Tack) : Statement (.tkp j n1 t) := by
  have h : (0#4 ++ n1 ++ j : BitVec 9).toNat = n1.toNat * 4 + j.toNat := by
    refine (toNat_joined _ _).trans ?_
    simp only [toNat_joined, BitVec.toNat_ofNat]
    omega
  have h1 := n1.isLt
  have h2 := j.isLt
  refine ofR 1 1 (RWord.ofI (0#4 ++ n1 ++ j) 0#6 0#6 t 0x11#8) rfl rfl rfl rfl rfl ?_
  change some (Instr.tkp _ _ t) = _
  rw [imm9_ofI, show (0#4 ++ n1 ++ j : BitVec 9).extractLsb' 0 2 = j from field_eq (by rw [h]; omega),
    show (0#4 ++ n1 ++ j : BitVec 9).extractLsb' 2 3 = n1 from field_eq (by rw [h]; omega)]
theorem semw (d a sel t) : Statement (.semw d a sel t) :=
  ofR 1 2 (RWord.ofI sel a d t 0x12#8) rfl rfl rfl rfl rfl (congrArg (fun x => some (Instr.semw d a x t)) (imm9_ofI sel _ _ t _))
theorem sema (d a sel t) : Statement (.sema d a sel t) :=
  ofR 1 3 (RWord.ofI sel a d t 0x13#8) rfl rfl rfl rfl rfl (congrArg (fun x => some (Instr.sema d a x t)) (imm9_ofI sel _ _ t _))
theorem sems (a sel t) : Statement (.sems a sel t) :=
  ofR 1 4 (RWord.ofI sel a 0#6 t 0x14#8) rfl rfl rfl rfl rfl (by
    simp [rowOf, decodeRow1, RWord.t, imm9_ofI]
    simp [RWord.ofI])
theorem semsDisarm (a sel t) : Statement (.semsDisarm a sel t) :=
  ofR 1 4 (RWord.ofI sel a 1#6 t 0x14#8) rfl rfl rfl rfl rfl (by
    simp [rowOf, decodeRow1, RWord.t, imm9_ofI]
    simp [RWord.ofI])
theorem semo (sel t) : Statement (.semo sel t) :=
  ofR 1 5 (RWord.ofI sel 0#6 0#6 t 0x15#8) rfl rfl rfl rfl rfl (congrArg (fun x => some (Instr.semo x t)) (imm9_ofI sel _ _ t _))
theorem semrd (d sel t) : Statement (.semrd d sel t) :=
  ofR 1 6 (RWord.ofI sel 0#6 d t 0x16#8) rfl rfl rfl rfl rfl (congrArg (fun x => some (Instr.semrd d x t)) (imm9_ofI sel _ _ t _))
theorem fence (scope : BitVec 3) (t : Tack) : Statement (.fence scope t) := by
  refine ofR 1 7 (RWord.ofU (0#12 ++ scope) 0#6 t 0x17#8) rfl rfl rfl rfl rfl ?_
  change some (Instr.fence ((RWord.ofU _ _ _ _).imm15.extractLsb' 0 3) t) = _
  rw [imm15_ofU, show (0#12 ++ scope : BitVec 15).extractLsb' 0 3 = scope from low_field 0#12 scope]
theorem acq (t) : Statement (.acq t) :=
  ofR 1 8 ⟨0#3, 0#6, 0#6, 0#6, t.p, t.w, 0x18#8⟩ rfl rfl rfl rfl rfl (by
    simp [rowOf, decodeRow1, RWord.t])
theorem acqR (d m t) : Statement (.acqR d m t) :=
  ofR 1 8 ⟨1#3, m.x, m.h, d, t.p, t.w, 0x18#8⟩ rfl rfl rfl rfl rfl (by
    simp [rowOf, decodeRow1, RWord.t])
theorem rel (scope : BitVec 3) (t : Tack) : Statement (.rel scope t) := by
  refine ofR 1 9 (RWord.ofU (0#12 ++ scope) 0#6 t 0x19#8) rfl rfl rfl rfl rfl ?_
  change some (Instr.rel ((RWord.ofU _ _ _ _).imm15.extractLsb' 0 3) t) = _
  rw [imm15_ofU, show (0#12 ++ scope : BitVec 15).extractLsb' 0 3 = scope from low_field 0#12 scope]
theorem pfenRetain (t) : Statement (.pfenRetain t) :=
  ofR 1 10 (RWord.ofU 0#15 0#6 t 0x1A#8) rfl rfl rfl rfl rfl (by
    simp [rowOf, decodeRow1, RWord.t, imm15_ofU]
    simp [RWord.ofU])
theorem pfenLining (t) : Statement (.pfenLining t) :=
  ofR 1 10 (RWord.ofU 1#15 0#6 t 0x1A#8) rfl rfl rfl rfl rfl (by
    simp [rowOf, decodeRow1, RWord.t, imm15_ofU]
    simp [RWord.ofU])
theorem semwa (d a b f t) : Statement (.semwa d a b f t) :=
  ofR 1 11 ⟨f, b, a, d, t.p, t.w, 0x1B#8⟩ rfl rfl rfl rfl rfl rfl
theorem rdcyc (d t) : Statement (.rdcyc d t) :=
  ofR 1 12 ⟨0#3, 0#6, 0#6, d, t.p, t.w, 0x1C#8⟩ rfl rfl rfl rfl rfl (by
    simp [rowOf, decodeRow1, RWord.t])
theorem rdcycS (d t) : Statement (.rdcycS d t) :=
  ofR 1 12 ⟨1#3, 0#6, 0#6, d, t.p, t.w, 0x1C#8⟩ rfl rfl rfl rfl rfl (by
    simp [rowOf, decodeRow1, RWord.t])
theorem rdid (d t) : Statement (.rdid d t) :=
  ofR 1 13 ⟨0#3, 0#6, 0#6, d, t.p, t.w, 0x1D#8⟩ rfl rfl rfl rfl rfl rfl
theorem prio (d a t) : Statement (.prio d a t) :=
  ofR 1 14 ⟨0#3, 0#6, a, d, t.p, t.w, 0x1E#8⟩ rfl rfl rfl rfl rfl rfl
theorem linept (d t) : Statement (.linept d t) :=
  ofR 1 15 ⟨0#3, 0#6, 0#6, d, t.p, t.w, 0x1F#8⟩ rfl rfl rfl rfl rfl rfl
theorem addR (d a b t) : Statement (.addR d a b t) :=
  ofR 2 0 ⟨0#3, b, a, d, t.p, t.w, 0x20#8⟩ rfl rfl rfl rfl rfl rfl
theorem subR (d a b t) : Statement (.subR d a b t) :=
  ofR 2 1 ⟨0#3, b, a, d, t.p, t.w, 0x21#8⟩ rfl rfl rfl rfl rfl rfl
theorem mulR (d a b t) : Statement (.mulR d a b t) :=
  ofR 2 2 ⟨0#3, b, a, d, t.p, t.w, 0x22#8⟩ rfl rfl rfl rfl rfl rfl
theorem mulh (d a b t) : Statement (.mulh d a b t) :=
  ofR 2 3 ⟨0#3, b, a, d, t.p, t.w, 0x23#8⟩ rfl rfl rfl rfl rfl rfl
theorem mulhu (d a b t) : Statement (.mulhu d a b t) :=
  ofR 2 4 ⟨0#3, b, a, d, t.p, t.w, 0x24#8⟩ rfl rfl rfl rfl rfl rfl
theorem divI (d a b t) : Statement (.divI d a b t) :=
  ofR 2 5 ⟨0#3, b, a, d, t.p, t.w, 0x25#8⟩ rfl rfl rfl rfl rfl rfl
theorem divu (d a b t) : Statement (.divu d a b t) :=
  ofR 2 6 ⟨0#3, b, a, d, t.p, t.w, 0x26#8⟩ rfl rfl rfl rfl rfl rfl
theorem remI (d a b t) : Statement (.remI d a b t) :=
  ofR 2 7 ⟨0#3, b, a, d, t.p, t.w, 0x27#8⟩ rfl rfl rfl rfl rfl rfl
theorem remu (d a b t) : Statement (.remu d a b t) :=
  ofR 2 8 ⟨0#3, b, a, d, t.p, t.w, 0x28#8⟩ rfl rfl rfl rfl rfl rfl
theorem andR (d a b t) : Statement (.andR d a b t) :=
  ofR 2 9 ⟨0#3, b, a, d, t.p, t.w, 0x29#8⟩ rfl rfl rfl rfl rfl rfl
theorem orR (d a b t) : Statement (.orR d a b t) :=
  ofR 2 10 ⟨0#3, b, a, d, t.p, t.w, 0x2A#8⟩ rfl rfl rfl rfl rfl rfl
theorem xorR (d a b t) : Statement (.xorR d a b t) :=
  ofR 2 11 ⟨0#3, b, a, d, t.p, t.w, 0x2B#8⟩ rfl rfl rfl rfl rfl rfl
theorem shl (d a b t) : Statement (.shl d a b t) :=
  ofR 2 12 ⟨0#3, b, a, d, t.p, t.w, 0x2C#8⟩ rfl rfl rfl rfl rfl rfl
theorem shrl (d a b t) : Statement (.shrl d a b t) :=
  ofR 2 13 ⟨0#3, b, a, d, t.p, t.w, 0x2D#8⟩ rfl rfl rfl rfl rfl rfl
theorem shra (d a b t) : Statement (.shra d a b t) :=
  ofR 2 14 ⟨0#3, b, a, d, t.p, t.w, 0x2E#8⟩ rfl rfl rfl rfl rfl rfl
theorem minS (d a b t) : Statement (.minS d a b t) :=
  ofR 2 15 ⟨0#3, b, a, d, t.p, t.w, 0x2F#8⟩ rfl rfl rfl rfl rfl rfl
theorem maxS (d a b t) : Statement (.maxS d a b t) :=
  ofR 3 0 ⟨0#3, b, a, d, t.p, t.w, 0x30#8⟩ rfl rfl rfl rfl rfl rfl
theorem minu (d a b t) : Statement (.minu d a b t) :=
  ofR 3 1 ⟨0#3, b, a, d, t.p, t.w, 0x31#8⟩ rfl rfl rfl rfl rfl rfl
theorem maxu (d a b t) : Statement (.maxu d a b t) :=
  ofR 3 2 ⟨0#3, b, a, d, t.p, t.w, 0x32#8⟩ rfl rfl rfl rfl rfl rfl
theorem seq (d a b t) : Statement (.seq d a b t) :=
  ofR 3 3 ⟨0#3, b, a, d, t.p, t.w, 0x33#8⟩ rfl rfl rfl rfl rfl rfl
theorem slt (d a b t) : Statement (.slt d a b t) :=
  ofR 3 4 ⟨0#3, b, a, d, t.p, t.w, 0x34#8⟩ rfl rfl rfl rfl rfl rfl
theorem sltu (d a b t) : Statement (.sltu d a b t) :=
  ofR 3 5 ⟨0#3, b, a, d, t.p, t.w, 0x35#8⟩ rfl rfl rfl rfl rfl rfl
theorem sel (d a b t) : Statement (.sel d a b t) :=
  ofR 3 6 ⟨0#3, b, a, d, t.p, t.w, 0x36#8⟩ rfl rfl rfl rfl rfl rfl
theorem clz (d a t) : Statement (.clz d a t) :=
  ofR 3 7 ⟨0#3, 0#6, a, d, t.p, t.w, 0x37#8⟩ rfl rfl rfl rfl rfl rfl
theorem addi (d a imm t) : Statement (.addi d a imm t) :=
  ofR 3 8 (RWord.ofI imm a d t 0x38#8) rfl rfl rfl rfl rfl (congrArg (fun x => some (Instr.addi d a x t)) (imm9_ofI imm _ _ t _))
theorem andi (d a imm t) : Statement (.andi d a imm t) :=
  ofR 3 9 (RWord.ofI imm a d t 0x39#8) rfl rfl rfl rfl rfl (congrArg (fun x => some (Instr.andi d a x t)) (imm9_ofI imm _ _ t _))
theorem ori (d a imm t) : Statement (.ori d a imm t) :=
  ofR 3 10 (RWord.ofI imm a d t 0x3A#8) rfl rfl rfl rfl rfl (congrArg (fun x => some (Instr.ori d a x t)) (imm9_ofI imm _ _ t _))
theorem xori (d a imm t) : Statement (.xori d a imm t) :=
  ofR 3 11 (RWord.ofI imm a d t 0x3B#8) rfl rfl rfl rfl rfl (congrArg (fun x => some (Instr.xori d a x t)) (imm9_ofI imm _ _ t _))
theorem shli (d a imm t) : Statement (.shli d a imm t) :=
  ofR 3 12 (RWord.ofI imm a d t 0x3C#8) rfl rfl rfl rfl rfl (congrArg (fun x => some (Instr.shli d a x t)) (imm9_ofI imm _ _ t _))
theorem shrli (d a imm t) : Statement (.shrli d a imm t) :=
  ofR 3 13 (RWord.ofI imm a d t 0x3D#8) rfl rfl rfl rfl rfl (congrArg (fun x => some (Instr.shrli d a x t)) (imm9_ofI imm _ _ t _))
theorem shrai (d a imm t) : Statement (.shrai d a imm t) :=
  ofR 3 14 (RWord.ofI imm a d t 0x3E#8) rfl rfl rfl rfl rfl (congrArg (fun x => some (Instr.shrai d a x t)) (imm9_ofI imm _ _ t _))
theorem slti (d a imm t) : Statement (.slti d a imm t) :=
  ofR 3 15 (RWord.ofI imm a d t 0x3F#8) rfl rfl rfl rfl rfl (congrArg (fun x => some (Instr.slti d a x t)) (imm9_ofI imm _ _ t _))
theorem li (d imm t) : Statement (.li d imm t) :=
  ofR 4 0 (RWord.ofU imm d t 0x40#8) rfl rfl rfl rfl rfl (congrArg (fun x => some (Instr.li d x t)) (imm15_ofU imm _ t _))
theorem lih (d imm t) : Statement (.lih d imm t) :=
  ofR 4 1 (RWord.ofU imm d t 0x41#8) rfl rfl rfl rfl rfl (congrArg (fun x => some (Instr.lih d x t)) (imm15_ofU imm _ t _))
theorem popc (d a t) : Statement (.popc d a t) :=
  ofR 4 2 ⟨0#3, 0#6, a, d, t.p, t.w, 0x42#8⟩ rfl rfl rfl rfl rfl rfl
theorem bfx (d a b signed t) : Statement (.bfx d a b signed t) :=
  ofR 4 3 ⟨(0#2 ++ BitVec.ofBool signed), b, a, d, t.p, t.w, 0x43#8⟩ rfl rfl rfl rfl rfl (congrArg (fun x => some (Instr.bfx d a b x t)) (low_bit signed))
theorem bfi (d a b t) : Statement (.bfi d a b t) :=
  ofR 4 4 ⟨0#3, b, a, d, t.p, t.w, 0x44#8⟩ rfl rfl rfl rfl rfl rfl
theorem muli (d a imm t) : Statement (.muli d a imm t) :=
  ofR 4 5 (RWord.ofI imm a d t 0x45#8) rfl rfl rfl rfl rfl (congrArg (fun x => some (Instr.muli d a x t)) (imm9_ofI imm _ _ t _))
theorem clamp (d a b uns t) : Statement (.clamp d a b uns t) :=
  ofR 4 6 ⟨(0#2 ++ BitVec.ofBool uns), b, a, d, t.p, t.w, 0x46#8⟩ rfl rfl rfl rfl rfl (congrArg (fun x => some (Instr.clamp d a b x t)) (low_bit uns))
theorem rndc (d a b t) : Statement (.rndc d a b t) :=
  ofR 4 7 ⟨0#3, b, a, d, t.p, t.w, 0x47#8⟩ rfl rfl rfl rfl rfl rfl
theorem ldb (d m f t) : Statement (.ldb d m f t) :=
  ofR 4 8 ⟨f, m.x, m.h, d, t.p, t.w, 0x48#8⟩ rfl rfl rfl rfl rfl rfl
theorem ldh (d m f t) : Statement (.ldh d m f t) :=
  ofR 4 9 ⟨f, m.x, m.h, d, t.p, t.w, 0x49#8⟩ rfl rfl rfl rfl rfl rfl
theorem ldw (d m f t) : Statement (.ldw d m f t) :=
  ofR 4 10 ⟨f, m.x, m.h, d, t.p, t.w, 0x4A#8⟩ rfl rfl rfl rfl rfl rfl
theorem ldd (d m f t) : Statement (.ldd d m f t) :=
  ofR 4 11 ⟨f, m.x, m.h, d, t.p, t.w, 0x4B#8⟩ rfl rfl rfl rfl rfl rfl
theorem ldbs (d m f t) : Statement (.ldbs d m f t) :=
  ofR 4 12 ⟨f, m.x, m.h, d, t.p, t.w, 0x4C#8⟩ rfl rfl rfl rfl rfl rfl
theorem ldhs (d m f t) : Statement (.ldhs d m f t) :=
  ofR 4 13 ⟨f, m.x, m.h, d, t.p, t.w, 0x4D#8⟩ rfl rfl rfl rfl rfl rfl
theorem ldws (d m f t) : Statement (.ldws d m f t) :=
  ofR 4 14 ⟨f, m.x, m.h, d, t.p, t.w, 0x4E#8⟩ rfl rfl rfl rfl rfl rfl
theorem stb (d m f t) : Statement (.stb d m f t) :=
  ofR 4 15 ⟨f, m.x, m.h, d, t.p, t.w, 0x4F#8⟩ rfl rfl rfl rfl rfl rfl
theorem sth (d m f t) : Statement (.sth d m f t) :=
  ofR 5 0 ⟨f, m.x, m.h, d, t.p, t.w, 0x50#8⟩ rfl rfl rfl rfl rfl rfl
theorem stw (d m f t) : Statement (.stw d m f t) :=
  ofR 5 1 ⟨f, m.x, m.h, d, t.p, t.w, 0x51#8⟩ rfl rfl rfl rfl rfl rfl
theorem std (d m f t) : Statement (.std d m f t) :=
  ofR 5 2 ⟨f, m.x, m.h, d, t.p, t.w, 0x52#8⟩ rfl rfl rfl rfl rfl rfl
theorem hld (d a imm t) : Statement (.hld d a imm t) :=
  ofR 5 3 (RWord.ofI imm a d t 0x53#8) rfl rfl rfl rfl rfl (congrArg (fun x => some (Instr.hld d a x t)) (imm9_ofI imm _ _ t _))
theorem hinfo (d a f t) : Statement (.hinfo d a f t) :=
  ofR 5 4 ⟨f, 0#6, a, d, t.p, t.w, 0x54#8⟩ rfl rfl rfl rfl rfl rfl
theorem hsub (d a b f t) : Statement (.hsub d a b f t) :=
  ofR 5 5 ⟨f, b, a, d, t.p, t.w, 0x55#8⟩ rfl rfl rfl rfl rfl rfl
theorem pref (m t) : Statement (.pref m t) :=
  ofR 5 6 ⟨0#3, m.x, m.h, 0#6, t.p, t.w, 0x56#8⟩ rfl rfl rfl rfl rfl (by
    simp [rowOf, decodeRow5, RWord.t])
theorem prefL2 (m t) : Statement (.prefL2 m t) :=
  ofR 5 6 ⟨1#3, m.x, m.h, 0#6, t.p, t.w, 0x56#8⟩ rfl rfl rfl rfl rfl (by
    simp [rowOf, decodeRow5, RWord.t])
theorem cinv (d m t) : Statement (.cinv d m t) :=
  ofR 5 7 ⟨0#3, m.x, m.h, d, t.p, t.w, 0x57#8⟩ rfl rfl rfl rfl rfl (by
    simp [rowOf, decodeRow5, RWord.t])
theorem cinvL2 (d m t) : Statement (.cinvL2 d m t) :=
  ofR 5 7 ⟨1#3, m.x, m.h, d, t.p, t.w, 0x57#8⟩ rfl rfl rfl rfl rfl (by
    simp [rowOf, decodeRow5, RWord.t])
theorem aadd (d m f t) : Statement (.aadd d m f t) :=
  ofR 5 8 ⟨f, m.x, m.h, d, t.p, t.w, 0x58#8⟩ rfl rfl rfl rfl rfl rfl
theorem amin (d m f t) : Statement (.amin d m f t) :=
  ofR 5 9 ⟨f, m.x, m.h, d, t.p, t.w, 0x59#8⟩ rfl rfl rfl rfl rfl rfl
theorem amax (d m f t) : Statement (.amax d m f t) :=
  ofR 5 10 ⟨f, m.x, m.h, d, t.p, t.w, 0x5A#8⟩ rfl rfl rfl rfl rfl rfl
theorem aminu (d m f t) : Statement (.aminu d m f t) :=
  ofR 5 11 ⟨f, m.x, m.h, d, t.p, t.w, 0x5B#8⟩ rfl rfl rfl rfl rfl rfl
theorem amaxu (d m f t) : Statement (.amaxu d m f t) :=
  ofR 5 12 ⟨f, m.x, m.h, d, t.p, t.w, 0x5C#8⟩ rfl rfl rfl rfl rfl rfl
theorem aand (d m f t) : Statement (.aand d m f t) :=
  ofR 5 13 ⟨f, m.x, m.h, d, t.p, t.w, 0x5D#8⟩ rfl rfl rfl rfl rfl rfl
theorem aor (d m f t) : Statement (.aor d m f t) :=
  ofR 5 14 ⟨f, m.x, m.h, d, t.p, t.w, 0x5E#8⟩ rfl rfl rfl rfl rfl rfl
theorem axor (d m f t) : Statement (.axor d m f t) :=
  ofR 5 15 ⟨f, m.x, m.h, d, t.p, t.w, 0x5F#8⟩ rfl rfl rfl rfl rfl rfl
theorem axch (d m f t) : Statement (.axch d m f t) :=
  ofR 6 0 ⟨f, m.x, m.h, d, t.p, t.w, 0x60#8⟩ rfl rfl rfl rfl rfl rfl
theorem acas (d m f t) : Statement (.acas d m f t) :=
  ofR 6 1 ⟨f, m.x, m.h, d, t.p, t.w, 0x61#8⟩ rfl rfl rfl rfl rfl rfl
theorem afadd (d m f t) : Statement (.afadd d m f t) :=
  ofR 6 2 ⟨f, m.x, m.h, d, t.p, t.w, 0x62#8⟩ rfl rfl rfl rfl rfl rfl
theorem redadd (d m f t) : Statement (.redadd d m f t) :=
  ofR 6 3 ⟨f, m.x, m.h, d, t.p, t.w, 0x63#8⟩ rfl rfl rfl rfl rfl rfl
theorem redfadd (d m f t) : Statement (.redfadd d m f t) :=
  ofR 6 4 ⟨f, m.x, m.h, d, t.p, t.w, 0x64#8⟩ rfl rfl rfl rfl rfl rfl
theorem redmin (d m f t) : Statement (.redmin d m f t) :=
  ofR 6 5 ⟨f, m.x, m.h, d, t.p, t.w, 0x65#8⟩ rfl rfl rfl rfl rfl rfl
theorem redmax (d m f t) : Statement (.redmax d m f t) :=
  ofR 6 6 ⟨f, m.x, m.h, d, t.p, t.w, 0x66#8⟩ rfl rfl rfl rfl rfl rfl
theorem ainc (d m f t) : Statement (.ainc d m f t) :=
  ofR 6 7 ⟨f, m.x, m.h, d, t.p, t.w, 0x67#8⟩ rfl rfl rfl rfl rfl rfl
theorem bbclm (d : Reg) (bob : BitVec 4) (nw : Bool) (t : Tack) : Statement (.bbclm d bob nw t) := by
  refine ofR 6 8 ⟨(0#2 ++ BitVec.ofBool nw), 0#6, (0#2 ++ bob), d, t.p, t.w, 0x68#8⟩ rfl rfl rfl rfl rfl ?_
  change some (Instr.bbclm d ((0#2 ++ bob : BitVec 6).extractLsb' 0 4) ((0#2 ++ BitVec.ofBool nw : BitVec 3).getLsbD 0) t) = _
  rw [show (0#2 ++ BitVec.ofBool nw : BitVec 3).getLsbD 0 = nw from low_bit nw, show (0#2 ++ bob : BitVec 6).extractLsb' 0 4 = bob from low_field 0#2 bob]
theorem bbpub (bob b t) : Statement (.bbpub bob b t) :=
  ofR 6 9 ⟨0#3, b, (0#2 ++ bob), 0#6, t.p, t.w, 0x69#8⟩ rfl rfl rfl rfl rfl (congrArg (fun x => some (Instr.bbpub x b t)) (low_field 0#2 bob))
theorem bbwf (d : Reg) (bob : BitVec 4) (b : Reg) (nw : Bool) (t : Tack) : Statement (.bbwf d bob b nw t) := by
  refine ofR 6 10 ⟨(0#2 ++ BitVec.ofBool nw), b, (0#2 ++ bob), d, t.p, t.w, 0x6A#8⟩ rfl rfl rfl rfl rfl ?_
  change some (Instr.bbwf d ((0#2 ++ bob : BitVec 6).extractLsb' 0 4) b ((0#2 ++ BitVec.ofBool nw : BitVec 3).getLsbD 0) t) = _
  rw [show (0#2 ++ BitVec.ofBool nw : BitVec 3).getLsbD 0 = nw from low_bit nw, show (0#2 ++ bob : BitVec 6).extractLsb' 0 4 = bob from low_field 0#2 bob]
theorem bbwe (d : Reg) (bob : BitVec 4) (nw : Bool) (t : Tack) : Statement (.bbwe d bob nw t) := by
  refine ofR 6 11 ⟨(0#2 ++ BitVec.ofBool nw), 0#6, (0#2 ++ bob), d, t.p, t.w, 0x6B#8⟩ rfl rfl rfl rfl rfl ?_
  change some (Instr.bbwe d ((0#2 ++ bob : BitVec 6).extractLsb' 0 4) ((0#2 ++ BitVec.ofBool nw : BitVec 3).getLsbD 0) t) = _
  rw [show (0#2 ++ BitVec.ofBool nw : BitVec 3).getLsbD 0 = nw from low_bit nw, show (0#2 ++ bob : BitVec 6).extractLsb' 0 4 = bob from low_field 0#2 bob]
theorem bbrel (bob b t) : Statement (.bbrel bob b t) :=
  ofR 6 12 ⟨0#3, b, (0#2 ++ bob), 0#6, t.p, t.w, 0x6C#8⟩ rfl rfl rfl rfl rfl (congrArg (fun x => some (Instr.bbrel x b t)) (low_field 0#2 bob))
theorem bbinit (bob b t) : Statement (.bbinit bob b t) :=
  ofR 6 13 ⟨0#3, b, (0#2 ++ bob), 0#6, t.p, t.w, 0x6D#8⟩ rfl rfl rfl rfl rfl (congrArg (fun x => some (Instr.bbinit x b t)) (low_field 0#2 bob))
theorem cpy (m tile t) : Statement (.cpy m tile t) :=
  ofR 6 14 ⟨(0#2 ++ BitVec.ofBool tile), m.x, m.h, 0#6, t.p, t.w, 0x6E#8⟩ rfl rfl rfl rfl rfl (congrArg (fun x => some (Instr.cpy m x t)) (low_bit tile))
theorem cpyq (d a b tile t) : Statement (.cpyq d a b tile t) :=
  ofR 6 15 ⟨(0#2 ++ BitVec.ofBool tile), b, a, d, t.p, t.w, 0x6F#8⟩ rfl rfl rfl rfl rfl (congrArg (fun x => some (Instr.cpyq d a b x t)) (low_bit tile))
theorem cpyx (d m tile t) : Statement (.cpyx d m tile t) :=
  ofR 7 0 ⟨(0#2 ++ BitVec.ofBool tile), m.x, m.h, d, t.p, t.w, 0x70#8⟩ rfl rfl rfl rfl rfl (congrArg (fun x => some (Instr.cpyx d m x t)) (low_bit tile))
theorem gath (d m tile t) : Statement (.gath d m tile t) :=
  ofR 7 1 ⟨(0#2 ++ BitVec.ofBool tile), m.x, m.h, d, t.p, t.w, 0x71#8⟩ rfl rfl rfl rfl rfl (congrArg (fun x => some (Instr.gath d m x t)) (low_bit tile))
theorem scat (d m tile t) : Statement (.scat d m tile t) :=
  ofR 7 2 ⟨(0#2 ++ BitVec.ofBool tile), m.x, m.h, d, t.p, t.w, 0x72#8⟩ rfl rfl rfl rfl rfl (congrArg (fun x => some (Instr.scat d m x t)) (low_bit tile))
theorem fill (d m tile t) : Statement (.fill d m tile t) :=
  ofR 7 3 ⟨(0#2 ++ BitVec.ofBool tile), m.x, m.h, d, t.p, t.w, 0x73#8⟩ rfl rfl rfl rfl rfl (congrArg (fun x => some (Instr.fill d m x t)) (low_bit tile))
theorem sld (d m f t) : Statement (.sld d m f t) :=
  ofR 7 4 ⟨f, m.x, m.h, d, t.p, t.w, 0x74#8⟩ rfl rfl rfl rfl rfl rfl
theorem sst (d m f t) : Statement (.sst d m f t) :=
  ofR 7 5 ⟨f, m.x, m.h, d, t.p, t.w, 0x75#8⟩ rfl rfl rfl rfl rfl rfl
theorem bbqry (d bob f t) : Statement (.bbqry d bob f t) :=
  ofR 7 6 ⟨f, 0#6, (0#2 ++ bob), d, t.p, t.w, 0x76#8⟩ rfl rfl rfl rfl rfl (congrArg (fun x => some (Instr.bbqry d x f t)) (low_field 0#2 bob))
theorem cpyw (d m tile t) : Statement (.cpyw d m tile t) :=
  ofR 7 7 ⟨(0#2 ++ BitVec.ofBool tile), m.x, m.h, d, t.p, t.w, 0x77#8⟩ rfl rfl rfl rfl rfl (congrArg (fun x => some (Instr.cpyw d m x t)) (low_bit tile))
theorem pld (d m f t) : Statement (.pld d m f t) :=
  ofR 7 8 ⟨f, m.x, m.h, d, t.p, t.w, 0x78#8⟩ rfl rfl rfl rfl rfl rfl
theorem pst (d m t) : Statement (.pst d m t) :=
  ofR 7 9 ⟨0#3, m.x, m.h, d, t.p, t.w, 0x79#8⟩ rfl rfl rfl rfl rfl rfl
theorem pstl (d m t) : Statement (.pstl d m t) :=
  ofR 7 10 ⟨0#3, m.x, m.h, d, t.p, t.w, 0x7A#8⟩ rfl rfl rfl rfl rfl rfl
theorem paxpy (d m f t) : Statement (.paxpy d m f t) :=
  ofR 7 11 ⟨f, m.x, m.h, d, t.p, t.w, 0x7B#8⟩ rfl rfl rfl rfl rfl rfl
theorem pscl (d m t) : Statement (.pscl d m t) :=
  ofR 7 12 ⟨0#3, m.x, m.h, d, t.p, t.w, 0x7C#8⟩ rfl rfl rfl rfl rfl rfl
theorem pcvt (d m f t) : Statement (.pcvt d m f t) :=
  ofR 7 13 ⟨f, m.x, m.h, d, t.p, t.w, 0x7D#8⟩ rfl rfl rfl rfl rfl rfl
theorem pnorm (d m t) : Statement (.pnorm d m t) :=
  ofR 7 14 ⟨0#3, m.x, m.h, d, t.p, t.w, 0x7E#8⟩ rfl rfl rfl rfl rfl rfl
theorem pcnt (d m t) : Statement (.pcnt d m t) :=
  ofR 7 15 ⟨0#3, m.x, m.h, d, t.p, t.w, 0x7F#8⟩ rfl rfl rfl rfl rfl rfl
theorem vadd (d a b f t) : Statement (.vadd d a b f t) :=
  ofR 8 0 ⟨f, b, a, d, t.p, t.w, 0x80#8⟩ rfl rfl rfl rfl rfl rfl
theorem vsub (d a b f t) : Statement (.vsub d a b f t) :=
  ofR 8 1 ⟨f, b, a, d, t.p, t.w, 0x81#8⟩ rfl rfl rfl rfl rfl rfl
theorem vmul (d a b f t) : Statement (.vmul d a b f t) :=
  ofR 8 2 ⟨f, b, a, d, t.p, t.w, 0x82#8⟩ rfl rfl rfl rfl rfl rfl
theorem vfma (d a b f t) : Statement (.vfma d a b f t) :=
  ofR 8 3 ⟨f, b, a, d, t.p, t.w, 0x83#8⟩ rfl rfl rfl rfl rfl rfl
theorem vmin (d a b f t) : Statement (.vmin d a b f t) :=
  ofR 8 4 ⟨f, b, a, d, t.p, t.w, 0x84#8⟩ rfl rfl rfl rfl rfl rfl
theorem vmax (d a b f t) : Statement (.vmax d a b f t) :=
  ofR 8 5 ⟨f, b, a, d, t.p, t.w, 0x85#8⟩ rfl rfl rfl rfl rfl rfl
theorem vabs (d a f t) : Statement (.vabs d a f t) :=
  ofR 8 6 ⟨f, 0#6, a, d, t.p, t.w, 0x86#8⟩ rfl rfl rfl rfl rfl rfl
theorem vneg (d a f t) : Statement (.vneg d a f t) :=
  ofR 8 7 ⟨f, 0#6, a, d, t.p, t.w, 0x87#8⟩ rfl rfl rfl rfl rfl rfl
theorem vcmp (d a b f t) : Statement (.vcmp d a b f t) :=
  ofR 8 8 ⟨f, b, a, d, t.p, t.w, 0x88#8⟩ rfl rfl rfl rfl rfl rfl
theorem vsel (d a b t) : Statement (.vsel d a b t) :=
  ofR 8 9 ⟨0#3, b, a, d, t.p, t.w, 0x89#8⟩ rfl rfl rfl rfl rfl rfl
theorem vand (d a b t) : Statement (.vand d a b t) :=
  ofR 8 10 ⟨0#3, b, a, d, t.p, t.w, 0x8A#8⟩ rfl rfl rfl rfl rfl rfl
theorem vor (d a b t) : Statement (.vor d a b t) :=
  ofR 8 11 ⟨0#3, b, a, d, t.p, t.w, 0x8B#8⟩ rfl rfl rfl rfl rfl rfl
theorem vxor (d a b t) : Statement (.vxor d a b t) :=
  ofR 8 12 ⟨0#3, b, a, d, t.p, t.w, 0x8C#8⟩ rfl rfl rfl rfl rfl rfl
theorem vshl (d a b t) : Statement (.vshl d a b t) :=
  ofR 8 13 ⟨0#3, b, a, d, t.p, t.w, 0x8D#8⟩ rfl rfl rfl rfl rfl rfl
theorem vshr (d a b t) : Statement (.vshr d a b t) :=
  ofR 8 14 ⟨0#3, b, a, d, t.p, t.w, 0x8E#8⟩ rfl rfl rfl rfl rfl rfl
theorem vcvt (d a b t) : Statement (.vcvt d a b t) :=
  ofR 8 15 ⟨0#3, b, a, d, t.p, t.w, 0x8F#8⟩ rfl rfl rfl rfl rfl rfl
theorem vsfn (d a f t) : Statement (.vsfn d a f t) :=
  ofR 9 0 ⟨f, 0#6, a, d, t.p, t.w, 0x90#8⟩ rfl rfl rfl rfl rfl rfl
theorem vred (d a f t) : Statement (.vred d a f t) :=
  ofR 9 1 ⟨f, 0#6, a, d, t.p, t.w, 0x91#8⟩ rfl rfl rfl rfl rfl rfl
theorem vbcst (d a t) : Statement (.vbcst d a t) :=
  ofR 9 2 ⟨0#3, 0#6, a, d, t.p, t.w, 0x92#8⟩ rfl rfl rfl rfl rfl rfl
theorem vld (d m f t) : Statement (.vld d m f t) :=
  ofR 9 3 ⟨f, m.x, m.h, d, t.p, t.w, 0x93#8⟩ rfl rfl rfl rfl rfl rfl
theorem vst (d m f t) : Statement (.vst d m f t) :=
  ofR 9 4 ⟨f, m.x, m.h, d, t.p, t.w, 0x94#8⟩ rfl rfl rfl rfl rfl rfl
theorem vget (d a b f t) : Statement (.vget d a b f t) :=
  ofR 9 5 ⟨f, b, a, d, t.p, t.w, 0x95#8⟩ rfl rfl rfl rfl rfl rfl
theorem vput (d a b f t) : Statement (.vput d a b f t) :=
  ofR 9 6 ⟨f, b, a, d, t.p, t.w, 0x96#8⟩ rfl rfl rfl rfl rfl rfl
theorem vcolR (d a b t) : Statement (.vcolR d a b t) := by
  by_cases hf : b.f = 1#3
  · intro h; simp [Instr.wf, hf] at h
  · exact ofR 9 7 ⟨b.f, b.x, a, d, t.p, t.w, 0x97#8⟩ rfl rfl rfl rfl rfl (by
      simp [rowOf, decodeRow9, RWord.t, hf])
theorem vcolW (d a b t) : Statement (.vcolW d a b t) :=
  ofR 9 7 ⟨1#3, b, a, d, t.p, t.w, 0x97#8⟩ rfl rfl rfl rfl rfl (by
    simp [rowOf, decodeRow9, RWord.t])
theorem vperm (d a b t) : Statement (.vperm d a b t) :=
  ofR 9 8 ⟨0#3, b, a, d, t.p, t.w, 0x98#8⟩ rfl rfl rfl rfl rfl rfl
theorem vrng (d a b f t) : Statement (.vrng d a b f t) :=
  ofR 9 9 ⟨f, b, a, d, t.p, t.w, 0x99#8⟩ rfl rfl rfl rfl rfl rfl
theorem osmx (d t) : Statement (.osmx d t) :=
  ofR 9 10 ⟨0#3, 0#6, 0#6, d, t.p, t.w, 0x9A#8⟩ rfl rfl rfl rfl rfl rfl
theorem osmn (d t) : Statement (.osmn d t) :=
  ofR 9 11 ⟨0#3, 0#6, 0#6, d, t.p, t.w, 0x9B#8⟩ rfl rfl rfl rfl rfl rfl
theorem vqnt (d a b f t) : Statement (.vqnt d a b f t) :=
  ofR 9 12 ⟨f, b, a, d, t.p, t.w, 0x9C#8⟩ rfl rfl rfl rfl rfl rfl
theorem vdqn (d a b f t) : Statement (.vdqn d a b f t) :=
  ofR 9 13 ⟨f, b, a, d, t.p, t.w, 0x9D#8⟩ rfl rfl rfl rfl rfl rfl
theorem viota (d a t) : Statement (.viota d a t) :=
  ofR 9 14 ⟨0#3, 0#6, a, d, t.p, t.w, 0x9E#8⟩ rfl rfl rfl rfl rfl rfl
theorem vscan (d a f t) : Statement (.vscan d a f t) :=
  ofR 9 15 ⟨f, 0#6, a, d, t.p, t.w, 0x9F#8⟩ rfl rfl rfl rfl rfl rfl
theorem mlw (d m f t) : Statement (.mlw d m f t) :=
  ofR 10 0 ⟨f, m.x, m.h, d, t.p, t.w, 0xA0#8⟩ rfl rfl rfl rfl rfl rfl
theorem mswp (t) : Statement (.mswp t) :=
  ofR 10 1 ⟨0#3, 0#6, 0#6, 0#6, t.p, t.w, 0xA1#8⟩ rfl rfl rfl rfl rfl rfl
theorem mma (d m t) : Statement (.mma d m t) :=
  ofR 10 2 ⟨0#3, m.x, m.h, d, t.p, t.w, 0xA2#8⟩ rfl rfl rfl rfl rfl rfl
theorem mmaz (d m t) : Statement (.mmaz d m t) :=
  ofR 10 3 ⟨0#3, m.x, m.h, d, t.p, t.w, 0xA3#8⟩ rfl rfl rfl rfl rfl rfl
theorem mdrn (d m f t) : Statement (.mdrn d m f t) :=
  ofR 10 4 ⟨f, m.x, m.h, d, t.p, t.w, 0xA4#8⟩ rfl rfl rfl rfl rfl rfl
theorem mcfg (d a t) : Statement (.mcfg d a t) :=
  ofR 10 5 ⟨0#3, 0#6, a, d, t.p, t.w, 0xA5#8⟩ rfl rfl rfl rfl rfl rfl
theorem mzro (d s t) : Statement (.mzro d s t) :=
  ofR 10 6 ⟨(0#2 ++ BitVec.ofBool s), 0#6, 0#6, d, t.p, t.w, 0xA6#8⟩ rfl rfl rfl rfl rfl (congrArg (fun x => some (Instr.mzro d x t)) (low_bit s))
theorem mscl (d m f t) : Statement (.mscl d m f t) :=
  ofR 10 7 ⟨f, m.x, m.h, d, t.p, t.w, 0xA7#8⟩ rfl rfl rfl rfl rfl rfl
theorem mbias (m t) : Statement (.mbias m t) :=
  ofR 10 8 ⟨0#3, m.x, m.h, 0#6, t.p, t.w, 0xA8#8⟩ rfl rfl rfl rfl rfl (by
    simp [rowOf, decodeRowA, RWord.t])
theorem mbiasClr (t) : Statement (.mbiasClr t) :=
  ofR 10 8 ⟨1#3, 0#6, 0#6, 0#6, t.p, t.w, 0xA8#8⟩ rfl rfl rfl rfl rfl (by
    simp [rowOf, decodeRowA, RWord.t])
theorem mgemv (d m t) : Statement (.mgemv d m t) :=
  ofR 10 9 ⟨0#3, m.x, m.h, d, t.p, t.w, 0xA9#8⟩ rfl rfl rfl rfl rfl rfl
theorem mgwt (d t) : Statement (.mgwt d t) :=
  ofR 10 10 ⟨0#3, 0#6, 0#6, d, t.p, t.w, 0xAA#8⟩ rfl rfl rfl rfl rfl rfl
theorem movc (d a s t) : Statement (.movc d a s t) :=
  ofR 10 11 ⟨(0#2 ++ BitVec.ofBool s), 0#6, a, d, t.p, t.w, 0xAB#8⟩ rfl rfl rfl rfl rfl (congrArg (fun x => some (Instr.movc d a x t)) (low_bit s))
theorem mtrn (d a sh dh t) : Statement (.mtrn d a sh dh t) := by cases sh <;> cases dh <;> exact ofR 10 12 ⟨_, 0#6, a, d, t.p, t.w, 0xAC#8⟩ rfl rfl rfl rfl rfl (by simp [rowOf, decodeRowA, RWord.t])
theorem mstat (d a f t) : Statement (.mstat d a f t) :=
  ofR 10 13 ⟨f, 0#6, a, d, t.p, t.w, 0xAD#8⟩ rfl rfl rfl rfl rfl rfl
theorem mrsm (t) : Statement (.mrsm t) :=
  ofR 10 14 ⟨0#3, 0#6, 0#6, 0#6, t.p, t.w, 0xAE#8⟩ rfl rfl rfl rfl rfl (by
    simp [rowOf, decodeRowA, RWord.t])
theorem mrsmDiscard (t) : Statement (.mrsmDiscard t) :=
  ofR 10 14 ⟨1#3, 0#6, 0#6, 0#6, t.p, t.w, 0xAE#8⟩ rfl rfl rfl rfl rfl (by
    simp [rowOf, decodeRowA, RWord.t])
theorem mfmt (a t) : Statement (.mfmt a t) :=
  ofR 10 15 ⟨0#3, 0#6, a, 0#6, t.p, t.w, 0xAF#8⟩ rfl rfl rfl rfl rfl rfl
theorem sendM (a b t) : Statement (.sendM a b t) :=
  ofR 11 0 ⟨0#3, b, a, 0#6, t.p, t.w, 0xB0#8⟩ rfl rfl rfl rfl rfl rfl
theorem fcpy (m t) : Statement (.fcpy m t) :=
  ofR 11 1 ⟨0#3, m.x, m.h, 0#6, t.p, t.w, 0xB1#8⟩ rfl rfl rfl rfl rfl rfl
theorem fred (m t) : Statement (.fred m t) :=
  ofR 11 2 ⟨0#3, m.x, m.h, 0#6, t.p, t.w, 0xB2#8⟩ rfl rfl rfl rfl rfl rfl
theorem fsig (a b t) : Statement (.fsig a b t) :=
  ofR 11 3 ⟨0#3, b, a, 0#6, t.p, t.w, 0xB3#8⟩ rfl rfl rfl rfl rfl rfl
theorem coll (d m t) : Statement (.coll d m t) :=
  ofR 11 4 ⟨0#3, m.x, m.h, d, t.p, t.w, 0xB4#8⟩ rfl rfl rfl rfl rfl rfl
theorem cqry (d a f t) : Statement (.cqry d a f t) :=
  ofR 11 5 ⟨f, 0#6, a, d, t.p, t.w, 0xB5#8⟩ rfl rfl rfl rfl rfl rfl
theorem cwait (d a t) : Statement (.cwait d a t) :=
  ofR 11 6 ⟨0#3, 0#6, a, d, t.p, t.w, 0xB6#8⟩ rfl rfl rfl rfl rfl rfl
theorem cabt (a t) : Statement (.cabt a t) :=
  ofR 11 7 ⟨0#3, 0#6, a, 0#6, t.p, t.w, 0xB7#8⟩ rfl rfl rfl rfl rfl rfl
theorem xfm (d m e1 t) : Statement (.xfm d m e1 t) :=
  ofR 11 8 ⟨(0#2 ++ BitVec.ofBool e1), m.x, m.h, d, t.p, t.w, 0xB8#8⟩ rfl rfl rfl rfl rfl (congrArg (fun x => some (Instr.xfm d m x t)) (low_bit e1))
theorem xwait (d a t) : Statement (.xwait d a t) :=
  ofR 11 9 ⟨0#3, 0#6, a, d, t.p, t.w, 0xB9#8⟩ rfl rfl rfl rfl rfl rfl
theorem xqry (d a f t) : Statement (.xqry d a f t) :=
  ofR 11 10 ⟨f, 0#6, a, d, t.p, t.w, 0xBA#8⟩ rfl rfl rfl rfl rfl rfl
theorem xabt (a t) : Statement (.xabt a t) :=
  ofR 11 11 ⟨0#3, 0#6, a, 0#6, t.p, t.w, 0xBB#8⟩ rfl rfl rfl rfl rfl (by
    simp [rowOf, decodeRowB, RWord.t])
theorem xabtQ (a t) : Statement (.xabtQ a t) :=
  ofR 11 11 ⟨1#3, 0#6, a, 0#6, t.p, t.w, 0xBB#8⟩ rfl rfl rfl rfl rfl (by
    simp [rowOf, decodeRowB, RWord.t])
theorem eret (t) : Statement (.eret t) :=
  ofR 11 12 ⟨0#3, 0#6, 0#6, 0#6, t.p, t.w, 0xBC#8⟩ rfl rfl rfl rfl rfl rfl
theorem mfs (d : Reg) (idx : BitVec 12) (t : Tack) : Statement (.mfs d idx t) := by
  refine ofR 11 13 (RWord.ofU (0#3 ++ idx) d t 0xBD#8) rfl rfl rfl rfl rfl ?_
  change some (Instr.mfs d ((RWord.ofU _ _ _ _).imm15.extractLsb' 0 12) t) = _
  rw [imm15_ofU, show (0#3 ++ idx : BitVec 15).extractLsb' 0 12 = idx from low_field 0#3 idx]
theorem mts (d : Reg) (idx : BitVec 12) (t : Tack) : Statement (.mts d idx t) := by
  refine ofR 11 14 (RWord.ofU (0#3 ++ idx) d t 0xBE#8) rfl rfl rfl rfl rfl ?_
  change some (Instr.mts d ((RWord.ofU _ _ _ _).imm15.extractLsb' 0 12) t) = _
  rw [imm15_ofU, show (0#3 ++ idx : BitVec 15).extractLsb' 0 12 = idx from low_field 0#3 idx]
theorem wfi (a t) : Statement (.wfi a t) :=
  ofR 11 15 ⟨0#3, 0#6, a, 0#6, t.p, t.w, 0xBF#8⟩ rfl rfl rfl rfl rfl rfl
theorem hint (n : BitVec 5) (imm : BitVec 21) (t : Tack) : Statement (.hint n imm t) := by
  have h : (imm ++ BitVec.ofBool t.p ++ BitVec.ofBool t.w ++ (0b110#3 ++ n) ++ 1#1 : BitVec 32).toNat =
      (((imm.toNat * 2 + t.p.toNat) * 2 + t.w.toNat) * 256 + 192 + n.toNat) * 2 + 1 := by
    refine (toNat_joined _ _).trans ?_
    simp only [toNat_joined, BitVec.toNat_ofBool, BitVec.toNat_ofNat]
    omega
  have hi := imm.isLt
  have hn := n.isLt
  have hp := t.p.toNat_lt
  have hw := t.w.toNat_lt
  have hop : (0b110#3 ++ n : BitVec 8).toNat = 192 + n.toNat := by
    refine (toNat_joined _ _).trans ?_
    simp only [BitVec.toNat_ofNat]
    omega
  have hr : RWord.unpack (imm ++ BitVec.ofBool t.p ++ BitVec.ofBool t.w ++ (0b110#3 ++ n) ++ 1#1) =
      ⟨imm.extractLsb' 18 3, imm.extractLsb' 12 6, imm.extractLsb' 6 6, imm.extractLsb' 0 6, t.p, t.w, 0b110#3 ++ n⟩ := by
    simp only [RWord.unpack, RWord.mk.injEq]
    refine ⟨field_eq ?_, field_eq ?_, field_eq ?_, field_eq ?_, bit_eq ?_, bit_eq ?_, field_eq ?_⟩ <;> rw [h]
    iterate 4
      · simp only [BitVec.extractLsb'_toNat, Nat.shiftRight_eq_div_pow]
        omega
    iterate 2
      · omega
    rw [hop]
    omega
  have hj : imm.extractLsb' 18 3 ++ imm.extractLsb' 12 6 ++ imm.extractLsb' 6 6 ++ imm.extractLsb' 0 6 = imm := by
    apply BitVec.eq_of_toNat_eq
    refine (toNat_joined _ _).trans ?_
    simp only [toNat_joined, BitVec.extractLsb'_toNat, Nat.shiftRight_eq_div_pow]
    omega
  have ho : (imm ++ BitVec.ofBool t.p ++ BitVec.ofBool t.w ++ (0b110#3 ++ n) ++ 1#1 : BitVec 32).extractLsb' 1 8 = 0b110#3 ++ n :=
    congrArg RWord.op hr
  have ne (k : BitVec 8) (hk : k.toNat < 192) : ¬ (0b110#3 ++ n = k) := by
    intro e
    have := congrArg BitVec.toNat e
    omega
  have hl : (0b110#3 ++ n : BitVec 8).extractLsb' 0 5 = n := low_field 0b110#3 n
  refine of32 _ rfl rfl rfl (by rw [h]; omega) (fun _ => ?_)
  have hd : decodeOp ⟨imm.extractLsb' 18 3, imm.extractLsb' 12 6, imm.extractLsb' 6 6, imm.extractLsb' 0 6, t.p, t.w,
      0b110#3 ++ n⟩ = some (.hint n imm t) := by
    have hq : (192 + n.toNat) / 16 = 12 ∨ (192 + n.toNat) / 16 = 13 := by omega
    simp only [decodeOp, hop]
    rcases hq with hq | hq <;> rw [hq] <;> simp only [hl, hj] <;> rfl
  simp only [decode32, ho, hr, hd, if_neg (ne 0x01#8 (by decide)), if_neg (ne 0x02#8 (by decide)), if_neg (ne 0x0D#8 (by decide))]
theorem cNop : Statement .cNop :=
  of16 0 0 0 rfl rfl rfl (fun w ho hd ha => by simp only [decode16, ho]; rfl)
theorem cTkw (imm : BitVec 5) : Statement (.cTkw imm) :=
  of16 1 0 imm rfl rfl rfl (fun w ho hd ha => by simp only [decode16, ho, ha]; rfl)
theorem cTkp (imm : BitVec 5) : Statement (.cTkp imm) :=
  of16 2 0 imm rfl rfl rfl (fun w ho hd ha => by simp only [decode16, ho, ha]; rfl)
theorem cMov (d : BitVec 5) (a : BitVec 5) : Statement (.cMov d a) :=
  of16 3 d a rfl rfl rfl (fun w ho hd ha => by simp only [decode16, ho, hd, ha]; rfl)
theorem cAdd (d : BitVec 5) (a : BitVec 5) : Statement (.cAdd d a) :=
  of16 4 d a rfl rfl rfl (fun w ho hd ha => by simp only [decode16, ho, hd, ha]; rfl)
theorem cSub (d : BitVec 5) (a : BitVec 5) : Statement (.cSub d a) :=
  of16 5 d a rfl rfl rfl (fun w ho hd ha => by simp only [decode16, ho, hd, ha]; rfl)
theorem cAnd (d : BitVec 5) (a : BitVec 5) : Statement (.cAnd d a) :=
  of16 6 d a rfl rfl rfl (fun w ho hd ha => by simp only [decode16, ho, hd, ha]; rfl)
theorem cOr (d : BitVec 5) (a : BitVec 5) : Statement (.cOr d a) :=
  of16 7 d a rfl rfl rfl (fun w ho hd ha => by simp only [decode16, ho, hd, ha]; rfl)
theorem cXor (d : BitVec 5) (a : BitVec 5) : Statement (.cXor d a) :=
  of16 8 d a rfl rfl rfl (fun w ho hd ha => by simp only [decode16, ho, hd, ha]; rfl)
theorem cAddi (d : BitVec 5) (imm : BitVec 5) : Statement (.cAddi d imm) :=
  of16 9 d imm rfl rfl rfl (fun w ho hd ha => by simp only [decode16, ho, hd, ha]; rfl)
theorem cLi (d : BitVec 5) (imm : BitVec 5) : Statement (.cLi d imm) :=
  of16 10 d imm rfl rfl rfl (fun w ho hd ha => by simp only [decode16, ho, hd, ha]; rfl)
theorem cShli (d : BitVec 5) (imm : BitVec 5) : Statement (.cShli d imm) :=
  of16 11 d imm rfl rfl rfl (fun w ho hd ha => by simp only [decode16, ho, hd, ha]; rfl)
theorem cShrli (d : BitVec 5) (imm : BitVec 5) : Statement (.cShrli d imm) :=
  of16 12 d imm rfl rfl rfl (fun w ho hd ha => by simp only [decode16, ho, hd, ha]; rfl)
theorem cBz (d : BitVec 5) (imm : BitVec 5) : Statement (.cBz d imm) :=
  of16 13 d imm rfl rfl rfl (fun w ho hd ha => by simp only [decode16, ho, hd, ha]; rfl)
theorem cBnz (d : BitVec 5) (imm : BitVec 5) : Statement (.cBnz d imm) :=
  of16 14 d imm rfl rfl rfl (fun w ho hd ha => by simp only [decode16, ho, hd, ha]; rfl)
theorem cEnd : Statement .cEnd :=
  of16 15 0 0 rfl rfl rfl (fun w ho hd ha => by simp only [decode16, ho]; rfl)
theorem sqAlign : Statement .sqAlign := ofSeq (0#56 ++ 1#8) rfl rfl rfl (by decide)
theorem sqPhase (n : BitVec 16) : Statement (.sqPhase n) := by
  refine ofSeq (0#40 ++ n ++ 2#8) rfl rfl rfl ?_
  have h : (0#40 ++ n ++ 2#8 : BitVec 64).toNat = n.toNat * 256 + 2 := by
    refine (toNat_joined _ _).trans ?_
    simp only [toNat_joined, BitVec.toNat_ofNat]
    omega
  have h_n := n.isLt
  have ho : (0#40 ++ n ++ 2#8 : BitVec 64).extractLsb' 0 8 = 2#8 := field_eq (by rw [h]; simp only [BitVec.toNat_ofNat]; omega)
  have e_n : (0#40 ++ n ++ 2#8 : BitVec 64).extractLsb' 8 16 = n := field_eq (by rw [h]; omega)
  simp only [decodeSeq, ho, e_n]
  rfl
theorem sqMake (w) : Statement (.sqMake w) := ofSeq (encodeMake 3#8 w) rfl rfl rfl (decodeSeq_sqMake w)
theorem sqTree (w) : Statement (.sqTree w) := ofSeq (encodeMake 4#8 w) rfl rfl rfl (decodeSeq_sqTree w)
theorem sqBreak (c : BitVec 8) : Statement (.sqBreak c) := by
  refine ofSeq (0#48 ++ c ++ 5#8) rfl rfl rfl ?_
  have h : (0#48 ++ c ++ 5#8 : BitVec 64).toNat = c.toNat * 256 + 5 := by
    refine (toNat_joined _ _).trans ?_
    simp only [toNat_joined, BitVec.toNat_ofNat]
    omega
  have h_c := c.isLt
  have ho : (0#48 ++ c ++ 5#8 : BitVec 64).extractLsb' 0 8 = 5#8 := field_eq (by rw [h]; simp only [BitVec.toNat_ofNat]; omega)
  have e_c : (0#48 ++ c ++ 5#8 : BitVec 64).extractLsb' 8 8 = c := field_eq (by rw [h]; omega)
  simp only [decodeSeq, ho, e_c]
  rfl
theorem sqPrep (route : BitVec 9) : Statement (.sqPrep route) := by
  refine ofSeq (0#47 ++ route ++ 6#8) rfl rfl rfl ?_
  have h : (0#47 ++ route ++ 6#8 : BitVec 64).toNat = route.toNat * 256 + 6 := by
    refine (toNat_joined _ _).trans ?_
    simp only [toNat_joined, BitVec.toNat_ofNat]
    omega
  have h_route := route.isLt
  have ho : (0#47 ++ route ++ 6#8 : BitVec 64).extractLsb' 0 8 = 6#8 := field_eq (by rw [h]; simp only [BitVec.toNat_ofNat]; omega)
  have e_route : (0#47 ++ route ++ 6#8 : BitVec 64).extractLsb' 8 9 = route := field_eq (by rw [h]; omega)
  simp only [decodeSeq, ho, e_route]
  rfl
theorem sqWait (n : BitVec 16) : Statement (.sqWait n) := by
  refine ofSeq (0#40 ++ n ++ 7#8) rfl rfl rfl ?_
  have h : (0#40 ++ n ++ 7#8 : BitVec 64).toNat = n.toNat * 256 + 7 := by
    refine (toNat_joined _ _).trans ?_
    simp only [toNat_joined, BitVec.toNat_ofNat]
    omega
  have h_n := n.isLt
  have ho : (0#40 ++ n ++ 7#8 : BitVec 64).extractLsb' 0 8 = 7#8 := field_eq (by rw [h]; simp only [BitVec.toNat_ofNat]; omega)
  have e_n : (0#40 ++ n ++ 7#8 : BitVec 64).extractLsb' 8 16 = n := field_eq (by rw [h]; omega)
  simp only [decodeSeq, ho, e_n]
  rfl
theorem sqSigt (sel : BitVec 9) (tile : BitVec 4) (core : BitVec 3) (addend : BitVec 32) : Statement (.sqSigt sel tile core addend) := by
  refine ofSeq (0#8 ++ addend ++ core ++ tile ++ sel ++ 8#8) rfl rfl rfl ?_
  have h : (0#8 ++ addend ++ core ++ tile ++ sel ++ 8#8 : BitVec 64).toNat = (((addend.toNat * 8 + core.toNat) * 16 + tile.toNat) * 512 + sel.toNat) * 256 + 8 := by
    refine (toNat_joined _ _).trans ?_
    simp only [toNat_joined, BitVec.toNat_ofNat]
    omega
  have h_sel := sel.isLt
  have h_tile := tile.isLt
  have h_core := core.isLt
  have h_addend := addend.isLt
  have ho : (0#8 ++ addend ++ core ++ tile ++ sel ++ 8#8 : BitVec 64).extractLsb' 0 8 = 8#8 := field_eq (by rw [h]; simp only [BitVec.toNat_ofNat]; omega)
  have e_sel : (0#8 ++ addend ++ core ++ tile ++ sel ++ 8#8 : BitVec 64).extractLsb' 8 9 = sel := field_eq (by rw [h]; omega)
  have e_tile : (0#8 ++ addend ++ core ++ tile ++ sel ++ 8#8 : BitVec 64).extractLsb' 17 4 = tile := field_eq (by rw [h]; omega)
  have e_core : (0#8 ++ addend ++ core ++ tile ++ sel ++ 8#8 : BitVec 64).extractLsb' 21 3 = core := field_eq (by rw [h]; omega)
  have e_addend : (0#8 ++ addend ++ core ++ tile ++ sel ++ 8#8 : BitVec 64).extractLsb' 24 32 = addend := field_eq (by rw [h]; omega)
  simp only [decodeSeq, ho, e_sel, e_tile, e_core, e_addend]
  rfl
theorem sqPausept : Statement .sqPausept := ofSeq (0#56 ++ 9#8) rfl rfl rfl (by decide)
theorem sqLoop (n : BitVec 16) : Statement (.sqLoop n) := by
  refine ofSeq (0#40 ++ n ++ 10#8) rfl rfl rfl ?_
  have h : (0#40 ++ n ++ 10#8 : BitVec 64).toNat = n.toNat * 256 + 10 := by
    refine (toNat_joined _ _).trans ?_
    simp only [toNat_joined, BitVec.toNat_ofNat]
    omega
  have h_n := n.isLt
  have ho : (0#40 ++ n ++ 10#8 : BitVec 64).extractLsb' 0 8 = 10#8 := field_eq (by rw [h]; simp only [BitVec.toNat_ofNat]; omega)
  have e_n : (0#40 ++ n ++ 10#8 : BitVec 64).extractLsb' 8 16 = n := field_eq (by rw [h]; omega)
  simp only [decodeSeq, ho, e_n]
  rfl
theorem sqNext : Statement .sqNext := ofSeq (0#56 ++ 11#8) rfl rfl rfl (by decide)
theorem sqChunk (c : BitVec 8) (plan : BitVec 10) (step : BitVec 10) : Statement (.sqChunk c plan step) := by
  refine ofSeq (plan ++ step ++ 0#28 ++ c ++ 12#8) rfl rfl rfl ?_
  have h : (plan ++ step ++ 0#28 ++ c ++ 12#8 : BitVec 64).toNat = ((plan.toNat * 1024 + step.toNat) * 268435456 * 256 + c.toNat) * 256 + 12 := by
    refine (toNat_joined _ _).trans ?_
    simp only [toNat_joined, BitVec.toNat_ofNat]
    omega
  have h_c := c.isLt
  have h_plan := plan.isLt
  have h_step := step.isLt
  have ho : (plan ++ step ++ 0#28 ++ c ++ 12#8 : BitVec 64).extractLsb' 0 8 = 12#8 := field_eq (by rw [h]; simp only [BitVec.toNat_ofNat]; omega)
  have e_c : (plan ++ step ++ 0#28 ++ c ++ 12#8 : BitVec 64).extractLsb' 8 8 = c := field_eq (by rw [h]; omega)
  have e_plan : (plan ++ step ++ 0#28 ++ c ++ 12#8 : BitVec 64).extractLsb' 54 10 = plan := field_eq (by rw [h]; omega)
  have e_step : (plan ++ step ++ 0#28 ++ c ++ 12#8 : BitVec 64).extractLsb' 44 10 = step := field_eq (by rw [h]; omega)
  simp only [decodeSeq, ho, e_c, e_plan, e_step]
  rfl
theorem sequencerEnd : Statement .sequencerEnd := ofSeq (0#64) rfl rfl rfl (by decide)
theorem alignRelease (high) : Statement (.alignRelease high) :=
  ofEvent rfl rfl rfl
theorem circuitMakeResolve (c obs) : Statement (.circuitMakeResolve c obs) :=
  ofEvent rfl rfl rfl
theorem circuitBreakComplete (c) : Statement (.circuitBreakComplete c) :=
  ofEvent rfl rfl rfl
theorem phaseEnd : Statement .phaseEnd :=
  ofEvent rfl rfl rfl
theorem pauseResume : Statement .pauseResume :=
  ofEvent rfl rfl rfl
theorem fastBringupEnd (near far ok) : Statement (.fastBringupEnd near far ok) :=
  ofEvent rfl rfl rfl
theorem fullTrainingEnd (near far ok) : Statement (.fullTrainingEnd near far ok) :=
  ofEvent rfl rfl rfl
theorem lossOfLock (ep wl rx) : Statement (.lossOfLock ep wl rx) :=
  ofEvent rfl rfl rfl
theorem spareWavelengthMapping (ep wl) : Statement (.spareWavelengthMapping ep wl) :=
  ofEvent rfl rfl rfl
theorem sourceFailure (src) : Statement (.sourceFailure src) :=
  ofEvent rfl rfl rfl
theorem spareSourceSwitch (src) : Statement (.spareSourceSwitch src) :=
  ofEvent rfl rfl rfl
theorem flitArrival (c fate) : Statement (.flitArrival c fate) :=
  ofEvent rfl rfl rfl
theorem messageDelivery (c) : Statement (.messageDelivery c) :=
  ofEvent rfl rfl rfl
theorem fsigArrival (tile core sel addend) : Statement (.fsigArrival tile core sel addend) :=
  ofEvent rfl rfl rfl
theorem fabricWriteArrival (tile w) : Statement (.fabricWriteArrival tile w) :=
  ofEvent rfl rfl rfl
theorem fabricCopyComplete (tile id) : Statement (.fabricCopyComplete tile id) :=
  ofEvent rfl rfl rfl
theorem peerReset (peer) : Statement (.peerReset peer) :=
  ofEvent rfl rfl rfl
theorem measurementEnd (peer m digest) : Statement (.measurementEnd peer m digest) :=
  ofEvent rfl rfl rfl
theorem keyUpdate (peer) : Statement (.keyUpdate peer) :=
  ofEvent rfl rfl rfl
theorem serviceCircuitRemake (peer) : Statement (.serviceCircuitRemake peer) :=
  ofEvent rfl rfl rfl
theorem chunkArrival (tile ticket chunk gather data) : Statement (.chunkArrival tile ticket chunk gather data) :=
  ofEvent rfl rfl rfl
theorem collectiveComplete (tile ticket) : Statement (.collectiveComplete tile ticket) :=
  ofEvent rfl rfl rfl
theorem collectiveAbort (tile ticket reason) : Statement (.collectiveAbort tile ticket reason) :=
  ofEvent rfl rfl rfl
theorem copyStart (e id n) : Statement (.copyStart e id n) :=
  ofEvent rfl rfl rfl
theorem copySourceFree (e id) : Statement (.copySourceFree e id) :=
  ofEvent rfl rfl rfl
theorem copyComplete (e id) : Statement (.copyComplete e id) :=
  ofEvent rfl rfl rfl
theorem copyFault (e id) : Statement (.copyFault e id) :=
  ofEvent rfl rfl rfl
theorem pendingTackPush (p) : Statement (.pendingTackPush p) :=
  ofEvent rfl rfl rfl
theorem xfmRecordStart (tile eng) : Statement (.xfmRecordStart tile eng) :=
  ofEvent rfl rfl rfl
theorem xfmRecordEnd (tile eng) : Statement (.xfmRecordEnd tile eng) :=
  ofEvent rfl rfl rfl
theorem mgemvComplete (tile core id) : Statement (.mgemvComplete tile core id) :=
  ofEvent rfl rfl rfl
theorem reductionPerform (tile i) : Statement (.reductionPerform tile i) :=
  ofEvent rfl rfl rfl
theorem walkerIterationStart (tile) : Statement (.walkerIterationStart tile) :=
  ofEvent rfl rfl rfl
theorem syncTrapDelivery (p c) : Statement (.syncTrapDelivery p c) :=
  ofEvent rfl rfl rfl
theorem asyncTrapDelivery (tile core slot) : Statement (.asyncTrapDelivery tile core slot) :=
  ofEvent rfl rfl rfl
theorem tackWatchdog (p) : Statement (.tackWatchdog p) :=
  ofEvent rfl rfl rfl
theorem thimbleTrap (c) : Statement (.thimbleTrap c) :=
  ofEvent rfl rfl rfl
theorem preemptHalt (tile core slot) : Statement (.preemptHalt tile core slot) :=
  ofEvent rfl rfl rfl
theorem contextSaveComplete (tile core slot) : Statement (.contextSaveComplete tile core slot) :=
  ofEvent rfl rfl rfl
theorem periodicLiningTimer (tile core) : Statement (.periodicLiningTimer tile core) :=
  ofEvent rfl rfl rfl
theorem liningCapture (tile core) : Statement (.liningCapture tile core) :=
  ofEvent rfl rfl rfl
theorem liningCommit (tile core) : Statement (.liningCommit tile core) :=
  ofEvent rfl rfl rfl
theorem liningWriterDrain (tile core n) : Statement (.liningWriterDrain tile core n) :=
  ofEvent rfl rfl rfl
theorem powerFailDetect (tile) : Statement (.powerFailDetect tile) :=
  ofEvent rfl rfl rfl
theorem finalFlushCommit (tile good) : Statement (.finalFlushCommit tile good) :=
  ofEvent rfl rfl rfl
theorem liningResume (tile) : Statement (.liningResume tile) :=
  ofEvent rfl rfl rfl
theorem modulePowerLoss : Statement .modulePowerLoss :=
  ofEvent rfl rfl rfl
theorem moduleReset (obs) : Statement (.moduleReset obs) :=
  ofEvent rfl rfl rfl
theorem thermalTrip : Statement .thermalTrip :=
  ofEvent rfl rfl rfl
theorem thermalRecovery : Statement .thermalRecovery :=
  ofEvent rfl rfl rfl
theorem alarmTrip (sensor) : Statement (.alarmTrip sensor) :=
  ofEvent rfl rfl rfl
theorem hbmRefresh (tile bank) : Statement (.hbmRefresh tile bank) :=
  ofEvent rfl rfl rfl
theorem patrolScrub (tile granule err) : Statement (.patrolScrub tile granule err) :=
  ofEvent rfl rfl rfl
theorem ringThermalLock (ep) : Statement (.ringThermalLock ep) :=
  ofEvent rfl rfl rfl
theorem laserPowerControl (src) : Statement (.laserPowerControl src) :=
  ofEvent rfl rfl rfl
theorem telemetrySampling : Statement .telemetrySampling :=
  ofEvent rfl rfl rfl
theorem mramScrub (tile core) : Statement (.mramScrub tile core) :=
  ofEvent rfl rfl rfl
theorem wStart (tile) : Statement (.wStart tile) :=
  ofEvent rfl rfl rfl
theorem wStop (tile) : Statement (.wStop tile) :=
  ofEvent rfl rfl rfl
theorem wPreempt (tile core slot arg) : Statement (.wPreempt tile core slot arg) :=
  ofEvent rfl rfl rfl
theorem wResume (tile core slot arg) : Statement (.wResume tile core slot arg) :=
  ofEvent rfl rfl rfl
theorem wEnter (tile core slot) : Statement (.wEnter tile core slot) :=
  ofEvent rfl rfl rfl
theorem wKill (tile core slot) : Statement (.wKill tile core slot) :=
  ofEvent rfl rfl rfl
theorem invalidatePage (tile vpn) : Statement (.invalidatePage tile vpn) :=
  ofEvent rfl rfl rfl
theorem invalidateAll (tile) : Statement (.invalidateAll tile) :=
  ofEvent rfl rfl rfl
theorem hubInvalidatePage (vpn) : Statement (.hubInvalidatePage vpn) :=
  ofEvent rfl rfl rfl
theorem hubInvalidateAll : Statement .hubInvalidateAll :=
  ofEvent rfl rfl rfl
theorem invalidationComplete (tile) : Statement (.invalidationComplete tile) :=
  ofEvent rfl rfl rfl
theorem ptrootWrite (tile v) : Statement (.ptrootWrite tile v) :=
  ofEvent rfl rfl rfl
theorem hptrootWrite (v) : Statement (.hptrootWrite v) :=
  ofEvent rfl rfl rfl
theorem msplitWrite (tile v) : Statement (.msplitWrite tile v) :=
  ofEvent rfl rfl rfl
theorem splitChange (tile) : Statement (.splitChange tile) :=
  ofEvent rfl rfl rfl
theorem wlmapWrite (ep v) : Statement (.wlmapWrite ep v) :=
  ofEvent rfl rfl rfl
theorem laserctlWrite (src v) : Statement (.laserctlWrite src v) :=
  ofEvent rfl rfl rfl
theorem laserLockEnd (src ok) : Statement (.laserLockEnd src ok) :=
  ofEvent rfl rfl rfl
theorem pbLock (ep wlm) : Statement (.pbLock ep wlm) :=
  ofEvent rfl rfl rfl
theorem pbTrain (ep wlm farep) : Statement (.pbTrain ep wlm farep) :=
  ofEvent rfl rfl rfl
theorem pbFast (ep wlm farep) : Statement (.pbFast ep wlm farep) :=
  ofEvent rfl rfl rfl
theorem pbAbort (ep) : Statement (.pbAbort ep) :=
  ofEvent rfl rfl rfl
theorem lockEnd (ep failed) : Statement (.lockEnd ep failed) :=
  ofEvent rfl rfl rfl
theorem trainEnd (ep failed) : Statement (.trainEnd ep failed) :=
  ofEvent rfl rfl rfl
theorem launch (obs) : Statement (.launch obs) :=
  ofEvent rfl rfl rfl
theorem cancel : Statement .cancel :=
  ofEvent rfl rfl rfl
theorem recover (write) : Statement (.recover write) :=
  ofEvent rfl rfl rfl
theorem groupCreate (agree) : Statement (.groupCreate agree) :=
  ofEvent rfl rfl rfl
theorem groupDelete : Statement .groupDelete :=
  ofEvent rfl rfl rfl
theorem seccfg : Statement .seccfg :=
  ofEvent rfl rfl rfl
theorem logread : Statement .logread :=
  ofEvent rfl rfl rfl
theorem clearj : Statement .clearj :=
  ofEvent rfl rfl rfl
theorem mbcmdInvalid (op) : Statement (.mbcmdInvalid op) :=
  ofEvent rfl rfl rfl
theorem registerWrite (offset v) : Statement (.registerWrite offset v) :=
  ofEvent rfl rfl rfl
theorem waitcTargetReached (p) : Statement (.waitcTargetReached p) :=
  ofEvent rfl rfl rfl
theorem matrixPassComplete (tile core) : Statement (.matrixPassComplete tile core) :=
  ofEvent rfl rfl rfl
theorem storePerformedAtHome (tile core i) : Statement (.storePerformedAtHome tile core i) :=
  ofEvent rfl rfl rfl
theorem keyPhaseWindowEnd (peer) : Statement (.keyPhaseWindowEnd peer) :=
  ofEvent rfl rfl rfl

end Sys2Proof.Laws.RoundTrip
end

