-- ==== Sys2Proof/Tests/Slice0.lean ====
section
/-!
SUPPORT. Tests: which terms are refused as ill-formed, words written out from the encoding tables, single steps
against values of the spec, and for every obligation a state and operands that meet its premises.
-/
namespace Sys2Proof.Tests
open Sys2Proof.Machine Sys2Proof.Claims
set_option Elab.async false

/-! ## Ill-formed terms -/

def noObs : MakeObs := { nolock := 0, skew := [], far := none, loss := [] }
def makeW (width1 minw1 : BitVec 4) : MakeWord :=
  { circuit := 5, stile := 2, dmod := 1, dtile := 7, width1 := width1, minw1 := minw1, span := false, rcore := 0, rbob := 3, route := 12, rx := false }
def farW (ridx : Nat) : FarWrite := { ridx := ridx, bit := 0, type := 6, rop := 0, value := 1, source := 0, number := 1 }
def cause (c : Nat) : Cause := ⟨c, 0, 0, 0, 0⟩

theorem test_wf_words : ([.blk 63 4 0 0, .blk 0 0 0 0, .blkx 7 0 0 0, .sqPhase 0, .sqMake (makeW 1 2), .sqTree (makeW 0 1),
    .sqLoop 0] : List Instr).all (fun i => !i.wf) = true := by decide +kernel

theorem test_wf_fabric_events : ([.circuitMakeResolve 256 noObs, .circuitBreakComplete 256, .fastBringupEnd 1344 0 true, .fastBringupEnd 0 1344 true,
    .fullTrainingEnd 1344 0 true, .fullTrainingEnd 0 1344 true, .lossOfLock 1344 0 true, .lossOfLock 0 9 true,
    .spareWavelengthMapping 1344 0, .spareWavelengthMapping 0 8, .sourceFailure 52, .spareSourceSwitch (.here 52), .flitArrival 256 .arrives,
    .messageDelivery 256, .fsigArrival 16 0 0 0, .fsigArrival 0 8 0 0, .fsigArrival 0 0 512 0, .fabricWriteArrival 16 (farW 0),
    .fabricWriteArrival 0 (farW 64), .fabricCopyComplete 16 0, .chunkArrival 16 0 0 .result [], .collectiveComplete 16 0,
    .collectiveAbort 16 0 0, .ringThermalLock 1344, .laserPowerControl 52, .wlmapWrite 1344 0, .laserctlWrite 52 0, .laserLockEnd 52 true,
    .pbLock 1344 0, .pbTrain 1344 0 0, .pbTrain 0 0 1344, .pbFast 1344 0 0, .pbFast 0 0 1344, .pbAbort 1344, .lockEnd 1344 0,
    .trainEnd 1344 { failed := 0 }] : List Instr).all (fun i => !i.wf) = true := by decide +kernel

theorem test_wf_core_events : ([.copyStart (.core 16 1) 0 1, .copyStart (.core 0 8) 0 1, .copySourceFree (.tile 16) 0, .copyComplete (.core 17 0) 0,
    .copyFault (.tile 16) 0, .pendingTackPush ⟨16, 0, 0, 1⟩, .pendingTackPush ⟨0, 8, 0, 0⟩, .xfmRecordStart 16 0, .xfmRecordStart 0 2,
    .xfmRecordEnd 16 0, .xfmRecordEnd 0 2, .mgemvComplete 16 0 0, .mgemvComplete 0 8 0, .reductionPerform 16 0, .walkerIterationStart 16,
    .syncTrapDelivery ⟨0, 0, 4, 0⟩ (cause 1), .syncTrapDelivery ⟨0, 0, 0, 0⟩ (cause 64), .asyncTrapDelivery 0 0 4, .tackWatchdog ⟨0, 0, 0, 5⟩,
    .thimbleTrap (cause 64), .preemptHalt 16 0 0, .contextSaveComplete 0 8 0, .periodicLiningTimer 16 0, .liningCapture 0 8, .liningCommit 16 0,
    .liningWriterDrain 0 8 1, .powerFailDetect 16, .finalFlushCommit 16 true, .liningResume 16, .hbmRefresh 16 0, .patrolScrub 16 0 .clean,
    .mramScrub 16 0, .wStart 16, .wStop 16, .wPreempt 16 0 0 0, .wResume 0 8 0 0, .wEnter 0 0 4, .wKill 16 0 0, .invalidatePage 16 0,
    .invalidateAll 16, .invalidationComplete 17, .ptrootWrite 16 0, .msplitWrite 16 0, .splitChange 16, .waitcTargetReached ⟨16, 0, 1, 0⟩,
    .matrixPassComplete 0 8, .storePerformedAtHome 16 0 0] : List Instr).all (fun i => !i.wf) = true := by decide +kernel

/-- The greatest well-formed neighbours of terms refused above. -/
theorem test_wf_accepts : ([.blk 62 1 3 3, .blkx 63 511 0 0, .sqPhase 1, .sqMake (makeW 2 2), .circuitMakeResolve 255 noObs, .lossOfLock 1343 8 true,
    .sourceFailure 51, .fsigArrival 15 7 511 0, .fabricWriteArrival 15 (farW 63), .copyStart (.core 16 0) 0 1, .pendingTackPush ⟨16, 0, 0, 0⟩,
    .pendingTackPush ⟨15, 7, 3, 4⟩, .xfmRecordStart 15 1, .syncTrapDelivery ⟨0, 0, 0, 0⟩ (cause 63), .invalidationComplete 16] : List Instr).all
    Instr.wf = true := by decide +kernel

/-! ## Words written out from the encoding tables

The low bits are the match value of the word's row of spec/opcode_table.json; the operands stand where R103 (32-bit
words: D 16:11, A 22:17, B 28:23, F 31:29, imm9 31:23, imm15 31:17, W 9, P 10), R105 (EXT), R110 (compact words: d
10:6, a or imm5 15:11), R111 (headers), R317 (sequencer words) and the instruction's own rule put them. -/

def n0 : Tack := ⟨false, false⟩
def decodesTo (l : List (Nat × Instr)) : Bool := l.all (fun e => decide (decodeTableWord 32 e.1 = some e.2))

theorem test_decode_00 : decodesTo [
    (0x00000001, .nop n0),
    (0x0A658C03, .blk 41 300 1 2),
    (0x0A658C05, .blkx 41 300 1 2),
    (0xB4780007, .br 0x5A3C n0),
    (0xB4792A09, .bz 37 0x5A3C ⟨true, false⟩),
    (0xB4792C0B, .bnz 37 0x5A3C ⟨false, true⟩),
    (0x002C000D, .brx 22 n0),
    (0xB478020F, .call 0x5A3C ⟨true, false⟩),
    (0x00000411, .retB ⟨false, true⟩),
    (0x014C0013, .rend 6 5 n0),
    (0x00000215, .endS ⟨true, false⟩),
    (0x00000417, .yield ⟨false, true⟩),
    (0x24692819, .waitc 37 0x1234 n0),
    (0xA4692A19, .waitcS 37 0x1234 ⟨true, false⟩),
    (0x54BE261B, .ext 0x2A5F13),
    (0xB479281D, .trap 37 0x5A3C n0),
    (0xB4792A1F, .sysc 37 0x5A3C ⟨true, false⟩)] = true := by decide +kernel

theorem test_decode_10 : decodesTo [
    (0x0B000421, .tkw 2 5 ⟨false, true⟩),
    (0x0B000023, .tkp 2 5 n0),
    (0xA1AD2A25, .semw 37 22 0x143 ⟨true, false⟩),
    (0xA1AD2C27, .sema 37 22 0x143 ⟨false, true⟩),
    (0xA1AC0029, .sems 22 0x143 n0),
    (0xA1AC0A29, .semsDisarm 22 0x143 ⟨true, false⟩),
    (0xA180042B, .semo 0x143 ⟨false, true⟩),
    (0xA181282D, .semrd 37 0x143 n0),
    (0x0006022F, .fence 3 ⟨true, false⟩),
    (0x00000431, .acq ⟨false, true⟩),
    (0x39AD2831, .acqR 37 ⟨22, 51⟩ n0),
    (0x00060233, .rel 3 ⟨true, false⟩),
    (0x00000435, .pfenRetain ⟨false, true⟩),
    (0x00020035, .pfenLining n0),
    (0xB9AD2A37, .semwa 37 22 51 5 ⟨true, false⟩),
    (0x00012C39, .rdcyc 37 ⟨false, true⟩),
    (0x20012839, .rdcycS 37 n0),
    (0x00012A3B, .rdid 37 ⟨true, false⟩),
    (0x002D2C3D, .prio 37 22 ⟨false, true⟩),
    (0x0001283F, .linept 37 n0)] = true := by decide +kernel

theorem test_decode_20 : decodesTo [
    (0x19AD2A41, .addR 37 22 51 ⟨true, false⟩),
    (0x19AD2C43, .subR 37 22 51 ⟨false, true⟩),
    (0x19AD2845, .mulR 37 22 51 n0),
    (0x19AD2A47, .mulh 37 22 51 ⟨true, false⟩),
    (0x19AD2C49, .mulhu 37 22 51 ⟨false, true⟩),
    (0x19AD284B, .divI 37 22 51 n0),
    (0x19AD2A4D, .divu 37 22 51 ⟨true, false⟩),
    (0x19AD2C4F, .remI 37 22 51 ⟨false, true⟩),
    (0x19AD2851, .remu 37 22 51 n0),
    (0x19AD2A53, .andR 37 22 51 ⟨true, false⟩),
    (0x19AD2C55, .orR 37 22 51 ⟨false, true⟩),
    (0x19AD2857, .xorR 37 22 51 n0),
    (0x19AD2A59, .shl 37 22 51 ⟨true, false⟩),
    (0x19AD2C5B, .shrl 37 22 51 ⟨false, true⟩),
    (0x19AD285D, .shra 37 22 51 n0),
    (0x19AD2A5F, .minS 37 22 51 ⟨true, false⟩)] = true := by decide +kernel

theorem test_decode_30 : decodesTo [
    (0x19AD2C61, .maxS 37 22 51 ⟨false, true⟩),
    (0x19AD2863, .minu 37 22 51 n0),
    (0x19AD2A65, .maxu 37 22 51 ⟨true, false⟩),
    (0x19AD2C67, .seq 37 22 51 ⟨false, true⟩),
    (0x19AD2869, .slt 37 22 51 n0),
    (0x19AD2A6B, .sltu 37 22 51 ⟨true, false⟩),
    (0x19AD2C6D, .sel 37 22 51 ⟨false, true⟩),
    (0x002D286F, .clz 37 22 n0),
    (0xA1AD2A71, .addi 37 22 0x143 ⟨true, false⟩),
    (0xA1AD2C73, .andi 37 22 0x143 ⟨false, true⟩),
    (0xA1AD2875, .ori 37 22 0x143 n0),
    (0xA1AD2A77, .xori 37 22 0x143 ⟨true, false⟩),
    (0xA1AD2C79, .shli 37 22 0x143 ⟨false, true⟩),
    (0xA1AD287B, .shrli 37 22 0x143 n0),
    (0xA1AD2A7D, .shrai 37 22 0x143 ⟨true, false⟩),
    (0xA1AD2C7F, .slti 37 22 0x143 ⟨false, true⟩)] = true := by decide +kernel

theorem test_decode_40 : decodesTo [
    (0xB4792881, .li 37 0x5A3C n0),
    (0xB4792A83, .lih 37 0x5A3C ⟨true, false⟩),
    (0x002D2C85, .popc 37 22 ⟨false, true⟩),
    (0x39AD2887, .bfx 37 22 51 true n0),
    (0x19AD2A89, .bfi 37 22 51 ⟨true, false⟩),
    (0xA1AD2C8B, .muli 37 22 0x143 ⟨false, true⟩),
    (0x39AD288D, .clamp 37 22 51 true n0),
    (0x19AD2A8F, .rndc 37 22 51 ⟨true, false⟩),
    (0xB9AD2C91, .ldb 37 ⟨22, 51⟩ 5 ⟨false, true⟩),
    (0xB9AD2893, .ldh 37 ⟨22, 51⟩ 5 n0),
    (0xB9AD2A95, .ldw 37 ⟨22, 51⟩ 5 ⟨true, false⟩),
    (0xB9AD2C97, .ldd 37 ⟨22, 51⟩ 5 ⟨false, true⟩),
    (0xB9AD2899, .ldbs 37 ⟨22, 51⟩ 5 n0),
    (0xB9AD2A9B, .ldhs 37 ⟨22, 51⟩ 5 ⟨true, false⟩),
    (0xB9AD2C9D, .ldws 37 ⟨22, 51⟩ 5 ⟨false, true⟩),
    (0xB9AD289F, .stb 37 ⟨22, 51⟩ 5 n0)] = true := by decide +kernel

theorem test_decode_50 : decodesTo [
    (0xB9AD2AA1, .sth 37 ⟨22, 51⟩ 5 ⟨true, false⟩),
    (0xB9AD2CA3, .stw 37 ⟨22, 51⟩ 5 ⟨false, true⟩),
    (0xB9AD28A5, .std 37 ⟨22, 51⟩ 5 n0),
    (0xA1AD2AA7, .hld 37 22 0x143 ⟨true, false⟩),
    (0xA02D2CA9, .hinfo 37 22 5 ⟨false, true⟩),
    (0xB9AD28AB, .hsub 37 22 51 5 n0),
    (0x19AC02AD, .pref ⟨22, 51⟩ ⟨true, false⟩),
    (0x39AC04AD, .prefL2 ⟨22, 51⟩ ⟨false, true⟩),
    (0x19AD28AF, .cinv 37 ⟨22, 51⟩ n0),
    (0x39AD2AAF, .cinvL2 37 ⟨22, 51⟩ ⟨true, false⟩),
    (0xB9AD2CB1, .aadd 37 ⟨22, 51⟩ 5 ⟨false, true⟩),
    (0xB9AD28B3, .amin 37 ⟨22, 51⟩ 5 n0),
    (0xB9AD2AB5, .amax 37 ⟨22, 51⟩ 5 ⟨true, false⟩),
    (0xB9AD2CB7, .aminu 37 ⟨22, 51⟩ 5 ⟨false, true⟩),
    (0xB9AD28B9, .amaxu 37 ⟨22, 51⟩ 5 n0),
    (0xB9AD2ABB, .aand 37 ⟨22, 51⟩ 5 ⟨true, false⟩),
    (0xB9AD2CBD, .aor 37 ⟨22, 51⟩ 5 ⟨false, true⟩),
    (0xB9AD28BF, .axor 37 ⟨22, 51⟩ 5 n0)] = true := by decide +kernel

theorem test_decode_60 : decodesTo [
    (0xB9AD2AC1, .axch 37 ⟨22, 51⟩ 5 ⟨true, false⟩),
    (0xB9AD2CC3, .acas 37 ⟨22, 51⟩ 5 ⟨false, true⟩),
    (0xB9AD28C5, .afadd 37 ⟨22, 51⟩ 5 n0),
    (0xB9AD2AC7, .redadd 37 ⟨22, 51⟩ 5 ⟨true, false⟩),
    (0xB9AD2CC9, .redfadd 37 ⟨22, 51⟩ 5 ⟨false, true⟩),
    (0xB9AD28CB, .redmin 37 ⟨22, 51⟩ 5 n0),
    (0xB9AD2ACD, .redmax 37 ⟨22, 51⟩ 5 ⟨true, false⟩),
    (0xB9AD2CCF, .ainc 37 ⟨22, 51⟩ 5 ⟨false, true⟩),
    (0x205728D1, .bbclm 37 11 true n0),
    (0x19D602D3, .bbpub 11 51 ⟨true, false⟩),
    (0x39D72CD5, .bbwf 37 11 51 true ⟨false, true⟩),
    (0x205728D7, .bbwe 37 11 true n0),
    (0x19D602D9, .bbrel 11 51 ⟨true, false⟩),
    (0x19D604DB, .bbinit 11 51 ⟨false, true⟩),
    (0x39AC00DD, .cpy ⟨22, 51⟩ true n0),
    (0x39AD2ADF, .cpyq 37 22 51 true ⟨true, false⟩)] = true := by decide +kernel

theorem test_decode_70 : decodesTo [
    (0x39AD2CE1, .cpyx 37 ⟨22, 51⟩ true ⟨false, true⟩),
    (0x39AD28E3, .gath 37 ⟨22, 51⟩ true n0),
    (0x39AD2AE5, .scat 37 ⟨22, 51⟩ true ⟨true, false⟩),
    (0x39AD2CE7, .fill 37 ⟨22, 51⟩ true ⟨false, true⟩),
    (0xB9AD28E9, .sld 37 ⟨22, 51⟩ 5 n0),
    (0xB9AD2AEB, .sst 37 ⟨22, 51⟩ 5 ⟨true, false⟩),
    (0xA0572CED, .bbqry 37 11 5 ⟨false, true⟩),
    (0x39AD28EF, .cpyw 37 ⟨22, 51⟩ true n0),
    (0xB9AD2AF1, .pld 37 ⟨22, 51⟩ 5 ⟨true, false⟩),
    (0x19AD2CF3, .pst 37 ⟨22, 51⟩ ⟨false, true⟩),
    (0x19AD28F5, .pstl 37 ⟨22, 51⟩ n0),
    (0xB9AD2AF7, .paxpy 37 ⟨22, 51⟩ 5 ⟨true, false⟩),
    (0x19AD2CF9, .pscl 37 ⟨22, 51⟩ ⟨false, true⟩),
    (0xB9AD28FB, .pcvt 37 ⟨22, 51⟩ 5 n0),
    (0x19AD2AFD, .pnorm 37 ⟨22, 51⟩ ⟨true, false⟩),
    (0x19AD2CFF, .pcnt 37 ⟨22, 51⟩ ⟨false, true⟩)] = true := by decide +kernel

theorem test_decode_80 : decodesTo [
    (0xB9AD2901, .vadd 37 22 51 5 n0),
    (0xB9AD2B03, .vsub 37 22 51 5 ⟨true, false⟩),
    (0xB9AD2D05, .vmul 37 22 51 5 ⟨false, true⟩),
    (0xB9AD2907, .vfma 37 22 51 5 n0),
    (0xB9AD2B09, .vmin 37 22 51 5 ⟨true, false⟩),
    (0xB9AD2D0B, .vmax 37 22 51 5 ⟨false, true⟩),
    (0xA02D290D, .vabs 37 22 5 n0),
    (0xA02D2B0F, .vneg 37 22 5 ⟨true, false⟩),
    (0xB9AD2D11, .vcmp 37 22 51 5 ⟨false, true⟩),
    (0x19AD2913, .vsel 37 22 51 n0),
    (0x19AD2B15, .vand 37 22 51 ⟨true, false⟩),
    (0x19AD2D17, .vor 37 22 51 ⟨false, true⟩),
    (0x19AD2919, .vxor 37 22 51 n0),
    (0x19AD2B1B, .vshl 37 22 51 ⟨true, false⟩),
    (0x19AD2D1D, .vshr 37 22 51 ⟨false, true⟩),
    (0x19AD291F, .vcvt 37 22 51 n0)] = true := by decide +kernel

theorem test_decode_90 : decodesTo [
    (0xA02D2B21, .vsfn 37 22 5 ⟨true, false⟩),
    (0xA02D2D23, .vred 37 22 5 ⟨false, true⟩),
    (0x002D2925, .vbcst 37 22 n0),
    (0xB9AD2B27, .vld 37 ⟨22, 51⟩ 5 ⟨true, false⟩),
    (0xB9AD2D29, .vst 37 ⟨22, 51⟩ 5 ⟨false, true⟩),
    (0xB9AD292B, .vget 37 22 51 5 n0),
    (0xB9AD2B2D, .vput 37 22 51 5 ⟨true, false⟩),
    (0x19AD2D2F, .vcolR 37 22 ⟨51, 0⟩ ⟨false, true⟩),
    (0xF9AD2D2F, .vcolR 37 22 ⟨51, 7⟩ ⟨false, true⟩),
    (0x39AD292F, .vcolW 37 22 51 n0),
    (0x19AD2B31, .vperm 37 22 51 ⟨true, false⟩),
    (0xB9AD2D33, .vrng 37 22 51 5 ⟨false, true⟩),
    (0x00012935, .osmx 37 n0),
    (0x00012B37, .osmn 37 ⟨true, false⟩),
    (0xB9AD2D39, .vqnt 37 22 51 5 ⟨false, true⟩),
    (0xB9AD293B, .vdqn 37 22 51 5 n0),
    (0x002D2B3D, .viota 37 22 ⟨true, false⟩),
    (0xA02D2D3F, .vscan 37 22 5 ⟨false, true⟩)] = true := by decide +kernel

theorem test_decode_A0 : decodesTo [
    (0xB9AD2941, .mlw 37 ⟨22, 51⟩ 5 n0),
    (0x00000343, .mswp ⟨true, false⟩),
    (0x19AD2D45, .mma 37 ⟨22, 51⟩ ⟨false, true⟩),
    (0x19AD2947, .mmaz 37 ⟨22, 51⟩ n0),
    (0xB9AD2B49, .mdrn 37 ⟨22, 51⟩ 5 ⟨true, false⟩),
    (0x002D2D4B, .mcfg 37 22 ⟨false, true⟩),
    (0x2001294D, .mzro 37 true n0),
    (0xB9AD2B4F, .mscl 37 ⟨22, 51⟩ 5 ⟨true, false⟩),
    (0x19AC0551, .mbias ⟨22, 51⟩ ⟨false, true⟩),
    (0x20000151, .mbiasClr n0),
    (0x19AD2B53, .mgemv 37 ⟨22, 51⟩ ⟨true, false⟩),
    (0x00012D55, .mgwt 37 ⟨false, true⟩),
    (0x202D2957, .movc 37 22 true n0),
    (0x402D2B59, .mtrn 37 22 false true ⟨true, false⟩),
    (0xA02D2D5B, .mstat 37 22 5 ⟨false, true⟩),
    (0x0000015D, .mrsm n0),
    (0x2000035D, .mrsmDiscard ⟨true, false⟩),
    (0x002C055F, .mfmt 22 ⟨false, true⟩)] = true := by decide +kernel

theorem test_decode_B0 : decodesTo [
    (0x19AC0161, .sendM 22 51 n0),
    (0x19AC0363, .fcpy ⟨22, 51⟩ ⟨true, false⟩),
    (0x19AC0565, .fred ⟨22, 51⟩ ⟨false, true⟩),
    (0x19AC0167, .fsig 22 51 n0),
    (0x19AD2B69, .coll 37 ⟨22, 51⟩ ⟨true, false⟩),
    (0xA02D2D6B, .cqry 37 22 5 ⟨false, true⟩),
    (0x002D296D, .cwait 37 22 n0),
    (0x002C036F, .cabt 22 ⟨true, false⟩),
    (0x39AD2D71, .xfm 37 ⟨22, 51⟩ true ⟨false, true⟩),
    (0x002D2973, .xwait 37 22 n0),
    (0xA02D2B75, .xqry 37 22 5 ⟨true, false⟩),
    (0x002C0577, .xabt 22 ⟨false, true⟩),
    (0x202C0177, .xabtQ 22 n0),
    (0x00000379, .eret ⟨true, false⟩),
    (0x0A932D7B, .mfs 37 0x549 ⟨false, true⟩),
    (0x0A93297D, .mts 37 0x549 n0),
    (0x002C037F, .wfi 22 ⟨true, false⟩)] = true := by decide +kernel

theorem test_decode_hint : decodesTo [
    (0xAD1E3DA7, .hint 19 0x15A3C7 ⟨false, true⟩)] = true := by decide +kernel

theorem test_decode_compact : decodesTo [
    (0x0000, .cNop),
    (0x001E, .cEnd),
    (0x9246, .cMov 9 18),
    (0x9248, .cAdd 9 18),
    (0x924A, .cSub 9 18),
    (0x924C, .cAnd 9 18),
    (0x924E, .cOr 9 18),
    (0x9250, .cXor 9 18),
    (0xE802, .cTkw 29),
    (0xE804, .cTkp 29),
    (0xEA52, .cAddi 9 29),
    (0xEA54, .cLi 9 29),
    (0xEA56, .cShli 9 29),
    (0xEA58, .cShrli 9 29),
    (0xEA5A, .cBz 9 29),
    (0xEA5C, .cBnz 9 29)] = true := by decide +kernel

/-- R317: operation 7:0, bits 23:8, operand 63:24. -/
theorem test_decode_sequencer : ([
    (0x0000000000000000, .sequencerEnd), (0x0000000000000001, .sqAlign), (0x0000000000123402, .sqPhase 0x1234),
    (0x205CC40C18000503, .sqMake { circuit := 5, stile := 2, dmod := 1, dtile := 7, width1 := 3, minw1 := 1, span := false, rcore := 0, rbob := 3, route := 12, rx := false }),
    (0xFF57838B2D00A504, .sqTree { circuit := 0xA5, stile := 15, dmod := 61, dtile := 5, width1 := 14, minw1 := 0, span := true, rcore := 6, rbob := 2, route := 406, rx := true }),
    (0x0000000000004005, .sqBreak 64), (0x0000000000012306, .sqPrep 0x123), (0x000000000000FF07, .sqWait 255),
    (0x0000000001050908, .sqSigt 265 2 0 1), (0x00DEADBEEFB50308, .sqSigt 0x103 0xA 5 0xDEADBEEF), (0x0000000000000009, .sqPausept),
    (0x000000000003E80A, .sqLoop 1000), (0x000000000000000B, .sqNext), (0xC041200000000E0C, .sqChunk 14 769 0x012)] : List (Nat × Instr)).all
    (fun e => decide (decodeTableWord 64 e.1 = some e.2)) = true := by decide +kernel

/-- R109, R110, R317: reserved operations are refused by name. -/
theorem test_decode_reserved : decode (leBytes 4 0x000001C1) = .error .reservedOp ∧ decode (leBytes 2 0x0020) = .error .reservedCompact ∧
    decodeSeq 0x0D#64 = .error .reservedSeqOp ∧ decode [1, 0] = .error .truncated := by decide +kernel

/-! ## A small state -/

/-- Page tables at 0x40000 and 0x60000 of T0's HBM: VA 0 to 8 GiB code of class `cls`, 8 to 16 GiB data, 16 to 24 GiB
data with persist-through, all onto PA 0; a header stands at 0x200000 and 0x200100. -/
def ptMem (cls : Nat) : Memory :=
  (((((Memory.writeNat ([] : Memory) 0x40000 8 (2 ^ 63 + 0x60000)).writeNat 0x60000 8 (2 ^ 63 + 2 ^ 62 + 2 ^ 57 + 2 ^ 55 + cls * 2 ^ 52)).writeNat
    0x60008 8 (2 ^ 63 + 2 ^ 62 + 2 ^ 57 + 2 ^ 56 + 2 ^ 61)).writeNat 0x60010 8 (2 ^ 63 + 2 ^ 62 + 2 ^ 57 + 2 ^ 56 + 2 ^ 14 + 2 ^ 61)).writeNat
    0x200000 4 0x00008003).writeNat 0x200100 4 0x00008003
def hnd (space base bound type : Nat) : Handle :=
  { base := base, bound := bound, type := type, space := space, ceil := 2, pr := true, pw := true, pa := true, rank := 1, e0 := 48 }
/-- A running slot 0 of core 0 of T0 that executes on stream `f`, two tokens in every channel. -/
def mk (f : Nat) (xs : Tab Word) (hs : Tab Handle) (m : Memory := ptMem 0) (st : Stream := {}) : State :=
  { cur := ⟨0, 0, 0, f⟩
    streams := Tab.set {} f { st with x := xs, pc := 0x200004, ended := false } []
    slots := [(0, { mode := .running, handles := hs, tack := (List.range 20).map (fun c => (c, 2)), regs := { tvec := 0x200000 } })]
    tiles := [(0, { ptroot := 0x40001 })]
    mem := m, clock := 1600 }
def body (wp pp rem : Nat) : Option Block := some ⟨0x200000, 0x200004, 0x200044, rem, wp, pp⟩
def tk : Tack := ⟨true, true⟩
/-- What an outcome's next state shows. -/
def shows {α : Type} [DecidableEq α] (o : Host.Outcome State Fault Refusal) (f : State → α) (v : α) : Bool :=
  match o with
  | .next u => decide (f u = v)
  | _ => false

/-! ## Single steps and operations against values of the spec -/

def xI : Tab Word := [(1, 5), (2, 0xFFFFFFFFFFFFFFFF), (3, 0x8000000000000000), (4, 0), (5, 7)]
/-- R156: sums wrap; x0 keeps nothing (R17); the DIV corners of R64. -/
theorem test_integer : shows (execAddR 6 1 2 n0 (mk 0 xI [])) (fun u => u.x 6) 4 && shows (execAddR 0 1 2 n0 (mk 0 xI [])) (fun u => u.x 0) 0 &&
    shows (execDivI 6 1 4 n0 (mk 0 xI [])) (fun u => u.x 6) 0xFFFFFFFFFFFFFFFF &&
    shows (execDivI 6 3 2 n0 (mk 0 xI [])) (fun u => u.x 6) 0x8000000000000000 &&
    shows (execRemI 6 3 2 n0 (mk 0 xI [])) (fun u => u.x 6) 0 && shows (execRemI 6 1 4 n0 (mk 0 xI [])) (fun u => u.x 6) 5 &&
    shows (execMulh 6 2 2 n0 (mk 0 xI [])) (fun u => u.x 6) 0 && shows (execMulhu 6 2 2 n0 (mk 0 xI [])) (fun u => u.x 6) 0xFFFFFFFFFFFFFFFE &&
    shows (execClz 6 4 n0 (mk 0 xI [])) (fun u => u.x 6) 64 = true := by decide +kernel

/-- R100 by hand on a zero key and counter (log 11), two rounds: the words entering round 2 of R160's table. -/
theorem test_cg8_two_rounds : counterRounds 2 0 0 (0, 0, 0, 0) = (0x4D2C6F83#32, 0x4D2C6F83#32, 0xA3B195E7#32, 0xA3B195E7#32) := by decide +kernel
/-- R100, eight rounds worked outside the model: RNDC x10, x8, x8 on zeros. -/
theorem test_rndc : shows (execRndc 10 8 8 n0 (mk 0 [] [])) (fun u => (u.x 10, u.x 11)) (0xB01EEDB6B63015A3, 0x44FAEEC35CFE0FE9) = true := by
  decide +kernel

/-- R148's table: value, threshold, passes. -/
theorem test_semaphore_comparison : semPasses 0x10 0x10 && !semPasses 0xFFFFFFF0 0x10 && semPasses 5 0xFFFFFFF0 && !semPasses 0x80000000 0 = true := by
  decide +kernel

/-- R58's example: iteration 7 of extents 3 and 4, row-major and serpentine. -/
theorem test_walker_indices :
    let r : WalkRec := { index := 0, rid := 0, serp := false, perm := [0, 1], ext := [3, 4], cmask := 1, prio := 0, deps := [], entry := [], done := none, bad := false, next := 0 }
    r.indices 7 = [1, 3, 0, 0] ∧ { r with serp := true }.indices 7 = [1, 0, 0, 0] := by decide +kernel

/-- R83's example: a PB8 block read at two plies under RHU (mode 1) and RNE (mode 2). -/
theorem test_ply_delivery : deliver 0 2 4 (91 / 16) = (5, false) ∧ deliver 1 2 4 22 = (6, false) ∧ deliver 2 2 4 91 = (6, false) ∧
    deliver 1 2 4 10 = (3, false) ∧ deliver 2 2 4 40 = (2, false) ∧ deliver 1 2 4 (-10) = (-2, false) ∧ deliver 2 2 4 (-40) = (-2, false) ∧
    deliver 1 2 4 30 = (7, true) ∧ deliver 2 2 4 120 = (7, true) := by decide +kernel

/-- R86's example: block 12's ply bits of group 0 of a PB8 tensor stand at 216, 600, 984 and 1,368 in byte 8 of its record. -/
theorem test_ply_layout : (groupRanges 2 0 4).map (·.1) = [0, 64, 448, 832, 1216] ∧ scaleSlab 2 = 64 := by decide +kernel

/-- R91's example: 2^−22 added twice to 1.0 in WF32, one at a time. -/
theorem test_accumulate : accumulate false false (accumulate false false 0x3FE00000 (Num.dy 1 (-22))) (Num.dy 1 (-22)) = 0x3FE00000 := by decide +kernel

/-- R267's example, the values of the first and second OSMX and of OSMN's quotient. -/
theorem test_softmax_parts : exp2Sub 0x40000000 0x40400000 = (0x3F000000, 0) ∧ exp2Sub 0xFF800000 0x40400000 = (0, 0) ∧
    fFma fp32 0 0x3F000000 0x40300000 0x400C0000 = (0x40640000, 0) ∧ (fDiv fp32 0x3F800000 0x40640000).1 = 0x3E8FB824 := by decide +kernel

/-- R287's example: 35,000 and −1.5 under RS = 2, RELU: E4M3 and FP16 under SAT, FP16 under IEEE. -/
theorem test_drain_lane :
    let wf (v : Int) (e : Int) : Nat := (cvt wf32 (Num.dy v e) 0 false).1
    let two := 0x40000000
    let one := 0x3F800000
    (drainLane 0x0B 0x0C 1 false two one 0 (wf 35000 0)).1 = 0x7E ∧ (drainLane 0x0B 8 1 false two one 0 (wf 35000 0)).1 = 0x7BFF ∧
      (drainLane 0x0B 8 1 true two one 0 (wf 35000 0)).1 = 0x7C00 ∧ (drainLane 0x0B 8 1 false two one 0 (wf (-3) (-1))).1 = 0 := by decide +kernel

/-- The first instruction after reset is the one placed where the step fetches (log 7): ADD x5, x6, x7 and LI x7, 5. -/
theorem test_first_step : shows (step (State.reset.withFetchWord 32 0x038C2841)) (fun u => (u.x 5, u.me.pc)) (0, 0x200004) &&
    shows (step (State.reset.withFetchWord 32 (0x81 + 7 * 2 ^ 11 + 5 * 2 ^ 17))) (fun u => u.x 7) 5 &&
    shows (step (State.reset.withFetchWord 16 (0x12 + 7 * 2 ^ 6 + 29 * 2 ^ 11))) (fun u => u.me.pc) 0x200002 &&
    shows (step (State.reset.withFetchWord 64 0x07)) (fun u => u.seq.pc) 1 = true := by decide +kernel

/-- R143: SYSC takes the system-call exception: cause 0x13, the slot trapped at its vector, the return address at the SYSC. -/
theorem test_syscall : shows (execSysc 1 7 n0 (mk 0 xI [])) (fun u => ((u.slot 0).mode, (u.slot 0).regs.cause, (u.slot 0).regs.super, (u.slot 0).sup.pc))
    (.trapped, 0x80000013, true, 0x200000) = true := by decide +kernel

/-- R123, R124: bytes that no word has stop the step by name. -/
theorem test_unscanned : (match step (State.reset.withFetchWord 32 0x000001C1) with | .fault .unscanned => true | _ => false) = true := by
  decide +kernel

/-! ## Witnesses: a state and operands that meet the premises of each obligation

One theorem an obligation; its conjuncts are the premises of the clauses, in order, at the edges of their ranges. -/

def tr (l : List Bool) : Bool := l.all id

theorem witness_IntegerRegisterInstructions : Ready (mk 0 xI []) tk := by decide +kernel
theorem witness_ImmediateInstructions : Ready (mk 0 xI [] (ptMem 0) { ext := some 5 }) tk ∧ Ready (mk 0 xI []) n0 := by decide +kernel
theorem witness_TimeAndIdentity :
    let s := mk 0 xI []
    Ready s tk ∧ (s.x 0 + (1600#14).setWidth 64).toNat ≤ s.clock - (s.auxOf s.cur.coreK).cycleBase ∧
    s.clock - (s.auxOf s.cur.coreK).cycleBase < (s.x 0 + (1601#14).setWidth 64).toNat ∧
    (s.x 0 + (100#14).setWidth 64).toNat ≤ s.clock / 16 + s.jumped ∧ s.clock / 16 + s.jumped < (s.x 0 + (101#14).setWidth 64).toNat ∧
    (∀ stitch : Bool, let n := if stitch = true then 100 else 1600
      let u := mk 0 xI [] (ptMem 0) { wait := some (.until stitch n tk) }
      Ready u tk ∧ u.me.wait = some (.until stitch n tk)) ∧
    s.cur.wf = true ∧ s.cur.thimble = false ∧ 3 ≠ s.cur.slot ∧
    (let q : Place := { s.cur with slot := 3 }
     (s.slot q.slotK).regs.eff = s.mySlot.regs.eff ∧ (s.at q).issued < s.clock) := by decide +kernel
theorem witness_BlocksAndExtensions : (mk 0 xI []).me.push = [] ∧ ∃ s t : State, Sequential s t 4 s.x 0 :=
  ⟨by decide +kernel, mk 0 [] [], (mk 0 [] []).setStream 0 { (mk 0 [] []).stream 0 with pc := 0x200008 },
    fun r => rfl, rfl, rfl, rfl, rfl, rfl, rfl, rfl⟩
def xB : Tab Word := [(1, 0x200100), (2, 1), (63, 0x200000)]
theorem witness_BranchesTransfer :
    let s := mk 0 xB []
    Ready s tk ∧ s.lands (addr56 (s.me.pc + BitVec.ofInt 64 (2 * immOf s 15 (-2#15)))) = true ∧ s.x 0 = 0 ∧ s.x 2 ≠ 0 ∧
    s.lands (s.x 1) = true ∧ (s.x 1).toNat % 2 = 0 ∧ (s.x 1).toNat < 2 ^ 56 ∧
    s.lands (s.x 63#6) = true ∧ (s.x 63#6).toNat % 2 = 0 ∧ (s.x 63#6).toNat < 2 ^ 56 ∧
    s.lands (addr56 (s.me.pc + BitVec.ofInt 64 (2 * (-2#5).toInt))) = true := by decide +kernel

/-- A property of every entry of a table and of what an unlisted index reads as holds of every read. -/
theorem get_all {α : Type} {P : α → Prop} {d : α} (hd : P d) (i : Nat) : ∀ t : Tab α, (∀ e ∈ t, P e.2) → P (Tab.get d i t)
  | [], _ => hd
  | (j, v) :: r, h => by
    unfold Tab.get
    split
    · exact h (j, v) (by simp)
    · exact get_all hd i r (fun e he => h e (by simp [he]))
def unarmed (g : Engine) : Bool := g.ops.all (fun o => o.armed.isNone)
/-- No copy is armed, no stream waits and no transform record waits, by running through the tables. -/
def noCopyWaits (s : State) : Bool := s.engines.all (fun e => unarmed e.2) && s.tiles.all (fun e => unarmed e.2.copy)
def noStreamWaits (s : State) : Bool := s.streams.all (fun e => e.2.wait.isNone) && s.slots.all (fun e => e.2.sup.wait.isNone)
def noRecordWaits (s : State) : Bool :=
  s.tiles.all (fun e => (e.2.xfm0.queue ++ e.2.xfm1.queue).all (fun o => !bitN o.wsel 15 || o.passed))
theorem unarmed_engine {s : State} (h : noCopyWaits s = true) (e : Eng) : unarmed (s.engine e) = true := by
  simp only [noCopyWaits, Bool.and_eq_true, List.all_eq_true] at h
  cases e with
  | core t c => exact get_all (P := fun g => unarmed g = true) rfl _ _ h.1
  | tile t => exact get_all (P := fun v : Tile => unarmed v.copy = true) rfl _ _ h.2
theorem noneArmed_of {s : State} (h : noCopyWaits s = true) (n : Nat) : NoneArmed s n := fun e o ho thr c => by
  have := List.all_eq_true.mp (unarmed_engine h e) o ho
  rw [c] at this
  cases this
theorem noWaiters_of {s : State} (h : noStreamWaits s = true) (hc : noCopyWaits s = true) (hr : noRecordWaits s = true) : NoWaiters s := by
  simp only [noStreamWaits, noRecordWaits, Bool.and_eq_true, List.all_eq_true] at h hr
  refine ⟨fun p => ?_, fun e o ho => Option.isNone_iff_eq_none.mp (List.all_eq_true.mp (unarmed_engine hc e) o ho), fun tile e o ho hb => ?_⟩
  · have e : (s.at p).wait = none := by
      unfold State.at State.stream State.slot
      split
      · exact get_all (P := fun v : Slot => v.sup.wait = none) rfl _ _ (fun e he => Option.isNone_iff_eq_none.mp (h.2 e he))
      · exact get_all (P := fun v : Machine.Stream => v.wait = none) rfl _ _ (fun e he => Option.isNone_iff_eq_none.mp (h.1 e he))
    rw [e]; trivial
  · have := get_all (d := ({} : Tile)) (P := fun v : Tile => ∀ o ∈ v.xfm0.queue ++ v.xfm1.queue, (!bitN o.wsel 15 || o.passed) = true) (by simp)
      tile _ hr o (by
      unfold State.xfm at ho
      split at ho
      · exact List.mem_append_left _ ho
      · exact List.mem_append_right _ ho)
    simpa [hb] using this

/-- The three of them together. -/
def idleB (s : State) : Bool := noStreamWaits s && noCopyWaits s && noRecordWaits s
theorem idle {s : State} (h : idleB s = true) : NoWaiters s := by
  simp only [idleB, Bool.and_eq_true] at h
  exact noWaiters_of h.1.1 h.1.2 h.2

def aTask : Task := { id := 9, tile := 0, recIdx := 0, iter := 3, done := some (63, 0, 2) }
def sEnd : State := (mk 0 [] []).setSlot 0 { (mk 0 [] []).slot 0 with task := some aTask }
theorem witness_StreamsEnd :
    let s := (mk 0 [] []).setStream 4 { ended := false }
    (Ready s n0 ∧ s.cur.wf = true ∧ s.super = false ∧ s.me.wait = none ∧ s.mySlot.mode ≠ .free ∧ s.cur.tile < 16 ∧
      (s.stream (5 * s.cur.slotK + 4)).ended = false ∧ (s.stream (5 * s.cur.slotK + 4)).wait = none) ∧ NoneArmed sEnd 63 ∧
    (Ready sEnd tk ∧ sEnd.cur.wf = true ∧ sEnd.me.wait = none ∧ sEnd.super = false ∧ sEnd.mySlot.mode = .running ∧
      sEnd.mySlot.task = some aTask ∧ aTask.done = some (63, sEnd.cur.core, 2) ∧ sEnd.mySlot.faults = [] ∧
      sEnd.mySlot.delivered = none ∧ sEnd.pausedOf sEnd.cur.tile aTask.id = [] ∧
      ∀ f, f < 5 → f ≠ sEnd.cur.stream → (sEnd.stream (5 * sEnd.cur.slotK + f)).ended = true) :=
  ⟨by decide +kernel, noneArmed_of (by decide +kernel) 63, by decide +kernel⟩

def sRend (w : Option Wait) : State := (mk 0 [] []).setStream 2 { ended := false, wait := w, pc := 0x200010 }
theorem witness_RendezvousForms :
    let s := sRend (some (.rend 5 7 n0))
    (Ready s tk ∧ s.cur.wf = true ∧ s.mySlot.regs.super = false ∧ s.me.wait = none ∧ s.me.ext = none) ∧
    (∀ f, f < 5 → f ≠ s.cur.stream → (5#5).getLsbD f = true → AtRendezvous s 5 7 f) ∧
    ¬ AtRendezvous (sRend none) 5 7 2 := by
  refine ⟨by decide +kernel, ?_, ?_⟩
  · intro f hf _ hm
    have h2 : f = 2 ∨ f = 0 := by
      have : f = 0 ∨ f = 1 ∨ f = 2 ∨ f = 3 ∨ f = 4 := by omega
      rcases this with h | h | h | h | h <;> subst h <;> revert hm <;> decide
    rcases h2 with h | h <;> subst h
    · exact .inr ⟨n0, by decide +kernel⟩
    · contradiction
  · rintro (h | ⟨t, h⟩)
    · exact absurd h (by decide +kernel)
    · have e : ((sRend none).stream (5 * (sRend none).cur.slotK + 2)).wait = none := by decide +kernel
      rw [e] at h; cases h

def withTack (l : Tab Nat) (s : State) : State := s.setMySlot { s.mySlot with tack := l }
theorem witness_Tacks :
    let s := mk 0 [] []
    let c1 := channel (peer s.cur.stream 1) s.cur.stream
    let c2 := channel s.cur.stream (peer s.cur.stream 1)
    let sb := mk 0 [] [] (ptMem 0) { block := body 1 2 3 }
    s.me.push = [] ∧ (withTack [(c1, 8)] s).mySlot.tackCount c1 = (7#3).toNat + 1 ∧
    (withTack [(c2, 8)] s).mySlot.tackCount c2 + ((7#3).toNat + 1) = 16 ∧
    (29#5).toNat / 4 + 1 = (withTack [(channel (peer s.cur.stream ((29#5).toNat % 4)) s.cur.stream, 8)] s).mySlot.tackCount
      (channel (peer s.cur.stream ((29#5).toNat % 4)) s.cur.stream) ∧
    Ready sb tk ∧ sb.me.block = body 1 2 3 ∧
    channel (peer sb.cur.stream 1) sb.cur.stream ≠ channel sb.cur.stream (peer sb.cur.stream 2) ∧
    sb.mySlot.tackCount (channel sb.cur.stream (peer sb.cur.stream 2)) < 16 := by decide +kernel

def xS : Tab Word := [(1, 5), (2, 0xFFFFFFFF00000003), (3, 0x80000001), (4, 0b1001000), (6, 1)]
def sSem : State := { mk 0 xS [] with cores := [(0, { sems := [(3, { v := 4 }), (9, { v := 0x80000000#32, sig := some (2, 1) })], lpseq := 5 })] }
def sWait : State := (sSem.setStream 7 { wait := some (.semw 9 1 5 n0), ended := false, pc := 0x200020, x := [(5, 9)] }).setSlot 1 { mode := .running }
theorem witness_SemaphoreOperations :
    (Ready sSem tk ∧ Undisturbed sSem ∧ NoReductions sSem ∧ Names 63 ∧ Names 256) ∧ (∀ n, NoneArmed sSem n ∧ NoneArmed sWait n) ∧
    (let q : Place := ⟨0, 0, 1, 2⟩
     Ready sWait n0 ∧ Undisturbed sWait ∧ q.wf = true ∧ q.tile = sWait.cur.tile ∧ q.core = sWait.cur.core ∧ q.slot ≠ sWait.cur.slot ∧
     q.slotK ∈ sWait.slots.map (·.1) ∧ (sWait.slot q.slotK).regs.super = false ∧
     (sWait.stream q.streamK).wait = some (.semw 9 1 5 n0) ∧ AtLeast ((semOf sWait 9).v + (sWait.x 3).setWidth 32) 1) := by
  refine ⟨?_, fun n => ⟨noneArmed_of (by decide +kernel) n, noneArmed_of (by decide +kernel) n⟩, ?_⟩ <;>
    simp only [Undisturbed, Names, NoReductions, AtLeast] <;> decide +kernel
theorem witness_SemaphoreWaits :
    let s := sSem
    Ready s tk ∧ s.cur.wf = true ∧ Names 3 ∧ AtLeast (semOf s 3).v 4 ∧ ¬ AtLeast (semOf s 3).v ((s.x 1).setWidth 32) ∧ s.x 0 = 0 ∧
    (s.x 4).getLsbD 3 = true ∧ AtLeast (semOf s 3).v ((s.x 6).setWidth 32) ∧ s.x 4 ≠ 0 ∧
    (∀ k, k < 64 → (s.x 4).getLsbD k = true → ¬ AtLeast (semOf s k).v ((s.x 1).setWidth 32)) := by
  simp only [Names, AtLeast]; decide +kernel

def st1 (s : State) : State := s.setAux 0 { stores := [⟨0, 800, 8, 5⟩, ⟨6, 900, 8, 1⟩] }
theorem witness_FencesAndAcquires :
    let s := mk 0 xS [] (ptMem 0) { wait := some (.lining 0 n0) }
    let far : State := s.setAux 0 { stores := [⟨0, 8 * sram kShared 0 0x100, 8, 5⟩] }
    let red (a : Nat) : State := s.setTile 3 { reds := [{ source := s.cur.streamK, home := 3, number := 1, addr := a, bit := 0, type := 6, rop := 1
                                                          value := 7, task := 0, place := s.cur, va := 0, space := 4 }] }
    Ready s tk ∧ s.cur.wf = true ∧ (1#3).toNat < 2 ∧ 2 ≤ (2#3).toNat ∧ NoReductions s ∧ (s.auxOf s.cur.coreK).stores = [] ∧ (mk 0 [] []).me.wait = none ∧
    (∀ e ∈ s.tiles, ∀ r ∈ e.2.reds, r.source ≠ s.cur.streamK) ∧
    (⟨s.cur.lane, 800, 8, 5⟩ ∈ ((st1 s).auxOf s.cur.coreK).stores ∧ 800 / 8 < 2 ^ 52) ∧
    (∃ e ∈ (red 0x300000).tiles, ∃ r ∈ e.2.reds, r.source = s.cur.streamK ∧ r.addr < 2 ^ 52) ∧
    (∀ e ∈ (far.auxOf s.cur.coreK).stores, ¬ (e.bit / 8 < 2 ^ 52 ∨ e.bit / 8 / 2 ^ 52 = 4)) ∧
    s.me.wait = some (.lining 0 n0) ∧ AtLeast s.myCore.lpseq (BitVec.ofNat 32 0) := by
  simp only [AtLeast, NoReductions]; decide +kernel

/-! ### Memory -/

def xM : Tab Word := [(1, 8), (2, 16), (6, 1), (7, 64), (9, 0x1122334455667788)]
def hM : Tab Handle := [(1, hnd 4 0x200300000 65536 6), (2, hnd 1 0x100 4096 7), (3, hnd 4 0x400300000 65536 2), (6, { hnd 4 0x200300000 65536 18 with wstart := 3 }),
  (8, hnd 4 0x200300000 65536 10)]
def dat : Memory := (Memory.writeNat (ptMem 0) 0x300000 16 0x80FF7F0188776655443322118899AABB).writeNat (sram kScratch 0 0x100) 8 0xF1E2D3C4B5A69788
def sM : State := mk 0 xM hM dat
def passes (s : State) (h : Reg) (off : Int) (w : Want) : Bool := (access s (s.h h) h.toNat off w).isSome
/-- Bytes, halfwords, words and doublewords; a sub-byte element; the core's scratchpad; a line in the L1. -/
theorem witness_ScalarLoads : Ready sM tk ∧ NoReductions sM ∧ tr [passes sM 1 65535 ((sM.h 1).scalarWant 65535 1 false false false),
    passes sM 1 65534 ((sM.h 1).scalarWant 65534 2 false false false), passes sM 1 65532 ((sM.h 1).scalarWant 65532 4 false true false),
    passes sM 1 8 ((sM.h 1).scalarWant 8 8 false true false), passes sM 6 5 ((sM.h 6).scalarWant 5 1 false false false),
    passes sM 2 8 ((sM.h 2).scalarWant 8 8 false true false)] = true ∧ (sM.h 1).space ≠ 9 := by
  simp only [NoReductions]; decide +kernel
theorem witness_ScalarStores : Ready sM tk ∧ NoReductions sM ∧ tr [passes sM 1 65535 ((sM.h 1).scalarWant 65535 1 true false false),
    passes sM 1 65534 ((sM.h 1).scalarWant 65534 2 true false false), passes sM 1 65532 ((sM.h 1).scalarWant 65532 4 true true false),
    passes sM 3 8 ((sM.h 3).scalarWant 8 8 true true false), passes sM 6 5 ((sM.h 6).scalarWant 5 1 true false false),
    passes sM 2 8 ((sM.h 2).scalarWant 8 8 true true false)] = true ∧
    ∀ e ∈ ((st1 sM).auxOf sM.cur.coreK).stores, e.meets ⟨0, 8 * sram kScratch 0 0x108, 64, 0⟩ = false := by
  simp only [NoReductions]; decide +kernel
theorem witness_Atomics : Ready sM tk ∧ NoReductions sM ∧ tr [passes sM 1 0 ((sM.h 1).atomicWant 0 [2, 3, 6, 7] false),
    passes sM 3 4 ((sM.h 3).atomicWant 4 [2, 3, 6, 7] false), passes sM 8 4 ((sM.h 8).atomicWant 4 [10, 2, 3, 6, 7] false),
    passes sM 8 4 ((sM.h 8).atomicWant 4 [10] false)] = true := by
  simp only [NoReductions]; decide +kernel

def red (n ad : Nat) (bit : Nat := 0) (ty : Nat := 6) : Reduction :=
  { source := 0, home := 3, number := BitVec.ofNat 32 n, addr := ad, bit := bit, type := ty, rop := 1, value := 77, task := 0, place := ⟨0, 0, 0, 0⟩, va := 0, space := 4 }
def sRed (ap : BitVec 32) : State := sM.setTile 1 { reds := [red 5 0x300000, red 6 0x300004], applied := [(redKey 0 3, ap)] }
theorem witness_Reductions : (Ready sM tk ∧ tr [passes sM 1 4 ((sM.h 1).atomicWant 4 [2, 3, 6, 7] true), passes sM 8 4 ((sM.h 8).atomicWant 4 [10] true),
      passes sM 8 4 ((sM.h 8).atomicWant 4 [10, 2, 3, 6, 7] true)] = true) ∧
    ((sRed 4).tile 1).reds[0]? = some (red 5 0x300000) ∧ 0 < ((red 5 0x300000).number - Tab.get 0 (redKey 0 3) ((sRed 4).tile 1).applied).toInt ∧
    (∀ q ∈ ((sRed 4).tile 1).reds.take 0, q.source ≠ (red 5 0x300000).source ∨ q.home ≠ (red 5 0x300000).home) ∧ poisonIn (sRed 4) [(0x300000, 4)] = none ∧ ((red 5 0x300000).number - Tab.get 0 (redKey 0 3) ((sRed 5).tile 1).applied).toInt ≤ 0 := by decide +kernel

def bob (head claim fill : BitVec 32) (pubv : BitVec 256 := 0) (n : Nat := 4) : State :=
  { mk 0 [(1, 0), (2, 1), (3, 4), (4, 0x1C0), (5, 0x100 + 64 * 255), (6, 8190 * 64 + 64 * 2 ^ 23 + 2 ^ 39 * 2), (7, 0x140)] [] with
    cores := [(0, { bobbins := [(2, ⟨0x100, 64, n, head, claim, fill, pubv, 0⟩)] })] }
theorem witness_BobbinInstructions :
    let b : BitVec 4 := 2
    let used (s : State) : Nat := ((bobOf s b).claim - (bobOf s b).head).toNat
    let ready (s : State) : Nat := ((bobOf s b).fill - (bobOf s b).head).toNat
    let n (s : State) : Nat := (bobOf s b).scount
    Ready (bob 0 3 0) tk ∧ used (bob 0xFFFFFFFF 2 0) < n (bob 0xFFFFFFFF 2 0) ∧ n (bob 0 4 0) ≤ used (bob 0 4 0) ∧
    ((bob 0 2 2).x 2).toNat < ready (bob 0 2 2) ∧ ((bob 0 2 2).x 2).toNat < n (bob 0 2 2) ∧ ready (bob 0 1 1) ≤ ((bob 0 1 1).x 2).toNat ∧
    n (bob 0 5 5) ≤ ((bob 0 5 5).x 3).toNat ∧ ((bob 0 0 0).x 1).toNat = 0 ∧ ((bob 0xFFFFFFFF 3 3).x 3).toNat ≤ ready (bob 0xFFFFFFFF 3 3) ∧
    (∀ x ∈ [(bob 0 4 3, (4 : Reg), 3), (bob 0 256 255 0 256, 5, 255), (bob 0xFFFFFFFE 3 0xFFFFFFFF, 7, 1)],
      let s := x.1
      let q := bobOf s b
      x.2.2 < n s ∧ n s ≤ 256 ∧ (s.x x.2.1).toNat = q.base + q.ssize * x.2.2 ∧ 0 < q.ssize ∧ q.pubv.getLsbD x.2.2 = false ∧
        (q.claim - q.fill).toNat ≤ n s ∧ ∃ i, i < (q.claim - q.fill).toNat ∧ (q.fill + BitVec.ofNat 32 i).toNat % n s = x.2.2) ∧
    (bob 0 0 0).cur.thimble = false ∧
    (let v := ((bob 0 0 0).x 6).toNat
     v % 2 ^ 23 % 64 = 0 ∧ v / 2 ^ 23 % 2 ^ 16 = 64 ∧ v / 2 ^ 39 % 2 ^ 9 = 2 ∧ v % 2 ^ 23 + 64 * 2 ≤ 2 ^ 23) := by decide +kernel

def hH : Tab Handle := [(1, hnd 4 0x200300000 4096 6), (2, { hnd 4 0x200300000 1536 27 with wstart := 768 })]
def sH : State :=
  let s := mk 0 [(1, 0), (3, 768), (4, 768), (5, 2)] hH ((ptMem 0).writeBytes 0x301080 (hnd 4 0x1234 77 6).toBytes)
  s.setMySlot { s.mySlot with regs := { s.mySlot.regs with htbase := 0x200301000, htcnt := 3 } }
theorem witness_HandlesAndCacheHints :
    let s := sH
    Ready s tk ∧ (s.x 3).toNat + (s.x (3 + 1)).toNat = (s.h 2).bound ∧ isPB (s.h 2).type = true ∧ (s.x 3).toNat % 768 = 0 ∧ (s.x 4).toNat % 768 = 0 ∧
    (s.x 5 + BitVec.ofInt 64 (immOf s 9 0)).toNat < s.mySlot.regs.htcnt ∧
    (match State.xlate s.cur.tile (2 ^ 21) .read (!s.cur.thimble) 1 s ((s.mySlot.regs.htbase.toNat + 64 * 2) % 2 ^ 56) 64 with
      | (.ok segs _, _) => (poisonIn s segs).isNone && (match handleOfBytes (s.coreView s.cur.coreK (firstAddr [segs]) 64) with | .ok _ => true | _ => false)
      | _ => false) = true := by decide +kernel
/-- The orders of R200, one handle and want each. -/
theorem witness_MemoryChecksInOrder :
    let w : Want := { acc := .read, spaces := [1, 4], pr := true, pw := false, typeOk := true, n := 4, align := 4, ranges := [] }
    let h := hnd 4 0x200300000 4096 6
    1 ≤ w.n ∧ ({} : Handle).bound = 0 ∧ h.bound ≠ 0 ∧ (hnd 9 0 8 6).space = 9 ∧ (mk 0 [] []).cur.tile ≠ 16 ∧ (hnd 2 0 8 6).space ∉ w.spaces ∧
    h.space ∈ w.spaces ∧ ((!w.pr || ({ h with pr := false } : Handle).pr) && (!w.pw || h.pw) && (!w.pa || h.pa)) = false ∧
    ((!w.pr || h.pr) && (!w.pw || h.pw) && (!w.pa || h.pa)) = true ∧ ({ w with typeOk := false } : Want).typeOk = false ∧
    ({ w with layoutOk := false } : Want).layoutOk = false ∧ ((h.base : Int) + h.unitByte 2) % (w.align : Int) ≠ 0 ∧
    ((h.base : Int) + h.unitByte (-4)) % (w.align : Int) = 0 ∧ ((h.base : Int) + h.unitByte 4096) % (w.align : Int) = 0 ∧
    (h.bound : Int) < 4096 + w.n := by decide +kernel


/-! ### Copies -/

def pat0 : Pattern :=
  { cnt := [4, 2, 1, 1, 1, 1], sstr := [1, 4, 0, 0, 0, 0], dstr := [1, 8, 0, 0, 0, 0], type := 1, flags := 24, rop := 0, bob := 0, sh := 2, dh := 3
    circ := 0, soff := 0, doff := 0, sfsel := 63, dvsel := 256, sfinc := 1, dvinc := 2 }
/-- The 128 bytes of pat0's record, and of it with type 27 (R218). -/
def patRec (type : Nat) : List Byte :=
  (leBytes 4 4 ++ leBytes 4 1 ++ leBytes 4 1) ++ (leBytes 4 2 ++ leBytes 4 4 ++ leBytes 4 8) ++ (List.range 4).flatMap (fun _ => leBytes 12 1) ++
    [BitVec.ofNat 8 type, 24, 0, 0, 2, 3, 0, 0] ++ leBytes 16 0 ++ leBytes 2 63 ++ leBytes 2 256 ++ leBytes 4 1 ++ leBytes 4 2
def xC : Tab Word := [(8, 4), (9, 2), (10, 0x3F00000003), (11, 0x10000000003), (12, 0x20000000008)]
def hC : Tab Handle := [(1, hnd 1 0x1000 4096 7), (2, hnd 1 0x4000 4096 5), (3, hnd 2 0x8000 4096 5), (4, hnd 4 0x200300000 4096 16), (5, hnd 4 0x200310000 4096 16)]
def sC : State := { mk 0 xC hC ((ptMem 0).writeBytes (sram kScratch 0 0x1000) (patRec 1)) with cores := [(0, { sems := [(63, { v := 9 })] })] }
def m0 : MemOp := ⟨1, 0#6⟩
theorem witness_CopiesAreAccepted :
    let s := sC
    (∀ n, NoneArmed s n) ∧ Ready s tk ∧ Undisturbed s ∧ NoReductions s ∧ (s.engine (engineOf s.cur true)).ops.length < engineCap (engineOf s.cur true) ∧
    (s.engine (engineOf s.cur false)).ops.length < engineCap (engineOf s.cur false) ∧ patternAt s m0 = some (pat0, 0x1000) ∧
    CopyPasses s 1 .cpy false pat0 ∧ CopyPasses s 1 .cpy false { pat0 with soff := pat0.soff + (s.x 8).toInt, doff := pat0.doff + (s.x 9).toInt } ∧
    CopyPasses s 1 .gath false pat0 (s.x 8).toNat ∧ CopyPasses s 1 .scat false pat0 (s.x 8).toNat ∧ s.indexBad 1 pat0 (s.x 8) = none ∧ CopyPasses s 1 .fill false pat0 ∧
    (s.x 10).toNat / 2 ^ 32 % 2 ^ 9 < 64 ∧ 256 ≤ (s.x 11).toNat / 2 ^ 32 % 2 ^ 9 ∧ CopyPasses s 4 .cpyq true (quickPattern s 12 4 5) := by
  refine ⟨noneArmed_of (by decide +kernel), ?_⟩
  simp only [Undisturbed, NoReductions, CopyPasses]; decide +kernel

def cOp (o : CopyOp) : State :=
  let s := sC.setEngine (.tile 0) { ops := [o], next := 8 }
  s.setMySlot { s.mySlot with mode := .trapped, task := some { id := 3, tile := 0, recIdx := 0, iter := 0, done := none } }
def op0 : CopyOp := { id := 7, place := ⟨0, 0, 0, 1⟩, task := 3, kind := .cpy, pat := pat0, src := Tab.get {} 2 hC, dst := Tab.get {} 3 hC, recOff := some 2560, arg := 0 }
/-- A copy whose task is gone, at a poisoned source granule; FRT gives 0x0E to the thimble core. -/
def opGone : CopyOp := { op0 with started := true, done := 7, task := 99 }
def sGone : State :=
  let s := cOp opGone
  { s with poison := [sram kScratch 0 0x4000 / 64], tiles := [(0, { s.tile 0 with copy := (s.tile 0).copy, frt := [(14, 2)] })] }
def located (l : Loc) : Option (List (Nat × Nat) × Nat) := match l with | .ok a b => some (a, b) | _ => none
theorem witness_CopiesRun :
    (let o := { op0 with done := 7 }
     let s := cOp o
     Runnable s (.tile 0) 7 o ∧ o.kind = .cpy ∧ o.held = [] ∧ o.done < o.pat.total ∧ o.pat.rop = 0 ∧ o.pat.bobt = false ∧ s.poison = [] ∧
     direct o.src.space = true ∧ direct o.dst.space = true ∧ (located (s.locate o.place o.src o.pat.sh .read o.pat.width (s.copyPos o o.done).1).1).isSome = true ∧
     (located (s.locate o.place o.dst o.pat.dh (.copyWrite false) o.pat.width (s.copyPos o o.done).2).1).isSome = true ∧
     FirstToStart s (.tile 0) 7 ∧ (∀ d ∈ located (s.locate o.place o.dst o.pat.dh (.copyWrite false) o.pat.width (s.copyPos o o.done).2).1,
       s.writeStalls d.1 = false)) ∧
    (let o := { op0 with started := true, done := 8 }
     let s := cOp o
     Runnable s (.tile 0) 7 o ∧ o.started = true ∧ NoWaiters s ∧ o.place.tile = engTile (.tile 0) ∧ o.place.core < 8 ∧ o.pat.sfsel < 64 ∧ 256 ≤ o.pat.dvsel ∧
     o.pat.total ≤ o.done + o.held.length ∧ o.freed = false ∧ o.pat.sfv = true) ∧
    (let o := { op0 with started := true, done := 8, freed := true }
     Runnable (cOp o) (.tile 0) 7 o ∧ o.pat.total ≤ o.done ∧ o.freed = true ∧ o.pat.dvv = true ∧ o.slot = none ∧ o.recOff = some 2560) ∧
    (let o := { op0 with started := true, done := 7 }
     let s := cOp o
     let ss := ((located (s.locate o.place o.src o.pat.sh .read o.pat.width (s.copyPos o o.done).1).1).getD ([], 0)).1
     let s := { s with poison := [(ss.headD (0, 0)).1 / 64] }
     Runnable s (.tile 0) 7 o ∧ o.pat.zpois = false ∧ o.place.tile < 16 ∧
       (∃ g ∈ s.poison, ∃ x ∈ ss, x.1 / 64 ≤ g ∧ g * 64 < x.1 + x.2) ∧ s.findTask o.task = some 0 ∧ (s.slot 0).mode = .trapped) ∧
    NoWaiters sGone ∧
    (let o := opGone
     let ss := ((located (sGone.locate o.place o.src o.pat.sh .read o.pat.width (sGone.copyPos o o.done).1).1).getD ([], 0)).1
     Runnable sGone (.tile 0) 7 o ∧ o.started = true ∧ (∃ g ∈ sGone.poison, ∃ x ∈ ss, x.1 / 64 ≤ g ∧ g * 64 < x.1 + x.2) ∧ sGone.findTask o.task = none ∧
       (∀ h ∈ sGone.held, h.task ≠ o.task) ∧ o.place.core < 8 ∧ sGone.frtDest o.place.tile 0x0E = 2 ∧ o.recOff = some 2560 ∧ o.pat.sfv = true ∧ o.freed = false ∧
       o.pat.dvv = true ∧ o.pat.sfsel ≠ o.pat.dvsel ∧ o.pat.sfsel < 64 ∧ 256 ≤ o.pat.dvsel) := by
  refine ⟨?_, ⟨?_, ?_, idle (by decide +kernel), ?_⟩, ?_, ?_, idle (by decide +kernel), ?_⟩ <;> simp only [Runnable, FirstToStart] <;> decide +kernel

/-! ### Rows, plies, vectors and the matrix engine -/

def ctl (n1 h2 pk : Nat) : Word := BitVec.ofNat 64 (n1 * 2 ^ 16 + h2 * 2 ^ 8 + pk)
def hP : Tab Handle := [(1, hnd 1 0x1000 4096 7), (2, { hnd 1 0x4000 1536 27 with e0 := 1536 }), (3, { hnd 1 0x6000 768 25 with e0 := 1536, wstart := 768 }),
  (4, hnd 1 0x8000 8192 10), (5, { hnd 1 0xC000 768 27 with e0 := 1536 }), (7, hnd 0 0x2000 8192 2)]
def xP : Tab Word := [(1, 511), (2, 0x0000FF), (10, ctl 0 3 2), (14, ctl 0 5 3), (16, ctl 0 4 1), (18, ctl 0 2 4)]
def sP : State := mk 0 xP hP
theorem witness_RowTransfers :
    let s := sP
    Ready s tk ∧ NoReductions s ∧ tr [passes s 1 0 ((s.h 1).rowsWant 0 1 false [1, 2, 3, 4]), passes s 1 0 ((s.h 1).rowsWant 0 1 true [1, 2, 3, 4]),
      passes s 7 0 ((s.h 7).rowsWant 0 1 false [0, 1]), passes s 7 0 ((s.h 7).rowsWant 0 1 true [0, 1])] = true ∧
    (s.x 1).toNat + (0#3).toNat ≤ 511 ∧ poisonIn s [(sram kSlice s.cur.coreK (2048 * (s.x 1).toNat), 2048)] = none ∧
    s.ownsTile (rowWord (s.x 2)).tile = true ∧ (rowWord (s.x 2)).row + (0#3).toNat ≤ 255 := by
  simp only [NoReductions]; decide +kernel
/-- PLD, PST and PSTL, PAXPY, PSCL, PNORM and PCNT, PCVT both ways. -/
theorem witness_PlyInstructions :
    let s := sP
    let rd (h n : Nat) (acc : Access) (ts : List Nat) : PlyEnd := PlyEnd.operand (s.h (BitVec.ofNat 6 h)) h 0 n acc ts
    let nd (h n : Nat) (acc : Access) (ts : List Nat) : PlyEnd := PlyEnd.second (s.h (BitVec.ofNat 6 h)) h 0 n acc ts
    let ok (uses : List PlyUse) : Bool := (plyReady (s.popped tk) 1 uses).isSome
    Ready s tk ∧ NoReductions s ∧ (plyCtl (s.x 10)).pk = 2 ∧ 2 ≤ pbPlies 27 ∧ (s.h 3).type = 0x17 + 2 ∧ pbPlies 25 ≤ pbPlies 27 ∧ pbPlies (s.h 5).type = pbPlies 27 ∧
    (plyCtl (s.x 14)).pk < pbPlies 27 ∧ isPB (s.h 4).type = false ∧ isPB (s.h 2).type = true ∧ (plyCtl (s.x 18)).pk ≤ pbPlies 27 ∧
    tr [ok [⟨rd 2 1 .read pbTypes, true, List.range (pliesFetched 0 2 4)⟩, ⟨nd 3 1 .write pbTypes, true, List.range 2⟩],
      ok [⟨rd 2 1 .write pbTypes, true, List.range 4⟩, ⟨nd 5 1 .read pbTypes, true, List.range 4⟩],
      ok [⟨rd 2 1 .write pbTypes, true, List.range 4⟩, ⟨nd 3 1 .read pbTypes, true, List.range 2⟩],
      ok [⟨rd 2 1 .atomic pbTypes, true, List.range 4⟩, ⟨nd 4 1 .read [0x0A, 0x09, 0x08], false, []⟩],
      ok [⟨rd 2 1 .atomic pbTypes, true, List.range 4⟩], ok [⟨rd 2 1 .read pbTypes, false, [3]⟩],
      ok [⟨rd 2 1 .write (pbTypes ++ floatTypes), true, List.range 4⟩, ⟨nd 4 1 .read (pbTypes ++ floatTypes), false, []⟩],
      ok [⟨rd 4 1 .write (pbTypes ++ floatTypes), false, []⟩, ⟨nd 2 1 .read (pbTypes ++ floatTypes), true, List.range (pliesFetched 1 4 4)⟩]] = true := by
  simp only [NoReductions]; decide +kernel

/-- Tiles 0 WF32, 1 FP32, 2 INT32, 3 INT4, 4 FP16, 5 INT8 of a slot that owns the core's tiles; VLEN 12. -/
def xV : Tab Word := [(1, 0), (2, 0x001), (3, 0x100), (4, 0x101), (5, 0x200), (6, 0x201), (7, 0x300), (8, 0x301), (9, 0x400), (10, 0x401), (11, 0x500), (12, 0x501),
  (20, 3), (24, 511), (25, 0x1D), (26, 0x1A0001), (28, 0x501), (29, 0x301)]
def aV (ty : Nat) : Accum := { type := ty, ovf := 3, statm := [(1, 0x3F800000#32)] }
def accums : Tab Accum := [(1, aV 10), (2, aV 2), (3, aV 0), (4, aV 8), (5, aV 1)]
def sV : State := (mk 0 xV [] [] { vlen := 12 }).setMyCore { accums := accums }
theorem witness_VectorLanes :
    let s := sV
    Ready s tk ∧ Owned s [2] ∧ Owned s [1, 2] ∧ clsArith (s.rtype 2) = true ∧ s.rtype 1 = s.rtype 2 ∧ Owned s [6] ∧ Owned s [3, 4] ∧
    clsArith (s.rtype 3) = true ∧ s.rwidth 6 = s.rwidth 3 ∧ accType (s.rtype 3) = true ∧ isInt (s.rtype 6) = true ∧ s.rtype 5 = s.rtype 6 ∧ Owned s [3, 6] ∧
    s.rwidth 6 = s.rwidth 4 ∧ isFloatT (s.rtype 4) = true ∧ s.rtype 4 ≠ 0x0B ∧ s.rtype 3 = s.rtype 4 ∧ s.rwidth 2 = 32 := by
  simp only [Owned]; decide +kernel
theorem witness_VectorItems :
    let s := sV
    Ready s tk ∧ Owned s [2, 1] ∧ clsArith (s.rtype 1) = true ∧ s.rtype 2 = s.rtype 1 ∧ (5#3).toNat < 6 ∧ (s.x 24).toNat < 16384 / s.rwidth 1 ∧
    s.rwidth 2 = s.rwidth 1 ∧ Owned s [10, 3] ∧ (s.x 25).toNat / 16 % 4 < max (s.rwidth 3) (s.rwidth 10) / min (s.rwidth 3) (s.rwidth 10) ∧
    (s.x 25).toNat % 8 = 5 ∧ Owned s [25 + 1] ∧ s.rwidth 3 = 32 ∧ s.rwidth (25 + 1) = 32 ∧ accType (s.rtype 5) = true ∧ isInt (s.rtype 5) = true ∧
    clsArith (s.rtype 5) = true ∧ Owned s [5] := by
  simp only [Owned]; decide +kernel
theorem witness_SoftmaxAndQuantisation :
    let s := sV
    Ready s tk ∧ Owned s [3] ∧ s.rtype 3 = 0x0A ∧ Owned s [4] ∧ Owned s [28] ∧ Owned s [29] ∧ (s.x 26).toNat % 16 = 1 ∧ isFloatT (s.rtype 4) = true ∧ s.rtype 28 = 1 ∧
    s.rtype 29 = 0 ∧ (3#3).toNat + 1 ≤ 4 ∧ (s.x 26).toNat / 2 ^ 16 % 2 ^ 11 + 48 * 1 ≤ 16384 / s.rwidth 4 := by
  simp only [Owned]; decide +kernel

def hX : Tab Handle := [(1, hnd 1 0x1000 4096 0), (2, { hnd 1 0x4000 768 25 with e0 := 768 }), (4, hnd 1 0x8000 8192 10)]
def xX : Tab Word := [(1, 0), (2, 0x30A), (3, 0x0100F0), (4, 0x400), (5, 1), (6, 2 + 2 ^ 16 * 2), (7, 0x0100FF), (14, 0x1F), (16, 0x1000401), (17, 0x203), (18, 0x19)]
def ps : Pass := { slot := 0, addr := 0x200004, tack := n0, k := 1, tile := 0, row := 0, n := 2, h := hnd 1 0x1000 4096 0, hidx := 1, off := 0, type := 0, pa := 4, zero := false }
def mx : Matrix := { fmtType := 0, fmtPa := 4, wb0 := { nc := 2 } }
def mxPB : Matrix := { fmtType := 0x19, fmtPa := 2, wb0 := { type := 0x19, pw := 2, nc := 2 } }
def sX (mx : Matrix) (st : Stream := {}) : State := (mk 1 xX hX (ptMem 0) st).setMyCore { matrix := mx, accums := [(0, aV 11), (1, aV 10), (2, aV 2), (4, aV 11)] }
theorem witness_MatrixConfiguration :
    let s := sX mx
    Ready s tk ∧ NoReductions s ∧ s.ownsMatrix = true ∧ s.matrix.running = none ∧ s.ownsTile (s.rtile 1) = true ∧ accType ((s.x 2).toNat % 32) = true ∧
    matrixType ((s.x 18).toNat % 32) = true ∧ (s.x 18).toNat / 2 ^ 8 % 16 ≤ opPlies 0x19 ∧
    latched 0 0 (s.x 5) ≠ 0 ∧ (s.x 5).toNat % 2 ^ 10 ≤ 512 ∧ latched 25 0 (s.x 5) = 2 ∧ (isPB 25 = true → (s.h 2).e0 = 384 * 2) ∧
    tr [passes s 1 0 ((s.h 1).blockWant 0 (1 * 384) (List.range (latched 0 0 (s.x 5))) [1] true),
      passes s 2 0 ((s.h 2).blockWant 0 (1 * (384 * 2)) (List.range 2) [1] true),
      passes s 4 0 ((s.h 4).arrayWant 0 256), passes s 4 0 ((s.h 4).arrayWant 0 512)] = true := by
  simp only [NoReductions]; decide +kernel

theorem witness_MatrixPasses :
    (let s := sX mx
     Ready s tk ∧ NoReductions s ∧ s.ownsMatrix = true ∧ s.ownsTile (s.rtile 3) = true ∧ s.matrix.running = none ∧ s.matrix.record = none ∧ (s.h 1).type = s.matrix.fmtType ∧
     (s.tileType (rowWord (s.x 3)).tile = 0x0B) ∧ (rowWord (s.x 3)).row + (rowWord (s.x 3)).cnt ≤ 255 ∧ s.tileType 2 = 2 ∧
     passes s 1 0 ((s.h 1).blockWant 0 (((rowWord (s.x 3)).cnt + 1) * (384 * s.matrix.activeBuf.stack)) (List.range 4) [1] true) = true) ∧
    (let s := sX mxPB
     (s.h 2).type = s.matrix.fmtType ∧ (isPB (s.h 2).type = true → (s.h 2).e0 = 384 * s.matrix.activeBuf.stack)) ∧
    (let s := sX { mx with record := some ps }
     Ready s tk ∧ s.ownsMatrix = true ∧ s.ownsTile ps.tile = true ∧ s.matrix.running = none ∧ s.matrix.record = some ps ∧ ps.addr = s.me.pc) ∧
    (let s := sX { mx with running := some (ps, 1500) }
     let p : Place := ⟨0, 0, 0, 1⟩
     (s.core p.coreK).matrix.running = some (ps, 1500) ∧ ps.slot = p.slotK ∧ p.stream = 1) ∧
    (let s := sX { mx with record := some { ps with addr := 0x200000 } } { ext := some 3 }
     ps.addr - 4 = (if s.me.ext.isSome then s.me.pc - 4 else s.me.pc)) ∧
    (let s := { sX { mx with running := some (ps, 1500) } with clock := 1528 }
     (s.core (coreKey 0 0)).matrix.running = some (ps, 1500) ∧ 1500 + (ps.n - ps.k) * ps.pa + 24 ≤ s.clock ∧ s.dieOn 0 = true ∧ (s.core 0).matrix.activeBuf.nc ≤ 512) ∧
    ((sX mx).matrix.record = none ∧ Ready (sX { mx with record := some ps }) n0) := by
  simp only [NoReductions]; decide +kernel
theorem witness_MatrixDrain :
    let s := sX mx
    Ready s tk ∧ NoReductions s ∧ s.ownsMatrix = true ∧ s.ownsTile (s.rtile 3) = true ∧ s.cur.wf = true ∧ s.cur.tile < 16 ∧ (4#3).toNat < 5 ∧
    s.tileType (rowWord (s.x 3)).tile = 0x0B ∧ (s.h 4).type ∈ [0x0A, 0x08, 0x09, 0x0C, 0x0D, 0x0E, 0, 1, 2] ∧
    (rowWord (s.x 3)).row + (rowWord (s.x 3)).cnt ≤ 255 ∧ passes s 4 0 ((s.h 4).drainWant 0 ((rowWord (s.x 3)).cnt + 1)) = true := by
  simp only [NoReductions]; decide +kernel
theorem witness_TileHousekeeping :
    let s := sX mx
    Ready s tk ∧ s.ownsMatrix = true ∧ s.ownsTile (rowWord (s.x 3)).tile = true ∧ (rowWord (s.x 3)).row + (rowWord (s.x 3)).cnt ≤ 255 ∧
    s.ownsTile (rowWord (s.x 4)).tile = true ∧ s.tileW (rowWord (s.x 4)).tile = s.tileW (rowWord (s.x 3)).tile ∧
    (rowWord (s.x 4)).row + (rowWord (s.x 3)).cnt ≤ 255 ∧ s.rwidth 3 = 32 ∧ s.rwidth 4 = 32 := by decide +kernel
def hG : Tab Handle := [(1, { hnd 4 0x20030F000 4096 0 with rank := 2, e0 := 48, e1 := 48 }), (2, { hnd 1 0x4000 48 25 with e0 := 48 })]
def mg : Mgemv := { id := 4, slot := 0, tile := 0, row := 1, n := 2, k := 48, pa := 2, pw := 4, zero := false, vec := Tab.get {} 2 hG, vidx := 2, voff := 0, mat := Tab.get {} 1 hG, midx := 1, offm := 0 }
def sG (l : List Mgemv) : State :=
  { (mk 1 [(2, 2 * 2 ^ 32 + 1 * 2 ^ 24 + 0x001), (3, 48)] hG).setMyCore { accums := [(0, aV 11)] } with aux := [(0, { mgemv := l, nextMg := 9 })] }
theorem witness_MatrixVectorProducts :
    (let s := sG [mg, mg, mg]
     let g := s.mgemvOf 2 ⟨2, 0⟩
     Ready s tk ∧ NoReductions s ∧ s.ownsMatrix = true ∧ s.ownsTile g.tile = true ∧ (s.auxOf s.cur.coreK).mgemv.length < 4 ∧ matrixType g.vec.type = true ∧
     g.mat.type = 0 ∧ g.n ≤ 512 ∧ g.pa ≤ opPlies g.vec.type ∧ g.pw ≤ opPlies g.mat.type ∧ s.tileType g.tile = 0x0B ∧ 2 ≤ g.mat.rank ∧ g.k % 48 = 0 ∧
     g.moff % 48 = 0 ∧ (access s g.vec g.vidx g.voff g.vecWant).isSome = true ∧ (access s g.mat g.midx g.offm g.matWant).isSome = true) ∧
    (((sG [mg]).auxOf (coreKey 0 0)).mgemv.find? (fun g => decide (g.id = 4)) = some mg ∧ (sG [mg]).dieOn 0 = true ∧ (sG [mg]).poison = [] ∧ (sG [mg]).coreFull (coreKey 0 0) = false ∧
      (mPlace mg.slot).coreK = coreKey 0 0) ∧
    (Ready (sG [{ mg with slot := 3 }]) tk ∧ (sG []).ownsMatrix = true ∧ ∀ g ∈ ((sG [{ mg with slot := 3 }]).auxOf 0).mgemv, g.slot ≠ (sG []).cur.slotK) := by
  simp only [NoReductions]; decide +kernel

/-! ### Exceptions and system registers -/

def lands0 (s : State) (p : Place) : Bool := match s.fetchWord p.tile 0 (s.slot p.slotK).regs.tvec.toNat with | (.ok bs, _) => isHeader bs | _ => false
theorem handlerLands_of {s : State} {p : Place} (h : lands0 s p = true) : HandlerLands s p := by
  unfold lands0 at h
  split at h
  · exact ⟨_, _, ‹_›, h⟩
  · contradiction
theorem noPass_of {s : State} {p : Place} (h : (s.core (p.slotK / 4)).matrix.running = none) : NoPass s p := fun ps n e => by rw [h] at e; cases e
theorem userRuns_of {s : State} {p : Place} (h : p.wf = true ∧ p.tile < 16 ∧ (s.slot p.slotK).mode = .running ∧ (s.slot p.slotK).frozen = false ∧
    (s.slot p.slotK).regs.super = false ∧ (s.stream p.streamK).ended = false ∧ s.dieOn p.tile = true ∧ (s.core (p.slotK / 4)).matrix.running = none) :
    UserRuns s p := ⟨h.1, h.2.1, h.2.2.1, h.2.2.2.1, h.2.2.2.2.1, h.2.2.2.2.2.1, h.2.2.2.2.2.2.1, noPass_of h.2.2.2.2.2.2.2⟩
def xT : Tab Word := [(1, 5), (3, 0x200100)]
/-- All five streams of slot 0, E ended. -/
def sT (st : Stream := {}) : State :=
  let s := mk 0 xT [] (ptMem 0) st
  { s with streams := (0, s.me) :: [1, 2, 3, 4].map (fun k => (k, { ended := decide (k = 4), pc := 0x200010, wait := if k = 3 then some (.rend 9 1 n0) else none, ext := if k = 2 then some 5 else none })) }
def frt (v : Nat) (s : State) : State := s.setTile 0 { s.tile 0 with frt := (List.range 64).map (fun c => (c, v)) }
def p0 : Place := ⟨0, 0, 0, 0⟩
theorem witness_TakingAnException :
    (UserRuns (frt 0 sT) p0 ∧ (frt 0 sT).frtDest 0 63 = 0 ∧ HandlerLands (frt 0 sT) p0 ∧ UserRuns (frt 2 sT) ⟨0, 0, 0, 3⟩ ∧ (frt 2 sT).frtDest 0 1 = 2) ∧
    (let e : Event := { code := 0x12, stream := 5 }
     let s := sT.setMySlot { sT.mySlot with fifo := [e, { code := 1 }] }
     p0.wf = true ∧ (s.slot 0).mode = .running ∧ (s.slot 0).frozen = false ∧ (s.slot 0).regs.super = false ∧ s.dieOn 0 = true ∧ NoPass s p0 ∧
      (s.slot 0).fifo = e :: [{ code := 1 }] ∧ HandlerLands s p0) ∧
    (let s : State := { slots := [(512, { mode := .running })], streams := [(2560, { ended := false })] }
     (s.slot 512).mode = .running ∧ (s.slot 512).frozen = false ∧ (s.stream 2560).ended = false ∧ (s.slot 512).regs.super = false ∧ NoPass s ⟨16, 0, 0, 0⟩) ∧
    (let s : State := { slots := [(512, { mode := .running, regs := { super := true } })], streams := [(2560, { ended := false })] }
     (s.slot 512).mode = .running ∧ (s.slot 512).frozen = false ∧ (s.stream 2560).ended = false ∧ (s.slot 512).regs.super = true) ∧
    (let s : State := { slots := [(512, { mode := .trapped, task := some { id := 3, tile := 16, recIdx := 0, iter := 0, done := none } })] }
     s.pausedOf 16 (((s.slot 512).task.map (·.id)).getD 0) = [] ∧ (s.slot 512).faults = [] ∧ (s.slot 512).delivered = none) := by
  refine ⟨⟨userRuns_of (by decide +kernel), by decide +kernel, handlerLands_of (by decide +kernel), userRuns_of (by decide +kernel), by decide +kernel⟩,
    ?_, ⟨by decide +kernel, by decide +kernel, by decide +kernel, by decide +kernel, noPass_of (by decide +kernel)⟩, by decide +kernel, by decide +kernel⟩
  and_intros <;> first | exact noPass_of (by decide +kernel) | exact handlerLands_of (by decide +kernel) | decide +kernel
/-- The witness of VectorItems' clause on VCOL with F from 2 to 7. -/
theorem witness_VectorItems_vcol :
    let s := frt 0 { sV with mem := ptMem 0 }
    2 ≤ (7#3).toNat ∧ UserRuns s p0 ∧ Owned s [2, 1] ∧ s.me.ext = none ∧ HandlerLands s p0 ∧ s.frtDest 0 0x0B = 0 := by
  refine ⟨by decide, userRuns_of ?_, ?_, ?_, handlerLands_of ?_, ?_⟩ <;> (try simp only [Owned]) <;> decide +kernel
theorem witness_SoftwareTrapsAndPrivilege :
    (Ready sT tk ∧ UserRuns sT sT.cur ∧ sT.mySlot.fifo = [] ∧ HandlerLands sT sT.cur ∧ sT.frtDest 0 0x12 = 0 ∧ sT.frtDest 0 0x13 = 0) ∧
    (sT.me.ext = none ∧ sT.frtDest 0 0x0D = 0 ∧ SupervisorOnly 0x00C ∧ SupervisorOnly 0x549 ∧ SupervisorOnly 0x01A ∧ ¬ SupervisorOnly 0x010) := by
  refine ⟨⟨by decide +kernel, userRuns_of (by decide +kernel), by decide +kernel, handlerLands_of (by decide +kernel), by decide +kernel⟩, ?_⟩
  simp only [SupervisorOnly]; decide +kernel

/-- Whether MovesLand holds, by reading the words. -/
def movesB (k : Nat) : List Nat → State → Bool
  | [], _ => true
  | f :: r, s =>
    let st := s.stream (5 * k + f)
    if st.ended = true ∨ st.moved = false then movesB k r s
    else match s.fetchWord (k / 32) f st.pc.toNat with
      | (.ok bs, v) => isHeader bs && movesB k r v
      | _ => false
theorem movesLand_of {k : Nat} : ∀ (l : List Nat) {s : State}, movesB k l s = true → MovesLand k l s
  | [], _, _ => trivial
  | f :: r, s, h => by
    simp only [movesB, MovesLand] at h ⊢
    split
    · rename_i hn
      rw [if_pos hn] at h
      exact movesLand_of r h
    · rename_i hn
      rw [if_neg hn] at h
      split at h
      · rename_i bs v e
        rw [Bool.and_eq_true] at h
        exact ⟨bs, v, e, h.1, movesLand_of r h.2⟩
      · cases h

def sSup (pmode : Bool) (w : Option Wait := none) : State :=
  sT.setMySlot { sT.mySlot with mode := .trapped, regs := { sT.mySlot.regs with super := true, fstrm := 1, pmode := pmode }, sup := { ended := false, pc := 0x200000, x := xT, wait := w } }
theorem witness_ReturnAndWait :
    let s := sSup false
    Ready s tk ∧ s.super = true ∧ s.cur.wf = true ∧ s.mySlot.mode = .trapped ∧ s.mySlot.regs.fstrm < 5 ∧ s.mySlot.tackCount (pChannel 0 s.me) < 16 ∧
    s.mySlot.regs.pmode = false ∧ s.mySlot.fifo = [] ∧ s.mySlot.faults = [] ∧ s.mySlot.delivered = none ∧
    (∀ f, f < 5 → (s.stream (5 * s.cur.slotK + f)).moved = false) ∧
    (let s := (s.setStream 0 { s.stream 0 with moved := true, pc := 0x200000 }).setMySlot { s.mySlot with regs := { s.mySlot.regs with fstrm := 0 } }
     (s.stream 0).moved = true ∧ s.mySlot.regs.fstrm = 0 ∧ (s.stream 0).ended = false ∧
      (match s.fetchWord s.cur.tile 0 (s.stream 0).pc.toNat with | (.ok bs, _) => isHeader bs | _ => false) = true) ∧
    (sSup true).mySlot.regs.pmode = true ∧ ((sSup true).stream 0).moved = false ∧ Ready (sSup true) tk ∧
    s.mySlot.regs.preq = false ∧ s.me.wait = none ∧ (sSup false (some (.wfi 5 true))).me.wait = some (.wfi 5 true) ∧ Ready (sSup false (some (.wfi 5 true))) tk := by
  decide +kernel
/-- Two streams that the handler moved onto headers, and an event pending (R117, R362, R364). -/
theorem witness_ReturnAndWait_moves :
    let e : Event := { code := 0x12, stream := 5 }
    let m (k : Nat) (s : State) : State := s.setStream k { s.stream k with moved := true, pc := 0x200000, ended := false }
    let s0 := m 0 (sSup false)
    let s := s0.setMySlot { s0.mySlot with fifo := [e] }
    MovesLand s.cur.slotK [0, 1, 2, 3, 4] s ∧ NoPass s s.cur ∧ HandlerLands s p0 ∧ Ready s tk ∧ s.super = true ∧ s.mySlot.mode = .trapped ∧ s.mySlot.regs.pmode = false ∧
      s.mySlot.fifo = e :: [] ∧ s.mySlot.delivered = none ∧ s.cur.tile < 16 ∧ s.dieOn s.cur.tile = true ∧ (s.stream 0).moved = true :=
  ⟨movesLand_of _ (by decide +kernel), noPass_of (by decide +kernel), handlerLands_of (by decide +kernel), by decide +kernel⟩
theorem witness_SystemRegisters :
    Ready (sSup false) tk ∧ (sSup false).cur.wf = true ∧ (sSup false).cur.stream = 0 ∧ (sSup false).super = true ∧ (sSup false).mySlot.regs.fstrm = 1 ∧
    (sSup false).myCore.matrix.running = none ∧ ((sSup false).auxOf 0).mgemv = [] ∧ Ready sT n0 ∧ sT.super = false ∧ ¬ SupervisorOnly 0x022 ∧ ¬ SupervisorOnly 0x3FF ∧
    ¬ SupervisorOnly 0x54A := by
  simp only [SupervisorOnly]; decide +kernel

def late (s : State) : State := { s with clock := 2 ^ 24 + 1000 }
def stuck (f : Nat) (v : Stream) : State := late (sT.setStream f { v with ended := false, stalled := some 1000, blocked := true })
def pf (f : Nat) : Place := ⟨0, 0, 0, f⟩
theorem witness_StallsAndStores :
    (let s := sT.setStream 3 { push := [19] }
     (pf 3).wf = true ∧ (s.at (pf 3)).push = [19] ∧ (s.slot (pf 3).slotK).mode = .running ∧ (s.slot (pf 3).slotK).frozen = false ∧ s.dieOn 0 = true ∧ (s.slot (pf 3).slotK).tackCount 19 < 16) ∧
    (let s := stuck 3 { wait := some (.rend 9 1 n0) }
     UserRuns s (pf 3) ∧ (s.at (pf 3)).stalled = some 1000 ∧ 1000 + 2 ^ 24 ≤ s.clock ∧ s.frtDest 0 7 = 0 ∧ (s.at (pf 3)).push = [] ∧ (s.at (pf 3)).blocked = true ∧
      (s.at (pf 3)).wait = some (.rend 9 1 n0) ∧ HandlerLands s (pf 3)) ∧
    (let s := (stuck 3 { push := [7] }).setMySlot { sT.mySlot with task := some { id := 1, tile := 0, recIdx := 0, iter := 0, done := none } }
     UserRuns s (pf 3) ∧ (s.at (pf 3)).stalled = some 1000 ∧ (s.at (pf 3)).push = 7 :: [] ∧ s.findTask 1 = some (pf 3).slotK ∧ (s.slot (pf 3).slotK).fifo.length < 8) ∧
    ((st1 sT).auxOf (coreKey 0 0)).stores = ⟨0, 800, 8, 5⟩ :: [⟨6, 900, 8, 1⟩] ∧
    (((sSup false).slot (pf 3).slotK).mode = .trapped ∧ (sSup false).superAt (pf 3) = false ∧ (sSup false).superAt p0 = true ∧
      ((sSup false).slot 0).frozen = false) := by
  refine ⟨?_, ⟨userRuns_of ?_, ?_, ?_, ?_, ?_, ?_, ?_, handlerLands_of ?_⟩, ⟨userRuns_of ?_, ?_⟩, ?_, ?_⟩ <;> decide +kernel

/-! ### The fabric -/

def mw (c : Nat) : MakeWord :=
  { circuit := BitVec.ofNat 8 c, stile := 0, dmod := 0, dtile := 1, width1 := 1, minw1 := 0, span := false, rcore := 2, rbob := 3, route := 0, rx := false }
def hF : Tab Handle := [(1, hnd 1 0x1000 4096 7), (2, hnd 1 0x4000 4096 5), (3, { hnd 6 0 4096 1 with peer := 0, ptile := 1, ridx := 3 }), (4, hnd 4 0x200300000 4096 6)]
def fPat : Pattern := { pat0 with flags := 20, circ := 0 }
def cir (st : CircState) (c : Nat) : Circuit := { state := st, word := some (mw c), credits := 1, ports := [0, 1] }
def sF (st : CircState) (f : Circuit → Circuit := id) : State :=
  { mk 0 [(1, 0 + 256 * 63), (2, 0 + 256 * 256), (3, 9)] hF with circuits := [(0, f (cir st 0))], cores := [(2, { bobbins := [(3, ⟨0x100, 64, 4, 0, 3, 0, 0, 0⟩)] })] }
theorem witness_FabricInstructions :
    let s := sF .live
    Ready s tk ∧ s.cur.tile < 16 ∧ s.hub.halted = false ∧ TransmitsHere s 0 (mw 0) ∧ (s.circ 0).state = .live ∧ (s.circ 0).credits ≠ 0 ∧ (if (s.circ 0).flitAt = stitchOf s then (s.circ 0).flitUsed else 0) < (s.circ 0).ports.length ∧
    (∀ x ∈ (s.circ 0).transfers, x.place ≠ s.cur) ∧
    (let full := (sF .live (fun c => { c with flitAt := stitchOf s, flitUsed := 2 })).circ 0
     full.ports.length ≤ (if full.flitAt = stitchOf s then full.flitUsed else 0)) ∧ ((sF .live (fun c => { c with credits := 0 })).circ 0).credits = 0 ∧
    ((sF .making).circ 0).state = .making ∧ (s.x 1).toNat / 256 % 512 < 64 ∧ 256 ≤ (s.x 2).toNat / 256 % 512 ∧
    (let s := { s with mem := s.mem.writeBytes (sram kScratch 0 0x1000) ((patRec 1).set 73 20) }
     patternAt s m0 = some (fPat, 0x1000) ∧ NoReductions s ∧ (s.engine (.tile 0)).ops.length < 64 ∧ fPat.total ≠ 0 ∧
      (s.h 3).peer = (mw 0).dmod.toNat ∧ (s.h 3).ptile = (mw 0).dtile.toNat ∧
      (match (State.holdPages s.cur (s.h 2) 2 fPat.width [] [] (s.popped tk)).1.1 with | .ok _ _ => true | _ => false) = true ∧
      fPat.fabricBad .fcpy = false ∧ s.copyChecks s.cur 1 fPat (s.copyEnds .fcpy fPat) [1, 2, 3, 4] [6] false = none) ∧
    (let s := { s with mem := s.mem.writeBytes (sram kScratch 0 0x1000) ((((patRec 6).set 73 20).set 74 1).set 76 4) }
     let rPat := { fPat with type := 6, rop := 1, sh := 4 }
     patternAt s m0 = some (rPat, 0x1000) ∧ s.h 4 = hnd 4 0x200300000 4096 6 ∧
      (match (State.holdPages s.cur (s.h 4) 4 rPat.width ((List.range rPat.total).map (fun k => (s.copyPos (s.newCopy .fcpy rPat (some 0x1000) 0) k).1)) []
        (s.popped tk)).1.1 with | .ok _ _ => true | _ => false) = true ∧
      rPat.fabricBad .fred = false ∧ s.copyChecks s.cur 1 rPat (s.copyEnds .fred rPat) [1, 2, 3, 4] [6] false = none) := by
  simp only [TransmitsHere, NoReductions]; decide +kernel

theorem witness_FencesFabricAndPowerComplete :
    (let s := sF .live
     Ready s tk ∧ s.cur.wf = true ∧ (s.auxOf s.cur.coreK).stores = [] ∧ (∀ e ∈ s.tiles, ∀ r ∈ e.2.reds, r.source ≠ s.cur.streamK) ∧
      TransmitsHere s 0 (mw 0) ∧ s.hub.halted = false ∧ (s.circ 0).credits ≠ 0 ∧ 0 < (s.circ 0).ports.length ∧ (s.circ 0).transfers = [] ∧ NoReductions s) ∧
    (let s := mk 0 xS [] (ptMem 0) { wait := some (.lining 0 n0) }
     s.me.wait = some (.lining 0 n0) ∧ AtLeast s.myCore.lpseq (BitVec.ofNat 32 0) ∧ s.dieOn 0 = true) ∧
    (let s : State := { tiles := [(3, { powered := false, flushing := true })], hub := { hot := true } }
     (s.tile 3).flushing = true ∧ s.hub.hot = true) ∧
    (let s : State := { tiles := [(3, { powered := false })] }
     (s.tile 3).powered = false ∧ s.hub.hot = false ∧ s.hub.off = false ∧ bitN s.hub.fenced 3 = false) := by
  simp only [TransmitsHere, NoReductions, AtLeast]; decide +kernel

def msg : Message := { seq := 4, payload := 7, tag := 9, circ := 0, selfid := 77 }
def tf (c : Cargo) (n : Nat) : Transfer := { cargo := c, place := p0, task := 1, flits := n }
def sWin : State := (sF .live).setTile 1 { windows := [(63, { hnd 2 0x100 64 5 with wstart := 2 })] }
def farW16 : FarWrite := { ridx := 63, bit := 32, type := 5, rop := 0, value := 0xBEEF, source := 0, number := 1 }
def fOp : CopyOp := { op0 with kind := .fcpy, pat := fPat, waiting := true, done := 8, freed := true }
def sFOp : State := (sF .live (fun c => { c with transfers := [{ tf (.copy 0 7) 1 with acked := some 100 }] })).setEngine (.tile 0) { ops := [fOp], next := 8 }
theorem witness_FabricArrivals :
    (let s := sF .live (fun c => { c with transfers := [tf (.send msg) 0] })
     (s.circ 0).state = .live ∧ s.hub.halted = false ∧ (s.circ 0).transfers = [tf (.send msg) 0] ∧ s.dieOn 0 = true ∧ (s.nearEnds (s.circ 0)).all s.dieOn = true) ∧
    (let s := sF .live (fun c => { c with queue := [(0, msg), (1, { msg with seq := 5 })] })
     let b := s.bobbin (coreKey 0 2) 3
     (s.circ 0).queue = (0, msg) :: [(1, { msg with seq := 5 })] ∧ (s.circ 0).word = some (mw 0) ∧ (mw 0).rx = false ∧
      (s.circ 0).tree = false ∧ (∀ e ∈ [(1, { msg with seq := 5 })], e.2.seq ≠ msg.seq) ∧ s.dieOn 0 = true ∧ (b.claim - b.head).toNat < b.scount ∧
      s.coreFull (coreKey 0 2) = false) ∧
    (NoWaiters (sF .live) ∧ (sF .live).dieOn 1 = true) ∧
    (sWin.dieOn 1 = true ∧ farW16.rop = 0 ∧ (match located (sWin.farLoc 1 63 (.copyWrite false) true 32 16).1 with
      | some d => !(sWin.farLoc 1 63 (.copyWrite false) true 32 16).2.writeStalls d.1 | none => false) = true) ∧
    (let o := { fOp with poisonAt := some 0x200300040 }
     o.poisonAt = some 0x200300040 ∧ o.pat.zpois = false ∧ (frt 0 (cOp op0)).findTask o.task = some 0 ∧ (frt 0 (cOp op0)).frtDest 0 5 = 0 ∧
      ((frt 0 (cOp op0)).slot 0).fifo.length < 8) ∧
    (let o := fOp
     let s := sFOp
     s.findOp (.tile 0) 7 = some o ∧ o.waiting = true ∧ o.pat.total ≤ o.done ∧ o.freed = true ∧ o.pat.dvv = true ∧ o.recOff = some 2560 ∧ o.id = 7 ∧
      256 ≤ o.pat.dvsel ∧ o.poisonAt = none ∧ NoWaiters s ∧ s.dieOn 0 = true ∧
      ∃ e ∈ s.circuits, ∃ t ∈ e.2.transfers, t.cargo = .copy 0 7 ∧ t.acked = some 100 ∧ 100 ≤ stitchOf s) := by
  repeat' first | exact idle (by decide +kernel) | refine And.intro ?_ ?_
  all_goals decide +kernel

/-! ### Collectives and transforms -/

def crec : List Byte := [0, 6, 2, 5, 2, 3, 0, 0] ++ leBytes 16 0 ++ leBytes 8 10 ++ leBytes 2 1 ++ leBytes 2 3 ++ leBytes 4 7 ++ leBytes 4 0x7000 ++ leBytes 20 0
def hK : Tab Handle := [(1, hnd 1 0x1000 4096 7), (2, hnd 1 0x4000 4096 6), (3, hnd 1 0x6000 4096 6)]
def cOp3 : CollOp :=
  { ticket := 3, place := p0, task := 1, sig := { opk := 0, type := 6, tree := false, rop := 1, count := 10, root := 0 }, group := 5, plan := 1, n := 3, rank := 1
    nc := 3, planSteps := 4, src := Tab.get {} 2 hK, dst := Tab.get {} 3 hK, sidx := 2, didx := 3, soff := 0, doff := 0, csel := 63, cinc := 7, aboff := 0x7000
    recOff := 0x5000, bound := true, steps := 2 }
def sK (ops : List CollOp) (st : List (Nat × Nat × Nat)) : State :=
  let s := mk 0 [(5, 5), (6, 3), (7, 4)] hK ((ptMem 0).writeBytes (sram kScratch 0 0x1000) crec)
  { s with groups := [(5, { ranks := [(0, 0), (1, 0), (2, 0)] })], seq := { plans := [⟨5, false, 3, 4⟩, ⟨5, false, 3, 4⟩] }
           tiles := [(0, { s.tile 0 with coll := { ops := ops, count := 8, status := st }, frt := [(15, 2)] })] }
def collWant (h : Handle) : Want :=
  { acc := .read, spaces := [1], pr := true, pw := false, typeOk := !isPB h.type, align := 64
    n := if elemUnit h.type then 512 / max 1 (typeWidth h.type) else 64, ranges := [((h.unitByte 0).toNat, 64)] }
theorem witness_CollectiveInstructions :
    let s := sK [cOp3, cOp3, cOp3] [(3, 0, 0), (4, 1, 9)]
    let g := s.coll 0
    let o := s.collOf (s.coreView s.cur.coreK (firstAddr [((access s (s.h 1) 1 0 (collWant (s.h 1))).getD ([], 0)).1.flatten]) 64) 0x1000
    Ready s tk ∧ NoReductions s ∧ g.ops.length < 4 ∧ passes s 1 0 (collWant (s.h 1)) = true ∧ s.collChecks 1 o = none ∧ 2 ≤ o.n ∧ o.sig.count ≠ 0 ∧
    (let known (k : Nat) : Option (Nat × Nat) := (g.status.find? (fun e => decide (e.1 = k))).map (fun e => e.2)
     known (s.x 5).toNat = none ∧ known (s.x 6).toNat = some (0, 0) ∧ known (s.x 7).toNat = some (1, 9)) ∧
    s.findColl 0 5 = none ∧ s.findColl 0 3 = some cOp3 ∧ s.dieOn s.cur.tile = true ∧ Undisturbed s ∧ NoneArmed s cOp3.csel ∧ ∀ e ∈ s.held, e.task ≠ cOp3.task := by
  simp only [NoReductions, Undisturbed]
  and_intros <;> first | exact noneArmed_of (by decide +kernel) _ | decide +kernel
def cDone : CollOp := { cOp3 with chunks := [0, 1, 2].map (fun c => (c, { state := 2, ranks := 3, value := 5, written := true })) }
/-- Rank 0 of four in TREE order: rank 2's partial waits for rank 1's. -/
def cTree : CollOp := { cOp3 with sig := { cOp3.sig with tree := true }, rank := 0, n := 4 }
theorem witness_CollectiveEvents :
    let s := sK [cDone] [(3, 0, 0)]
    s.findColl 0 3 = some cDone ∧ NoWaiters s ∧ cDone.csel < 64 ∧ cDone.complete = true ∧ s.frtDest 0 15 = 2 ∧
    ((s.coll 0).status.find? (fun e => decide (e.1 = 3))).isSome = true ∧
    (sK [cOp3] []).findColl 0 3 = some cOp3 ∧ 2 < cOp3.nc ∧ direct cOp3.dst.space = true ∧
    (sK [cOp3] []).engineStalls cOp3.place cOp3.dst.space = false ∧ cOp3.bound = true ∧
    (((sK [{ cOp3 with bound := false }] []).coll 0).unbound 1).head? = some { cOp3 with bound := false } ∧
    s.dieOn 0 = true ∧ (cOp3.chunk 2).written = false ∧ (cOp3.chunk 2).ranks ≠ cOp3.n ∧ (sK [cOp3] []).writeStalls [(sram kScratch 0 0x6000, 16)] = false ∧
    ((sK [cTree] []).findColl 0 3 = some cTree ∧ cTree.bound = true ∧ cTree.awaits 1 (cTree.chunk 1) 2 = true ∧ (cTree.chunk 1).parts = [] ∧
      cTree.nextFrom 1 (cTree.chunk 1) = some 1 ∧ 1 < cTree.nc) := by
  repeat' first | exact idle (by decide +kernel) | refine And.intro ?_ ?_
  all_goals decide +kernel

def xrec (opc : Nat) (wsel ssel p0 p1 : Nat) : List Byte :=
  [BitVec.ofNat 8 opc, 2, 3, 0] ++ leBytes 2 wsel ++ leBytes 2 ssel ++ leBytes 4 5 ++ leBytes 4 1 ++ leBytes 16 0 ++ leBytes 4 p0 ++ leBytes 4 p1 ++ leBytes 24 0
def hT : Tab Handle := [(1, hnd 1 0x1000 4096 7), (2, hnd 1 0x4000 4096 5), (3, hnd 2 0x6000 4096 5)]
def xRec : List Byte := xrec 2 0x803F 0x8100 3 5
def xOp (k : Nat) (st : Bool) (r : List Byte := xRec) : XfmOp := { (mk 0 [] hT).xfmOf r (0x2000 + 64 * k) k with started := st }
def sXf (q : List XfmOp) (w w2 : Option Wait) : State :=
  let s := mk 0 [(5, 5), (6, 3), (7, 0x100000004)] hT ((ptMem 0).writeBytes (sram kScratch 0 0x1000) xRec)
  { s with tiles := [(0, { s.tile 0 with xfm0 := { queue := q, accepted := 4, ended := 1, status := [(3, 0)] }, xfm1 := { accepted := 5, status := [(4, 6)] } })]
           slots := s.slots ++ [(3, { mode := .running }), (5, { mode := .running })]
           streams := s.streams ++ [(16, { wait := w, ended := false, pc := 0x200010 }), (26, { wait := w2, ended := false, pc := 0x200010 })] }
theorem witness_TransformInstructions :
    let s := sXf [xOp 3 true, xOp 4 false] (some (.semw 63 77 2 n0)) (some (.semwa 4 0b1001 77 2 n0))
    let g := s.xfm 0 0
    let o := s.xfmOf (s.coreView s.cur.coreK (firstAddr [((access s (s.h 1) 1 0 (collWant (s.h 1))).getD ([], 0)).1.flatten]) 64) 0x1000 5
    Ready s tk ∧ NoReductions s ∧ g.queue.length < 32 ∧ passes s 1 0 (collWant (s.h 1)) = true ∧
    s.xfmChecks 1 { o with wsel := o.wsel % 512, ssel := o.ssel % 512 } (bitN o.wsel 15) (bitN o.ssel 15) = none ∧
    (let known (v : Nat) : Option Nat := ((s.xfm 0 (v / 2 ^ 32 % 2)).status.find? (fun x => decide (x.1 = v % 2 ^ 32))).map (fun x => x.2)
     known (s.x 5).toNat = none ∧ known (s.x 6).toNat = some 0 ∧ known (s.x 7).toNat = some 6) ∧
    (∀ n, NoneArmed s n) ∧ (∀ o ∈ g.queue, o.ticket ≠ 5) ∧ g.queue.find? (fun o => decide (o.ticket = 3)) = some (xOp 3 true) ∧ Undisturbed s ∧ Names 63 ∧ Names 256 ∧
    (let q : Place := ⟨0, 0, 3, 1⟩
     q.wf = true ∧ q.tile = 0 ∧ q.core = s.cur.core ∧ q.slotK ≠ s.cur.slotK ∧ q.slotK ∈ s.slots.map (fun x => x.1) ∧ (s.slot q.slotK).regs.super = false ∧
      (s.stream q.streamK).wait = some (.semw 63 77 2 n0)) ∧
    (let q : Place := ⟨0, 1, 1, 1⟩
     q.wf = true ∧ q.tile = 0 ∧ q.slotK ≠ s.cur.slotK ∧ q.slotK ∈ s.slots.map (fun x => x.1) ∧ (s.slot q.slotK).regs.super = false ∧ (0b1001 : Word).getLsbD 3 = true ∧
      259 = 256 + 64 * (4 - 4) + 3 ∧ (s.stream q.streamK).wait = some (.semwa 4 0b1001 77 2 n0)) := by
  simp only [NoReductions, Undisturbed, Names]
  and_intros <;> first | exact noneArmed_of (by decide +kernel) | decide +kernel
/-- A record that waits for no semaphore, then each of the four operations started, and one whose source is poisoned. -/
theorem witness_TransformRecords :
    (let o := xOp 4 false (xrec 2 0 0 3 5)
     let s := sXf [o, xOp 9 false] none none
     s.dieOn 0 = true ∧ (s.xfm 0 0).queue = o :: [xOp 9 false] ∧ o.started = false ∧ bitN o.wsel 15 = false ∧ s.engineStalls o.place o.dst.space = false ∧
      (0 ≤ (s.sem 0 0 (o.wsel % 512)).v.toNat) ∧ ({ xOp 9 false with passed := true } : XfmOp).passed = true) ∧
    NoWaiters (sXf [xOp 4 true (xrec 2 0 0 3 5)] none none) ∧
    ((xOp 4 true (xrec 0 0 0 3 64)).p1 % 64 = 0 ∧ (xOp 4 true (xrec 0 0 0 3 64)).opc = 0) ∧
    tr ([0, 1, 2, 5].map (fun opc => let o := xOp 4 true (xrec opc 0 0 3 5)
      let s := sXf [o] none none
      decide ((s.xfm 0 0).queue = [o]) && o.started && (poisonIn s (sideRuns o.place o.src o.sidx o.soff o.units.1)).isNone && s.held.isEmpty &&
        (List.range 15).all (fun k => decide (8 * (spaceAddr o.place 1 o.recOff + 56) ≤ elemAddr o.place o.dst o.didx o.wd o.doff k)))) = true ∧
    (let o := xOp 4 true (xrec 2 0 0 3 5)
     let s := { sXf [o] none none with poison := [sram kScratch 0 0x4000 / 64] }
     (poisonIn s (sideRuns o.place o.src o.sidx o.soff o.units.1)).isSome = true ∧ o.wd = o.ws) :=
  ⟨by decide +kernel, idle (by decide +kernel), by decide +kernel, by decide +kernel⟩

/-! ### The circuit sequencer and the optics -/

def cmw (c : Nat) (r : Nat := 0) : MakeWord := { mw c with route := BitVec.ofNat 9 r }
def rts : List Route := [{ kind := 0, peer := 0, near := [5, 6], far := [48, 49] }, { kind := 0, peer := 0, near := [7], far := [50] }]
def sQ (f : Sequencer → Sequencer) (circs : Tab Circuit := []) : State :=
  let s := mk 0 [] []
  { s with circuits := circs, jumped := 7, seq := f { routes := rts, running := true, words := [5, 9, 2, 0], plans := [⟨5, false, 3, 4⟩, ⟨5, false, 3, 4⟩] }
           tiles := [(0, { s.tile 0 with coll := { ops := [{ cOp3 with ticket := 1, chunks := [0, 1, 2].map (fun c => (c, { state := 1, ranks := 2, value := 5 })) }], count := 3 } })] }
def cQ : Tab Circuit := [(0, { state := .live, word := some (cmw 0), ports := [0] }), (5, { state := .failed }), (7, { state := .breaking })]
theorem witness_SequencerWords :
    let s := sQ id cQ
    SequencerRuns s ∧ s.seq.phase = none ∧ (sQ (fun q => { q with phase := some (50, 120) })).seq.phase = some (50, 120) ∧ SequencerRuns (sQ (fun q => { q with phase := some (50, 120) })) ∧
    (s.circ 5).state = .failed ∧ (s.circ 9).state = .idle ∧ (s.circ 7).state ≠ .idle ∧ (s.circ 7).state ≠ .failed ∧
    (s.routeOf 1).near = [7] ∧ (s.routeOf 1).far = [50] ∧ (s.routeOf 1).kind ≠ 3 ∧ (s.ep 7).circ = none ∧ (s.ep 50).circ = none ∧ (s.ep 7).svc = false ∧ (s.ep 50).svc = false ∧ s.pairCached 7 50 = false ∧ s.dieOn (0#4).toNat = true ∧
    Names 63 ∧ Names 256 ∧ NoWaiters s ∧
    (let s := sQ (fun q => { q with loops := [(0, 2), (1, 1)], pc := 2 })
     SequencerRuns s ∧ s.seq.loops = (0, 2) :: [(1, 1)] ∧ (s.seq.words.getD s.seq.pc 0).toNat % 256 ≠ 9) ∧
    (let s := sQ (fun q => { q with loops := [(1, 1)], pc := 1 })
     SequencerRuns s ∧ s.seq.loops = (1, 1) :: [] ∧ (s.seq.words.getD s.seq.pc 0).toNat % 256 = 9 ∧ s.seq.pc < s.seq.words.length) ∧
    (s.circ 0).state = .live ∧ (match (s.coll (s.circ 0).owner).ops.find? (fun x => decide (x.plan = 1) && x.bound && decide (x.inst = 0)) with
      | some o => decide ((o.sends 1).1.length = 1) && decide ((o.chunk ((o.sends 1).1.headD 0)).state ≠ 0)
      | none => false) = true ∧ (1#10 ≠ 0) ∧ Tab.get 0 1 (s.coll (s.circ 0).owner).words = 0 ∧ Tab.get 0 1 (s.coll (s.circ 0).owner).insts = 0 ∧
    s.seq.nextAt ≤ stitchOf s := by
  simp only [SequencerRuns]
  repeat' first | exact idle (by decide +kernel) | (simp [Names]; done) | refine And.intro ?_ ?_
  all_goals decide +kernel
def sO (f : Circuit → Circuit) (q : Sequencer → Sequencer := id) : State :=
  { sQ (fun s => q { s with phase := some (50, 107), phases := 4 })
      [(0, f { state := .making, ports := [0, 1], word := some (cmw 0), minw := 1, since := 99, phase := some 4 })] with
    eps := [5, 6, 48, 49].map (fun e => (e, { state := 2, circ := some 0 })), lasers := [(0, { en := true, state := 1 }), (1, { en := true, state := 1 })] }
def tfPhase (k : Nat) : Transfer := { cargo := .fsig 3 0 1, place := p0, task := 1, flits := 1, phase := some k }
theorem witness_CircuitsInTime :
    (let s := sO id
     (s.circ 0).state = .making ∧ (s.circ 0).since + 8 ≤ stitchOf s ∧ AllLock s 0 (cmw 0) ∧ s.seq.phase = some (50, 107) ∧ 107 ≤ stitchOf s) ∧
    (let s := sO (fun c => { c with found := 0x22 })
     (s.circ 0).state = .making ∧ (s.circ 0).since + 8 ≤ stitchOf s ∧ (s.circ 0).word = some (cmw 0) ∧ (s.circ 0).found ≠ 0 ∧ (s.circ 0).transfers = []) ∧
    (let s := sO (fun c => { c with since := 100 })
     (s.circ 0).state = .making ∧ stitchOf s < (s.circ 0).since + 8) ∧
    (let s := sO (fun c => { c with state := .breaking, since := 105 })
     (s.circ 0).state = .breaking ∧ (s.circ 0).since + 2 ≤ stitchOf s) ∧
    (let s := sO (fun c => { c with state := .live })
     (s.circ 0).state = .live ∧ (cmw 0).span = false ∧ (s.circ 0).phase = some s.seq.phases) ∧
    (let s := sO (fun c => { c with state := .live, phase := none, word := some { cmw 0 with span := true }, transfers := [tfPhase 4] })
     (s.circ 0).state = .live ∧ ∃ t ∈ (s.circ 0).transfers, t.phase = some s.seq.phases) ∧
    (let s := sO (fun c => { c with state := .live, word := some { cmw 0 with span := true }, transfers := [tfPhase 3] })
     ∀ t ∈ (s.circ 0).transfers, t.phase ≠ some s.seq.phases) ∧
    (sO id (fun q => { q with paused := true })).seq.paused = true ∧
    (let s := { sO id (fun q => { q with aligning := true }) with hub := { job := some { mask := 5, tiles := [0, 2] } } }
     s.hub.job = some { mask := 5, tiles := [0, 2] } ∧ s.seq.aligning = true ∧ s.module = 0 ∧
      (∀ m, m < 64 → m ≠ 0 → bitN 1 m = false) ∧ ∃ e ∈ [((2 : Nat), ({ trust := 1, service := some 801 } : Link))], e.2.service.isSome = true ∧ e.2.trust = 1) := by
  simp only [AllLock]; decide +kernel

def sE (l : Tab Endpoint) (lasers : Tab Laser := []) : State := { sQ id [(0, { state := .live, ports := [0], word := some (cmw 0), minw := 1 })] with eps := l, lasers := lasers }
theorem witness_OpticalLossAndTraining :
    (let s := sE [(5, { state := 2, circ := some 0 })]
     (s.ep 5).circ = some 0 ∧ (s.circ 0).word = some (cmw 0) ∧ (s.circ 0).state = .live ∧ (s.circ 0).failing = none ∧
      ((s.circ 0).ports.filter (fun i => !((s.routeOf (cmw 0).route.toNat).ports (s.leafCount (cmw 0) (s.circ 0).tree) i).contains 5)).length < (s.circ 0).minw) ∧
    (let s := sE [(1343, { failwl := 0x1FF })]
     (s.ep 1343).sv = false ∧ bitN (s.ep 1343).failwl 7 = true ∧ (s.ep 1343).circ = none ∧ s.frtDest 0 0x21 = 4) ∧
    (let s := sE [(800, { peermod := 1, peerep := 28, cache := [3] })]
     (s.ep 800).peermod = 1 ∧ (s.ep 800).peerep / 28 = 1) ∧
    (let s := sE [] [(47, { en := true, state := 2 }), (51, { en := true, state := 3 })]
     (s.laser 47).state = 2 ∧ (s.laser (48 + 47 / 12)).state = 3 ∧ s.frtDest 0 0x20 = 4) ∧
    ((sE [(7, { training := [(767, false, true)] })]).ep 7).cmd = none ∧
    ((sE [(7, { training := [(767, false, true)] })]).ep 7).training = (767, false, true) :: [] ∧
    ((sE [(7, { cmd := some (3, 5, 48) })]).ep 7).cmd = some (3, 5, 48) ∧
    ((sE [(7, { training := [(767, true, true), (9, false, false)] })]).ep 7).training = (767, true, true) :: [(9, false, false)] := by decide +kernel
theorem witness_PortAndSourceControls :
    (let s := sE [(3, { circ := some 0 }), (767, { cmd := some (1, 0x1FF, 0) }), (1343, { cmd := some (2, 0x1FF, 5) })]
        [(0, { en := true, state := 0 }), (1, { en := true, state := 2 }), (2, { en := true, state := 1, pset := 4, power := 5 }), (51, { en := true })]
     (s.laser 5).en = false ∧ (0x10000 : Word).getLsbD 16 = true ∧ (s.laser 51).en = true ∧ (s.laser 51).state = 0 ∧ (s.laser 51).repl = 63 ∧
      (s.laser 1).state = 2 ∧ (s.laser 2).state = 1 ∧ (s.ep 4).circ = none ∧ (s.ep 4).svc = false ∧ (s.ep 4).cmd = none ∧ (s.ep 4).training = [] ∧ (s.ep 767).cmd ≠ none ∧
      (s.ep 767).circ = none ∧ (s.ep 3).circ.isSome = true ∧ (s.ep 767).cmd = some (1, 0x1FF, 0) ∧ (s.ep 1343).cmd = some (2, 0x1FF, 5)) ∧
    (let s := { sE [] with tiles := (List.range 16).map (fun t => (t, { powered := true })) }
     ∀ t, t < 16 → s.dieOn t = true) := by decide +kernel
theorem witness_PeersAlarmsAndBackground :
    (let s := { sE [(800, { peermod := 1, cache := [4] })] with seq := { routes := [{ kind := 1, peer := 1, near := [5], far := [800] }] }, links := [(1, { trust := 2, keys := true, oldUntil := some 100, service := some 801 })], circuits := [(0, { state := .live, word := some { cmw 0 with dmod := 1 }, ports := [0], minw := 1 })] }
     (s.link 1).trust = 2 ∧ s.hub.halted = false ∧ (s.link 1).keys = true ∧ (s.link 1).oldUntil = some 100 ∧ 100 ≤ s.clock / 16 ∧ (s.link 1).service = some 801 ∧ (s.ep 800).peermod = 1 ∧
      (s.circ 0).state = .live ∧ 1 ∈ s.peersOf { cmw 0 with dmod := 1 } (s.circ 0).tree) ∧
    (let m : Measurement := { genuine := true, root := [1, 2], blocks := [3, 4, 5] }
     let c : SecConfig := { root := [1, 2], allowed1 := [3], allowed2 := [4], allowed3 := [5] }
     PeerPasses c m ∧ ¬ PeerPasses {} m) ∧
    (let s : State := { eps := [(801, { peermod := 2, state := 2 })], links := [(2, { trust := 1 })] }
     ∃ e ∈ s.serviceCandidates 2, (s.link 2).service ≠ some e) ∧
    (sE []).dieOn 0 = true :=
  ⟨by decide +kernel, ⟨⟨rfl, by decide, rfl, 3, 4, 5, rfl, by decide, by decide, by decide⟩, fun h => h.2.1 rfl⟩, by decide +kernel, by decide +kernel⟩

/-! ### Tasks, power and the hub -/

/-- A walker record (R352): RID 77, 2 dimensions of 3 and 2, priority 9, cores of mask 1, entry points at 0x200000. -/
def recA : List Byte :=
  leBytes 2 77 ++ [3, 2, 1, 6, 9, 1] ++ leBytes 4 3 ++ leBytes 4 2 ++ leBytes 8 0 ++ leBytes 8 0x200000 ++ leBytes 8 0x200100 ++ leBytes 88 0 ++
    leBytes 2 0x8009 ++ leBytes 2 0 ++ leBytes 4 3 ++ leBytes 120 0
def sW (n : Nat) (r : List WalkRec) : State :=
  { mk 0 [] [] ((ptMem 0).writeBytes 0x3000 recA) with
    tiles := [(15, { powered := true, ptroot := 0x40001, walker := { base := 0x200003000, cnt := n, recs := r, run := !r.isEmpty } }), (0, { powered := true, ptroot := 0x40001, walker := { base := 0x200003000, cnt := n, recs := r, run := !r.isEmpty } })] }
def wRec : WalkRec := { walkRecOf 0 recA with deps := [] }
theorem witness_WalkerRuns :
    (let s := sW 1 []
     (s.tile 0).walker.cnt = 1 ∧ ((sW 0 []).tile 15).walker.cnt = 0 ∧
      (match State.xlate 0 (2 ^ 21) .read false 2 s ((s.tile 0).walker.base.toNat % 2 ^ 56) 256 with
        | (.ok segs _, s1) => (poisonIn s1 segs).isNone && recValid (readSegs s.mem segs)
        | _ => false) = true) ∧
    (let s := sW 1 [{ wRec with next := 5 }]
     let r := { wRec with next := 5 }
     (s.tile 0).walker.run = true ∧ s.dieOn 0 = true ∧ s.startHeld 0 = false ∧ (s.tile 0).walker.recs = [r] ∧ r.bad = false ∧ r.next < r.total ∧
      s.iterReady 0 r = true ∧ (s.slotFor 0 r.cmask).isSome = true) := by decide +kernel

def hdrX (fl own : Nat) : List Byte := leBytes 4 0x4B584354 ++ leBytes 20 0 ++ [BitVec.ofNat 8 fl, BitVec.ofNat 8 own] ++ leBytes 38 0
def sl0 (m : SlotMode) (frozen preq psave : Bool) : Slot :=
  { mode := m, frozen := frozen, psave := psave, task := some { id := 9, tile := 0, recIdx := 0, iter := 3, done := none }
    regs := { tvec := 0x200000, ctxbase := 0x200310000, preq := preq } }
def sP3 (v : Slot) : State :=
  { mk 0 [] [] (((ptMem 0).writeBytes 0x300000 (hdrX 4 0)).writeBytes 0x30001C (leBytes 4 0)) with slots := [(3, v)], streams := [] }
theorem witness_PreemptionAndSettling :
    slotOf 0 0 3 = 3 ∧
    (let s := sP3 (sl0 .running false false false)
     (s.slot 3).mode = .running ∧ heldHeader ((s.ctxRead 0 (areaOf s 3 0).toNat 64).getD []) = false ∧
      heldHeader ((s.ctxRead 0 (areaOf s 3 0x200300).toNat 64).getD []) = true) ∧
    (sP3 {}).slot 3 = { (sP3 {}).slot 3 with mode := .free } ∧
    (let s := sP3 (sl0 .trapped false true false)
     (s.slot 3).regs.preq = true ∧ (s.slot 3).mode = .trapped ∧ s.dieOn 0 = true ∧ NoPass s ⟨0, 0, 3, 0⟩) ∧
    (let s := sP3 (sl0 .preempted false false false)
     (s.slot 3).mode = .preempted ∧ (s.slot 3).psave = false ∧ (s.slot 3).task.isSome = true ∧
      s.dieOn 0 = true ∧ (∀ e ∈ s.tiles, ∀ r ∈ e.2.reds, r.source / 20 ≠ 0) ∧
      (match State.areaWrite 0 (s.slot 3).regs.ctxbase.toNat ((s.drainCore 0).contextRuns 3) (s.drainCore 0) with | (.ok _ _, _) => true | _ => false) = true) ∧
    (let s := sP3 {}
     let hd := (s.ctxRead 0 0x200300000 64).getD []
     heldHeader hd = true ∧ s.available 3 = true ∧ ctxField hd 24 1 = 4 ∧ ctxField hd 25 1 = 0 ∧ ctxField hd 12 4 = 0 ∧ (s.readContext 0 0x200300000 hd).isSome = true ∧
      s.savingInto 0 0x200300000 = false ∧ (match State.areaWrite 0 0x200300000 [(24, leBytes 1 0)] s with | (.ok _ _, _) => true | _ => false) = true ∧
      (∀ x ∈ s.readContext 0 0x200300000 hd, s.pausedOf 0 (ctxField (x.1.drop 0xE00) 0 8) = []) ∧ s.frtDest 0 0x11 = 5) ∧
    (let s := sP3 (sl0 .running false false false)
     heldHeader ((s.ctxRead 0 0x200304000 64).getD []) = false ∧ s.available 3 = false ∧ ¬ ((s.slot 3).mode = .trapped ∧ (s.slot 3).frozen = true)) ∧
    (let s := sP3 (sl0 .trapped true false false)
     (s.slot 3).mode = .trapped ∧ (s.slot 3).frozen = true ∧ HandlerLands s ⟨0, 0, 3, 0⟩) := by
  and_intros <;> first | exact noPass_of (by decide +kernel) | exact handlerLands_of (by decide +kernel) | decide +kernel
def snapC : CoreSnap := { core := {}, slots := [], streams := [], engine := {}, mgemv := [], mem := [], poison := [], seq := 6, stitch := 4 }
def snapT : TileSnap := { sems := [], walker := {}, supV := false, supCore := 0, supSlot := 0, rdrop := 0, frt := [], xfm0 := {}, xfm1 := {}, copy := {}, mem := [], poison := [], stamp := 7, stitch := 4 }
/-- Places whose first record, of sequence number 5, commits what is given. -/
def placed {α : Type} (v : α) : Places α := { first := some ⟨{ seq := 5, stitch := 4, mapAt := 0, map := [] }, v⟩ }
theorem newerThan_placed {α : Type} (v : α) (n : BitVec 32) (h : 0 < (n - 5).toInt) : NewerThan n (placed v) := by
  rintro c (e | e) _
  · cases e; exact h
  · cases e
theorem newerThan_none {α : Type} (n : BitVec 32) : NewerThan n ({} : Places α) := by
  rintro c (e | e) _ <;> cases e
def sL (left : List Nat) (asked : Bool) (drain : Bool) : State :=
  { mk 0 [] [] with clock := 200000, hub := { fresh := false }, aux := [(0, { liningAsked := asked })], linings := [(0, { places := placed snapC, drain := if drain then some snapC else none, left := left })] }
theorem witness_LiningPoints :
    (let s := sL [] false false
     (s.core 0).lpcfg.toNat % 65536 = 100 ∧ s.dieOn 0 = true ∧ (s.auxOf 0).timer + 2000 * 100 ≤ s.clock ∧
      ({ s with clock := 199999 } : State).clock < (s.auxOf 0).timer + 2000 * 100) ∧
    (let s := sL [] true false
     (s.auxOf 0).liningAsked = true ∧ (liningOf s 0 0).drain = none ∧ s.dieOn 0 = true ∧ (s.core 0).matrix.running = none ∧
      ∀ e ∈ s.tiles, ∀ r ∈ e.2.reds, r.source / 20 ≠ 0) ∧
    ((sL [] false false).tile 0).powered = true ∧ (let s := sL [] false true
     (liningOf s 0 0).drain = some snapC ∧ (liningOf s 0 0).left = [] ∧ s.dieOn 0 = true ∧ NewerThan snapC.seq (liningOf s 0 0).places ∧
      NewerThan ((s.tile 0).tseq + 1) (sharedOf s 0).places) ∧ (liningOf (sL [1] false true) 0 0).left ≠ [] ∧ (sL [] false false).hub.fresh = false ∧ ({} : State).hub.fresh = true := by
  and_intros <;> first | exact newerThan_placed _ _ (by decide +kernel) | exact newerThan_none _ | decide +kernel
def sPw (fresh powered hot : Bool) (seq : Bool) : State :=
  { tiles := [(15, { powered := powered, flushing := !powered, tseq := 5 })], hub := { fresh := fresh, hot := hot }
    linings := if seq then (List.range 8).map (fun c => (120 + c, { places := placed snapC, drain := some { snapC with seq := 7 } })) else [] }
theorem witness_PowerAndReset : (NewerThan (((sPw true false false false).tile 15).tseq + 1) (sharedOf (sPw true false false false) 15).places ∧
      NewerThan snapC.seq (placed snapC) ∧ liningOf (sPw false false false true) 15 7 = { places := placed snapC, drain := some { snapC with seq := 7 } }) ∧
    (sPw true true false false).dieOn 15 = true ∧ ((sPw true false false false).tile 15).flushing = true ∧ (sPw true true true false).hub.hot = true ∧
    bitN (sPw true true true false).hub.fenced 15 = false ∧ (sPw true true true false).hub.off = false ∧
    (let s := sPw false false false true
     (s.tile 15).powered = false ∧ s.hub.hot = false ∧ s.hub.off = false ∧ bitN s.hub.fenced 15 = false ∧ s.hub.fresh = false ∧
      (∀ c, c < 8 → (liningOf s 15 c).committed.isSome = true) ∧ (s.linings.map (fun e => e.1)).Nodup) ∧
    (let s := sPw true false false false
     s.hub.fresh = true ∧ (s.tile 15).coll.ops = [] ∧ s.circuits = [] ∧ (s.tile 15).powered = false) ∧
    (let obs : BootObs := { fails := 0, altFails := 0, tiles := 0, ports := [767], fibres := [], peers := [] }
     obs.fails = 0 ∧ obs.cut = 0 ∧ State.reset.hub.journal = [] ∧ State.reset.hub.failed = 0 ∧ State.reset.hub.torn = false ∧
      State.reset.hub.seedErased = false) :=
  ⟨⟨newerThan_none _, newerThan_placed _ _ (by decide +kernel), by decide +kernel⟩, by decide +kernel⟩
/-- A module whose last boot met no failure. -/
theorem witness_PowerAndReset_journal : ∀ n, let e := Tab.get ({} : JournalEntry) n [(1, { state := 2 }), (12, { state := 2 })]
    e.state ≠ 1 ∧ e.state ≠ 3 :=
  fun n => get_all (P := fun e : JournalEntry => e.state ≠ 1 ∧ e.state ≠ 3) (by decide) n _ (by decide)
def sBusy (b : Bool) (w : Option Nat) : State := { tiles := [(15, { busy := b, powered := true, bspWant := w })] }
theorem witness_TranslationControls :
    (let s := sBusy true none
     (s.tile 15).busy = true ∧ s.heldByCopy 15 = false ∧ (∀ e ∈ s.tiles, e.2.reds = []) ∧ ∀ c, c < 8 → (s.auxOf (8 * 15 + c)).mgemv = []) ∧ ((sBusy false none).tile 15).busy = false ∧
    (8 : Word).toNat % 16 ≤ 8 ∧ 8 < (9 : Word).toNat % 16 ∧ ((sBusy false (some 8)).tile 15).bspWant = some 8 ∧ (sBusy false (some 8)).tileBusy 15 = false := by
  decide +kernel
def imgMem : Memory := Memory.writeNat [] 0xC00000000000 4 0x4B58494D
def sMb (busy recovery : Bool) (job : Option Job) (grp : Bool) : State :=
  { hub := { busy := busy, recovery := recovery, job := job, mblen := 16 }, mem := imgMem, links := [(2, { trust := 1, service := some 801 })], groups := if grp then [(0x4D, {})] else []
    tiles := if grp then [(3, { coll := { ops := [{ cOp3 with group := 0x4D }] } })] else [] }
theorem witness_MailboxRequests :
    (let s := sMb false false none false
     MailboxServes s ∧ s.hub.job = none ∧ ctxField (requestBody s) 0 4 = 0x4B58494D ∧ ctxField (requestBody { s with mem := [] }) 0 4 ≠ 0x4B58494D ∧
      ¬ (∃ e ∈ s.tiles, ∃ o ∈ e.2.coll.ops, o.group = ctxField (requestBody s) 0 1)) ∧
    (sMb false false (some { mask := 1, tiles := [0] }) false).hub.job = some { mask := 1, tiles := [0] } ∧
    (let s := sMb false false none true
     s.groups.any (fun e => decide (e.1 = ctxField (requestBody s) 0 1)) = true ∧ ∃ e ∈ s.tiles, ∃ o ∈ e.2.coll.ops, o.group = ctxField (requestBody s) 0 1) ∧
    (sMb true false none false).hub.busy = true ∧ (sMb false true none false).hub.busy = false ∧ (sMb false true none false).hub.recovery = true ∧
    (sMb false true none false).requestReaches = true := by
  have reaches (s : State) (h : (s.links.any fun e => e.2.service.isSome && (s.hub.recovery || decide (e.2.trust = 1))) = true) : s.requestReaches = true := by
    simp only [State.requestReaches, h, Bool.or_true]
  refine ⟨⟨⟨reaches _ ?_, ?_⟩, ?_⟩, ?_, ?_, ?_, ?_, ?_, reaches _ ?_⟩ <;> decide +kernel
/-- The thimble core, handle 3 at the mailbox's registers. -/
def sDev : State :=
  { cur := ⟨16, 0, 0, 0⟩, streams := [(2560, { x := [(3, 7), (4, 16)], pc := 0x200004, ended := false })]
    slots := [(512, { mode := .running, handles := [(3, { hnd 9 0x10000 0x1000000 7 with ceil := 0 })], tack := [(0, 2), (8, 2)] })] }
theorem witness_DeviceRegisters :
    (State.reset.tile 3).walker.cmd = none ∧ (({ tiles := [(3, { walker := { cmd := some 0x1301 } })] } : State).tile 3).walker.cmd = some 0x1301 ∧
    State.reset.hub.busy = false ∧ (sMb true false none false).hub.busy = true ∧ (9 : Word).toNat % 8 = 1 ∧ (10 : Word).toNat % 8 = 2 ∧
    devReg (0x3FFFF / 8 * 8) = none ∧ Ready sDev n0 ∧ (sDev.h 3).space = 9 ∧ elemUnit (sDev.h 3).type = false ∧
    devReg (((sDev.h 3).base + ((sDev.h 3).scalarBits 8 8).1 / 8) / 8 * 8) = some .mbaddr ∧
    devReg (((sDev.h 3).base + ((sDev.h 3).scalarBits 12 4).1 / 8) / 8 * 8) = some .mbaddr ∧
    tr [passes sDev 3 8 ((sDev.h 3).scalarWant 8 8 false true true), passes sDev 3 8 ((sDev.h 3).scalarWant 8 8 true true true),
      passes sDev 3 12 ((sDev.h 3).scalarWant 12 4 false true true), passes sDev 3 12 ((sDev.h 3).scalarWant 12 4 true true true)] = true := by decide +kernel

/-! ### The step, the decoder and memory -/

/-- Slot 0 alone, its C stream at `ADD x5, x6, x7` or another word; and slots 0 and 1 at it, of priorities 2 and 5. -/
def sN (w : Nat) : State :=
  { mk 0 [(4, 5)] [] ((ptMem 0).writeNat 0x200004 4 w) { block := body 0 0 3 } with turns := [.engine p0 3] }
def s2 (a b : Nat) : State :=
  let s := sN 0x038C2841
  { s with slots := [(0, { s.mySlot with regs := { s.mySlot.regs with eff := a } }), (1, { s.mySlot with regs := { s.mySlot.regs with eff := b } })]
           streams := [(0, s.me), (5, s.me)] }
def s0 (s : State) : State := ({ s with turns := [] } : State).passTime 3
def fetched (s : State) (p : Place) : Option (List Byte) :=
  let s0 := ({ s with cur := p } : State).endPageWait p
  match s0.fetchWord p.tile p.stream s0.me.pc.toNat with | (.ok bs, _) => some bs | _ => none
def addI : Instr := .addR 5 6 7 n0
theorem nextWord_of {s : State} {p : Place} (i : Instr) {bs rest : List Byte} (h : fetched s p = some bs)
    (hd : decode bs = .ok (i, rest) ∧ ((({ s with cur := p } : State).endPageWait p).me.block = none → isHeader bs = true)) :
    ∃ u, NextWord s p i u := by
  simp only [fetched] at h
  split at h
  · cases h
    exact ⟨_, _, _, ‹_›, hd⟩
  · cases h
def p1 : Place := ⟨0, 0, 0, 1⟩
def readCause : Instr := .mfs 1 1 n0
/-- Streams C and M of slot 0 in user mode, both at `MFS x1, TCAUSE`, each in a page of its class. -/
def sTwo : State :=
  let m := ((ptMem 0).writeNat 0x60018 8 (2 ^ 63 + 2 ^ 62 + 2 ^ 57 + 2 ^ 55 + 2 ^ 52)).writeNat 0x200004 4 0x2097B
  let a := mk 0 [] [] m { block := body 0 0 3 }
  frt 0 (Claims.State.notedReady { a with streams := [(0, a.me), (1, { a.me with pc := 0x600200004 })] } p1)
def faultsAt (p : Place) (s : State) : Bool :=
  match exec readCause { s with cur := p } with | .next t => faulted p s t | _ => false
/-- The clause on two faults in one cycle (R363). -/
theorem witness_StepRunsDecodedInstruction_faults : WithinBudget sTwo p1 ∧ OnlyEligible sTwo p1 ∧ eligible sTwo p0 = true ∧ p0.stream < p1.stream ∧
    (∃ u, NextWord sTwo p1 readCause u) ∧ (∃ u, NextWord sTwo p0 readCause u) ∧ faultsAt p1 sTwo = true ∧ faultsAt p0 sTwo = true := by
  refine ⟨?_, ?_, ?_, ?_, nextWord_of readCause (bs := leBytes 4 0x2097B) (rest := []) ?_ ?_,
    nextWord_of readCause (bs := leBytes 4 0x2097B) (rest := []) ?_ ?_, ?_, ?_⟩
  all_goals (first | decide +kernel | (simp only [WithinBudget, OnlyEligible]; decide +kernel))
/-- A core with 513 dirty blocks (R379), and one within its budget. -/
theorem witness_StepRunsDecodedInstruction_budget :
    ({ mem := (List.range 513).map (fun i => (sram kSlice 0 (4096 * i), 1)) } : State).coreFull 0 = true ∧ WithinBudget (sN 0x038C2841) p0 ∧
    DeliversItself p0 (sN 0x038C2841) (exec addI (sN 0x038C2841)) :=
  ⟨by decide +kernel, by simp only [WithinBudget]; decide +kernel, .inl rfl⟩
theorem witness_StepRunsDecodedInstruction :
    (let s := s0 (sN 0x038C2841)
     OnlyEligible s p0 ∧ (∃ u, NextWord s p0 addI u) ∧ shows (exec addI { s with cur := p0 }) (fun t => (t.at p0).blocked) false = true) ∧
    (let s := s0 (sN 0x81884825)
     OnlyEligible s p0 ∧ (∃ u, NextWord s p0 (.semw 9 4 259 n0) u) ∧ shows (exec (.semw 9 4 259 n0) { s with cur := p0 }) (fun t => (t.at p0).blocked) true = true ∧
      ∀ q ∈ engineSlots p0, q ≠ p0 → eligible s q = false) ∧
    (let s := s0 (sN 0x000001C1)
     OnlyEligible s p0 ∧ (match fetched s p0 with | some bs => (match decode bs with | .error _ => true | _ => false) | none => false) = true ∧
      (s.at p0).block.isSome = true) ∧
    (∀ q ∈ engineSlots p0, eligible (s0 { sN 0 with slots := [] }) q = false) ∧
    ((engineSlots p0).foldl (trial exec) ([], s0 (s2 2 5))).1 = [0, 1] ∧
    (let u := ((engineSlots p0).foldl (trial exec) ([], s0 (s2 2 5))).2
     shareDue u p0 = false ∧ shareDue u ⟨0, 0, 1, 0⟩ = false ∧ (u.slot 0).regs.eff < (u.slot 1).regs.eff ∧ (∃ v, NextWord u ⟨0, 0, 1, 0⟩ addI v)) := by
  refine ⟨⟨?_, nextWord_of addI (bs := leBytes 4 0x038C2841) (rest := []) ?_ ?_, ?_⟩, ⟨?_, nextWord_of (.semw 9 4 259 n0) (bs := leBytes 4 0x81884825) (rest := []) ?_ ?_, ?_, ?_⟩, ⟨?_, ?_, ?_⟩, ?_, ?_, ?_, ?_, ?_, nextWord_of addI (bs := leBytes 4 0x038C2841) (rest := []) ?_ ?_⟩
  all_goals (first | decide +kernel | (simp only [OnlyEligible]; decide +kernel))

/-- A buffered store of core 0 to shared memory, whose block was dirty at a capture and is not written yet, or is (R380). -/
def sStall (left : List Nat) : State :=
  { (mk 0 [] []).setAux 0 { stores := [⟨0, 8 * sram kShared 0 0x100, 8, 5⟩] } with linings := [(0, { drain := some snapC, left := left })] }
def stallOf (left : List Nat) : Option Nat :=
  match execStorePerformedAtHome 0 0 0 (sStall left) with | .next t => (sStall left).stalledWrite t | _ => none
theorem witness_StepRunsDecodedInstruction_writes :
    stallOf [blockOf (sram kShared 0 0x100)] = some (blockOf (sram kShared 0 0x100)) ∧ stallOf [] = none := by decide +kernel

/-- A well-formed instruction with an encoding in each of the three tables, and bytes that decode to it. -/
theorem witness_DecodeEncodeAgree :
    addI.wf = true ∧ encode32 addI = some 0x038C2841 ∧ decode (leBytes 4 0x038C2841 ++ [7]) = .ok (addI, [7]) ∧ (Instr.cAddi 4 29).wf = true ∧
    encode16 (.cAddi 4 29) = some 0xE912 ∧ Instr.sequencerEnd.wf = true ∧ encodeSeq .sequencerEnd = some 0#64 ∧ decodeSeq 0#64 = .ok .sequencerEnd := by
  decide +kernel
/-- With no lining holding anything, the memory alone is to be canonical. -/
theorem canonical_of {s : State} (h : Memory.wf s.mem) (hl : s.linings = []) (ht : s.tileLinings = []) : Canonical s := by
  constructor <;> first | exact h | simp [hl, ht]
theorem witness_MemoryStaysCanonical : Canonical (State.reset.withFetchWord 32 0x038C2841) ∧
    (match step (State.reset.withFetchWord 32 0x038C2841) with | .next _ => true | _ => false) = true :=
  ⟨canonical_of (by decide +kernel) rfl rfl, by decide +kernel⟩
theorem witness_MemoryCanonicalAtReset : Canonical State.reset := canonical_of (by decide +kernel) rfl rfl
end Sys2Proof.Tests
end

section
/-!
O58 and O59: the memories of the module stay canonical.

`Canonical s` speaks of the module's memory and of the memories its linings hold. Every function of the
model that answers a state gets one lemma here: from a canonical state it answers a canonical one. Each is
proved from the lemmas of the functions it calls, in the order of the model, so a function that touches no
memory needs no more than its callees' names, and the ones that write a memory name the rule of that write.

This part: the operations on a memory, and the linings that hold one.
-/

namespace Sys2Proof.Machine

/-- The state an instruction's body leaves, whatever its outcome. -/
@[simp] def Eff.state : Eff → State
  | .done s | .goto _ s | .held s | .wait _ s | .trap _ s => s

/-- The state the checks of an access leave. -/
@[simp] def Chk.state : Chk → State
  | .ok _ _ s | .bad _ s | .hold s => s

/-- The state an iteration of a copy leaves. -/
@[simp] def Iter.state : Iter → State
  | .ok _ s | .fault _ _ s | .hold _ s => s

end Sys2Proof.Machine

namespace Sys2Proof.Claims
open Sys2Proof.Machine

/-! ### The three fields `Canonical` reads -/

/-- `Canonical` of any state with this memory and these linings: its other fields do not matter. -/
def MemoriesOk (m : Memory) (l : Tab Lining) (tl : Tab TileLining) : Prop :=
  Canonical { mem := m, linings := l, tileLinings := tl }

@[simp] theorem canonical_mk {a b c d e f l tl m g h i j k n o p q r u v w x y z a1} :
    Canonical (State.mk a b c d e f l tl m g h i j k n o p q r u v w x y z a1) ↔ MemoriesOk m l tl := by
  constructor <;> (rintro ⟨_, _, _, _, _, _, _, _⟩; constructor <;> assumption)

@[simp] theorem memoriesOk_self (s : State) :
    MemoriesOk s.mem s.linings s.tileLinings ↔ Canonical s := by
  rw [← canonical_mk (a := s.streams)]

section
variable {m : Memory} {l : Tab Lining} {tl : Tab TileLining}

theorem MemoriesOk.of_mem {m' : Memory} (h : MemoriesOk m l tl) (hm : Memory.wf m → Memory.wf m') :
    MemoriesOk m' l tl := by
  obtain ⟨h0, _, _, _, _, _, _, _⟩ := h
  constructor
  · exact hm h0
  all_goals assumption

theorem MemoriesOk.writeBytes {a bs} (h : MemoriesOk m l tl) : MemoriesOk (m.writeBytes a bs) l tl :=
  h.of_mem (Memory.wf_writeBytes · a bs)

theorem MemoriesOk.writeNat {a n v} (h : MemoriesOk m l tl) : MemoriesOk (m.writeNat a n v) l tl :=
  h.of_mem (Memory.wf_writeNat · a n v)

theorem MemoriesOk.writeBits {a n v} (h : MemoriesOk m l tl) : MemoriesOk (m.writeBits a n v) l tl :=
  h.of_mem (Memory.wf_writeBits · a n v)

theorem MemoriesOk.zero {a n} (h : MemoriesOk m l tl) : MemoriesOk (m.zero a n) l tl :=
  h.of_mem (Memory.wf_zero · a n)

theorem MemoriesOk.writeSegs {a n} (h : MemoriesOk m l tl) : MemoriesOk (writeSegs m a n) l tl :=
  h.of_mem (Memory.wf_writeSegs · a n)

theorem MemoriesOk.putBits {a n v w} (h : MemoriesOk m l tl) : MemoriesOk (putBits m a n v w) l tl :=
  h.of_mem (Memory.wf_putBits · a n v w)

theorem MemoriesOk.copyRange {a n v} (h : MemoriesOk m l tl) : MemoriesOk (m.copyRange a n v) l tl :=
  h.of_mem (Memory.wf_copyRange · a n v)

theorem MemoriesOk.filter {p} (h : MemoriesOk m l tl) : MemoriesOk (List.filter p m) l tl :=
  h.of_mem (Memory.wf_filter · p)

end

theorem Canonical.withMem {s : State} {m} (hs : Canonical s) (hm : Memory.wf m) :
    Canonical { s with mem := m } :=
  canonical_mk.2 (((memoriesOk_self s).2 hs).of_mem fun _ => hm)

/-! ### Folds, choices and outcomes -/

theorem Canonical.foldl {α : Type} {f : State → α → State} {as : List α} {s : State} (h : Canonical s)
    (hf : ∀ s a, Canonical s → Canonical (f s a)) : Canonical (as.foldl f s) := by
  induction as generalizing s with
  | nil => exact h
  | cons a r ih => exact ih (hf s a h)

theorem Canonical.foldl_snd {α β : Type} {f : β × State → α → β × State} {as : List α} {s : State} {b : β}
    (h : Canonical s) (hf : ∀ b s a, Canonical s → Canonical (f (b, s) a).2) :
    Canonical (as.foldl f (b, s)).2 := by
  induction as generalizing b s with
  | nil => exact h
  | cons a r ih => exact ih (hf b s a h)

theorem foldl_bind_none {α β : Type} {f : β → α → Option β} {as : List α} :
    as.foldl (fun r a => r.bind fun s => f s a) none = none := by
  induction as with
  | nil => rfl
  | cons a r ih => exact ih

theorem foldl_bind_some {α β : Type} {P : β → Prop} {f : β → α → Option β} {as : List α} {b r : β}
    (hf : ∀ b a r, P b → f b a = some r → P r) (hb : P b)
    (hr : as.foldl (fun r a => r.bind fun b => f b a) (some b) = some r) : P r := by
  induction as generalizing b with
  | nil => exact Option.some.inj hr ▸ hb
  | cons a as ih =>
    simp only [List.foldl_cons, Option.bind_some] at hr
    cases hfa : f b a with
    | none => rw [hfa, foldl_bind_none] at hr; cases hr
    | some u => exact ih (hf b a u hb hfa) (hfa ▸ hr)

theorem Canonical.ite {c : Prop} [Decidable c] {a b : State} (ha : Canonical a) (hb : Canonical b) :
    Canonical (if c then a else b) := by
  split_ifs
  · exact ha
  · exact hb

theorem Canonical.getD {o : Option State} {d : State} (ho : ∀ s, o = some s → Canonical s)
    (hd : Canonical d) : Canonical (o.getD d) := by
  cases o with
  | none => exact hd
  | some s => exact ho s rfl

/-- A step's outcome: the next state it answers, if any, is canonical. -/
def OutCanonical : Out → Prop
  | .next t => Canonical t
  | _ => True

@[simp] theorem outCanonical_next {t : State} : OutCanonical (.next t) ↔ Canonical t := Iff.rfl
@[simp] theorem outCanonical_fault {r : Fault} : OutCanonical (.fault r) := trivial
@[simp] theorem outCanonical_refused {r : Refusal} : OutCanonical (.refused r) := trivial

/-! ### The linings that hold a memory -/

/-- The memories a core's lining holds are canonical. -/
structure LiningOk (l : Lining) : Prop where
  committed : ∀ c, l.places.first = some c ∨ l.places.second = some c → Memory.wf c.snap.mem
  work : Memory.wf l.work
  drain : ∀ p, l.drain = some p → Memory.wf p.mem
  shared : ∀ p, l.shared = some p → Memory.wf p.mem

/-- The memories a tile's lining holds are canonical. -/
structure TileLiningOk (l : TileLining) : Prop where
  committed : ∀ c, l.places.first = some c ∨ l.places.second = some c → Memory.wf c.snap.mem
  work : Memory.wf l.work
  drain : ∀ p, l.drain = some p → Memory.wf p.mem

theorem memoriesOk_iff {m l tl} :
    MemoriesOk m l tl ↔ Memory.wf m ∧ (∀ e ∈ l, LiningOk e.2) ∧ ∀ e ∈ tl, TileLiningOk e.2 := by
  constructor
  · rintro ⟨h1, h2, h3, h4, h5, h6, h7, h8⟩
    exact ⟨h1, fun e he => ⟨h2 e he, h3 e he, h4 e he, h5 e he⟩, fun e he => ⟨h6 e he, h7 e he, h8 e he⟩⟩
  · rintro ⟨h1, h2, h3⟩
    exact ⟨h1, fun e he => (h2 e he).committed, fun e he => (h2 e he).work, fun e he => (h2 e he).drain,
      fun e he => (h2 e he).shared,
      fun e he => (h3 e he).committed, fun e he => (h3 e he).work, fun e he => (h3 e he).drain⟩

theorem Tab.forall_get {α : Type} {P : α → Prop} {d : α} {i : Nat} {t : Tab α} (hd : P d)
    (h : ∀ e ∈ t, P e.2) : P (Tab.get d i t) := by
  induction t with
  | nil => exact hd
  | cons e r ih =>
    simp only [Tab.get]
    split_ifs
    · exact h e (by simp)
    · exact ih fun e he => h e (by simp [he])

theorem Tab.forall_set {α : Type} [DecidableEq α] {P : α → Prop} {d v : α} {i : Nat} {t : Tab α} (hv : P v)
    (h : ∀ e ∈ t, P e.2) :
    ∀ e ∈ Tab.set d i v t, P e.2 := by
  intro e he
  unfold Tab.set at he
  split_ifs at he
  · exact h e (List.mem_of_mem_filter he)
  · rcases Tab.mem_insert_key he with rfl | he
    · exact hv
    · exact h e he

theorem LiningOk.empty : LiningOk {} := ⟨by simp, Memory.wf_nil, by simp, by simp⟩

theorem TileLiningOk.empty : TileLiningOk {} := ⟨by simp, Memory.wf_nil, by simp⟩

theorem canonical_iff {s : State} : Canonical s ↔
    Memory.wf s.mem ∧ (∀ e ∈ s.linings, LiningOk e.2) ∧ ∀ e ∈ s.tileLinings, TileLiningOk e.2 := by
  rw [← memoriesOk_self, memoriesOk_iff]

theorem Canonical.lining {s : State} {k} (hs : Canonical s) : LiningOk (s.lining k) :=
  Tab.forall_get LiningOk.empty (canonical_iff.1 hs).2.1

theorem Canonical.tileLining {s : State} {t} (hs : Canonical s) : TileLiningOk (s.tileLining t) :=
  Tab.forall_get TileLiningOk.empty (canonical_iff.1 hs).2.2

theorem Canonical.setLining {s : State} {k v} (hs : Canonical s) (hv : LiningOk (s.lining k) → LiningOk v) :
    Canonical (s.setLining k v) := by
  obtain ⟨h1, h2, h3⟩ := canonical_iff.1 hs
  exact canonical_iff.2 ⟨h1, Tab.forall_set (hv hs.lining) h2, h3⟩

theorem Canonical.setTileLining {s : State} {t v} (hs : Canonical s)
    (hv : TileLiningOk (s.tileLining t) → TileLiningOk v) : Canonical (s.setTileLining t v) := by
  obtain ⟨h1, h2, h3⟩ := canonical_iff.1 hs
  exact canonical_iff.2 ⟨h1, h2, Tab.forall_set (hv hs.tileLining) h3⟩

theorem Memory.wf_within {m : Memory} (h : Memory.wf m) (ws) : Memory.wf (m.within ws) :=
  Memory.wf_filter h _

theorem Memory.wf_spliceBlock {src m : Memory} (hs : Memory.wf src) (h : Memory.wf m) (b : Nat) :
    Memory.wf (spliceBlock src m b) := by
  have key (a : Nat) : blockOf a = a / 4096 + 1 := rfl
  refine Memory.wf_append (a := (b - 1) * 4096) (b := b * 4096) (Memory.wf_filter h _)
    (Memory.wf_filter hs _) (Memory.wf_filter h _) ?_ ?_ ?_ (by omega)
  · intro e he
    have : blockOf e.1 < b := by simpa using (List.mem_filter.1 he).2
    rw [key] at this; omega
  · intro e he
    have : blockOf e.1 = b := by simpa using (List.mem_filter.1 he).2
    rw [key] at this; omega
  · intro e he
    have : b < blockOf e.1 := by simpa using (List.mem_filter.1 he).2
    rw [key] at this; omega

theorem Memory.wf_foldl_spliceBlock {src : Memory} (hs : Memory.wf src) (bs : List Nat) {m : Memory}
    (h : Memory.wf m) : Memory.wf (bs.foldl (spliceBlock src) m) := by
  induction bs generalizing m with
  | nil => exact h
  | cons b r ih => exact ih (Memory.wf_spliceBlock hs h b)

theorem Memory.wf_getD {α : Type} {f : α → Memory} {o : Option α} (h : ∀ p, o = some p → Memory.wf (f p)) :
    Memory.wf ((o.map f).getD []) := by
  cases o with
  | none => exact Memory.wf_nil
  | some p => exact h p rfl

theorem LiningOk.withWork {l : Lining} {bs m} (h : LiningOk l) (hm : Memory.wf m) :
    LiningOk { l with left := bs, work := m } := ⟨h.committed, hm, h.drain, h.shared⟩

theorem TileLiningOk.withWork {l : TileLining} {m} (h : TileLiningOk l) (hm : Memory.wf m) :
    TileLiningOk { l with work := m } := ⟨h.committed, hm, h.drain⟩

theorem Places.put_cases {α : Type} {p : Places α} {c d : Commit α}
    (h : (p.put c).first = some d ∨ (p.put c).second = some d) :
    d = c ∨ p.first = some d ∨ p.second = some d := by
  unfold Places.put at h
  split_ifs at h <;> simp only [Option.some.injEq] at h <;> tauto

theorem validCommit_eq {α : Type} {c : Option (Commit α)} {d : Commit α} (h : validCommit c = some d) :
    c = some d :=
  (Option.filter_eq_some_iff.1 h).1

theorem Places.current_mem {α : Type} {p : Places α} {c : Commit α} (h : p.current = some c) :
    p.first = some c ∨ p.second = some c := by
  unfold Places.current at h
  split_ifs at h
  · exact .inl h
  · exact .inr (validCommit_eq h)

theorem LiningOk.committed_wf {l : Lining} (h : LiningOk l) {p} (hp : l.committed = some p) :
    Memory.wf p.mem := by
  obtain ⟨c, hc, rfl⟩ := Option.map_eq_some_iff.1 hp
  exact h.committed c (Places.current_mem hc)

theorem TileLiningOk.committed_wf {l : TileLining} (h : TileLiningOk l) {p} (hp : l.committed = some p) :
    Memory.wf p.mem := by
  obtain ⟨c, hc, rfl⟩ := Option.map_eq_some_iff.1 hp
  exact h.committed c (Places.current_mem hc)

theorem LiningOk.commit {l : Lining} {k p} (h : LiningOk l) (hp : Memory.wf p.mem) :
    LiningOk (l.commit k p) := by
  refine ⟨fun c hc => ?_, hp, h.drain, h.shared⟩
  rcases Places.put_cases hc with rfl | hc
  · exact hp
  · exact h.committed c hc

theorem TileLiningOk.commit {l : TileLining} {t n p} (h : TileLiningOk l) (hp : Memory.wf p.mem) :
    TileLiningOk (l.commit t n p) := by
  refine ⟨fun c hc => ?_, hp, h.drain⟩
  rcases Places.put_cases hc with rfl | hc
  · exact hp
  · exact h.committed c hc

theorem TileLiningOk.newest {l : TileLining} {sh} (h : TileLiningOk l)
    (hsh : ∀ p, sh = some p → Memory.wf p.mem) : Memory.wf (l.newest sh).mem := by
  unfold TileLining.newest
  split
  · split_ifs
    · exact hsh _ rfl
    · exact h.committed_wf ‹_›
  · exact hsh _ rfl
  · cases hc : l.committed with
    | none => exact Memory.wf_nil
    | some p => exact h.committed_wf hc

theorem LiningOk.getD_committed {l : Lining} (h : LiningOk l) :
    Memory.wf (l.committed.getD resetCore).mem := by
  cases hc : l.committed with
  | none => exact Memory.wf_nil
  | some p => exact h.committed_wf hc

theorem TileLiningOk.getD_committed {l : TileLining} (h : TileLiningOk l) :
    Memory.wf (l.committed.getD resetTile).mem := by
  cases hc : l.committed with
  | none => exact Memory.wf_nil
  | some p => exact h.committed_wf hc

theorem LiningOk.captured {l : Lining} {p sh bs} (h : LiningOk l) (hp : Memory.wf p.mem)
    (hsh : ∀ p, sh = some p → Memory.wf p.mem) :
    LiningOk { l with drain := some p, shared := sh, left := bs } :=
  ⟨h.committed, h.work, by rintro _ ⟨⟩; exact hp, hsh⟩

theorem LiningOk.flushed {l : Lining} {bs} (h : LiningOk l) :
    LiningOk { l with drain := none, shared := none, left := bs } :=
  ⟨h.committed, h.work, by simp, by simp⟩

theorem LiningOk.ite {c : Prop} [Decidable c] {l m : Lining} (hl : LiningOk l) (hm : LiningOk m) :
    LiningOk (if c then l else m) := by
  split_ifs
  · exact hl
  · exact hm

theorem TileLiningOk.ite {c : Prop} [Decidable c] {l m : TileLining} (hl : TileLiningOk l)
    (hm : TileLiningOk m) : TileLiningOk (if c then l else m) := by
  split_ifs
  · exact hl
  · exact hm

theorem TileLiningOk.flushed {l : TileLining} {f} (h : TileLiningOk l) :
    TileLiningOk { l with drain := none, flush := f } :=
  ⟨h.committed, h.work, by simp⟩

theorem TileLiningOk.drained {l : TileLining} {p f} (h : TileLiningOk l) (hp : Memory.wf p.mem) :
    TileLiningOk { l with drain := some p, flush := f } :=
  ⟨h.committed, h.work, by rintro _ ⟨⟩; exact hp⟩

theorem TileLiningOk.unflushed {l : TileLining} (h : TileLiningOk l) :
    TileLiningOk { l with flush := none } := ⟨h.committed, h.work, h.drain⟩

theorem Canonical.keptLinings {s : State} (hs : Canonical s) : ∀ e ∈ s.keptLinings, LiningOk e.2 := by
  intro e he
  obtain ⟨e, h, rfl⟩ := List.mem_map.1 (List.mem_of_mem_filter he)
  exact ⟨((canonical_iff.1 hs).2.1 e h).committed, Memory.wf_nil, by simp, by simp⟩

theorem Canonical.keptTileLinings {s : State} (hs : Canonical s) :
    ∀ e ∈ s.keptTileLinings, TileLiningOk e.2 := by
  intro e he
  obtain ⟨e, h, rfl⟩ := List.mem_map.1 (List.mem_of_mem_filter he)
  exact ⟨((canonical_iff.1 hs).2.2 e h).committed, Memory.wf_nil, by simp⟩

theorem Canonical.snapTile_wf {s : State} {tile} (hs : Canonical s) : Memory.wf (s.snapTile tile).mem :=
  Memory.wf_within hs.mem _

/-! ### Objects of the state, clocks and translation -/

theorem Canonical.setStream {s : State} {k v} (hs : Canonical s) : Canonical (State.setStream s k v) :=
  canonical_mk.2 ((memoriesOk_self _).2 hs)

theorem Canonical.setSlot {s : State} {k v} (hs : Canonical s) : Canonical (State.setSlot s k v) :=
  canonical_mk.2 ((memoriesOk_self _).2 hs)

theorem Canonical.setCore {s : State} {k v} (hs : Canonical s) : Canonical (State.setCore s k v) :=
  canonical_mk.2 ((memoriesOk_self _).2 hs)

theorem Canonical.setAux {s : State} {k v} (hs : Canonical s) : Canonical (State.setAux s k v) :=
  canonical_mk.2 ((memoriesOk_self _).2 hs)

theorem Canonical.setTile {s : State} {t v} (hs : Canonical s) : Canonical (State.setTile s t v) :=
  canonical_mk.2 ((memoriesOk_self _).2 hs)

theorem Canonical.setMySlot {s : State} {v} (hs : Canonical s) : Canonical (State.setMySlot s v) :=
  hs.setSlot

theorem Canonical.setMyCore {s : State} {v} (hs : Canonical s) : Canonical (State.setMyCore s v) :=
  hs.setCore

theorem Canonical.setRegs {s : State} {k r} (hs : Canonical s) : Canonical (State.setRegs s k r) :=
  hs.setSlot

theorem Canonical.setAt {s : State} {p v} (hs : Canonical s) : Canonical (State.setAt s p v) := by
  grind [State.setAt, Canonical.setSlot, Canonical.setStream]

theorem Canonical.setMe {s : State} {v} (hs : Canonical s) : Canonical (State.setMe s v) :=
  hs.setAt

theorem Canonical.setX {s : State} {r v} (hs : Canonical s) : Canonical (State.setX s r v) :=
  hs.setMe

theorem Canonical.translate {s : State} {tile key va} (hs : Canonical s) :
    Canonical (State.translate s tile key va).2 := by
  grind [State.translate, Canonical.setTile]

theorem Canonical.xlate {tile key a near fuel} {s : State} {va n} (hs : Canonical s) :
    Canonical (State.xlate tile key a near fuel s va n).2 := by
  induction fuel generalizing s va n <;> grind [State.xlate, Canonical.translate]

theorem Canonical.pageFault {s : State} {p va} (hs : Canonical s) :
    Canonical (State.pageFault s p va).2 := by
  grind [State.pageFault, Canonical.setTile]

theorem Canonical.streamFault {s : State} {p va} (hs : Canonical s) :
    Canonical (State.streamFault s p va).2 := by
  grind [State.streamFault, Canonical.pageFault, Canonical.setAt]

theorem Canonical.endPageWait {s : State} {p} (hs : Canonical s) : Canonical (State.endPageWait s p) := by
  grind [State.endPageWait, Canonical.setAt]

theorem Canonical.fetchBytes {s : State} {tile cls va n} (hs : Canonical s) :
    Canonical (s.fetchBytes tile cls va n).2 := by
  induction n generalizing s va <;> grind [State.fetchBytes, Canonical.translate]

theorem Canonical.fetchWord {s : State} {tile cls va} (hs : Canonical s) :
    Canonical (State.fetchWord s tile cls va).2 := by
  grind [State.fetchWord, Canonical.fetchBytes]

/-! ### Memory seen through a handle -/

theorem Canonical.wr {s : State} {v off bs} (hs : Canonical s) : Canonical (State.wr s v off bs) := by
  grind [State.wr, canonical_mk, memoriesOk_self, MemoriesOk.writeSegs]

theorem Canonical.wrBits {s : State} {v bit w x4} (hs : Canonical s) :
    Canonical (State.wrBits s v bit w x4) :=
  hs.wr

theorem Canonical.clearPoison {s : State} {segs} (hs : Canonical s) :
    Canonical (State.clearPoison s segs) :=
  canonical_mk.2 ((memoriesOk_self _).2 hs)

theorem Canonical.writeGroup {s : State} {v G g gr} (hs : Canonical s) :
    Canonical (State.writeGroup s v G g gr) := by
  grind [State.writeGroup, Canonical.foldl, Canonical.wr, Canonical.clearPoison]

/-! ### Accumulator tiles and matrix rows -/

theorem Canonical.setRow {s : State} {core a row w ls} (hs : Canonical s) :
    Canonical (State.setRow s core a row w ls) := by
  grind [State.setRow, canonical_mk, memoriesOk_self, MemoriesOk.writeBytes]

theorem Canonical.setLane {s : State} {core a row w i v} (hs : Canonical s) :
    Canonical (State.setLane s core a row w i v) := by
  grind [State.setLane, canonical_mk, memoriesOk_self, MemoriesOk.writeNat]

theorem Canonical.passRow {s : State} {p ps i} (hs : Canonical s) : Canonical (State.passRow s p ps i) := by
  grind [State.passRow, Canonical.foldl, Canonical.setRow]

theorem Canonical.passRows {s : State} {p ps k cnt} (hs : Canonical s) :
    Canonical (State.passRows s p ps k cnt) :=
  hs.foldl fun _ _ h => h.passRow

/-! ### Tacks, events, completion, exceptions, issue -/

theorem Canonical.setSem {s : State} {tile core sel v} (hs : Canonical s) :
    Canonical (State.setSem s tile core sel v) := by
  grind [State.setSem, Canonical.setCore, Canonical.setTile]

theorem Canonical.relend {s : State} {tile} (hs : Canonical s) : Canonical (State.relend s tile) :=
  hs.foldl fun _ _ h => h.setSlot

theorem Canonical.report {s : State} {d e tile slot} (hs : Canonical s) :
    Canonical (State.report s d e tile slot) :=
  canonical_mk.2 ((memoriesOk_self _).2 hs)

theorem Canonical.logRouted {s : State} {tile e} (hs : Canonical s) :
    Canonical (State.logRouted s tile e) := by
  grind [State.logRouted, canonical_mk, memoriesOk_self]

theorem Canonical.soon {s : State} {d} (hs : Canonical s) : Canonical (State.soon s d) :=
  canonical_mk.2 ((memoriesOk_self _).2 hs)

theorem Canonical.later {s : State} {d} (hs : Canonical s) : Canonical (State.later s d) :=
  canonical_mk.2 ((memoriesOk_self _).2 hs)

theorem Canonical.again {s : State} {d} (hs : Canonical s) : Canonical (State.again s d) := by
  grind [State.again, canonical_mk, memoriesOk_self]

theorem Canonical.once {s : State} {d} (hs : Canonical s) : Canonical (State.once s d) :=
  .ite hs hs.later

theorem Canonical.postSlot {s : State} {k e} (hs : Canonical s) : Canonical (State.postSlot s k e) := by
  grind [State.postSlot, Canonical.soon, Canonical.setSlot, Canonical.report]

theorem Canonical.postSuper {s : State} {tile slot e} (hs : Canonical s) :
    Canonical (State.postSuper s tile slot e) := by
  grind [State.postSuper, Canonical.postSlot, Canonical.report]

theorem Canonical.areaWrite {tile base runs} {s : State} (hs : Canonical s) :
    Canonical (State.areaWrite tile base runs s).2 := by
  induction runs generalizing s <;> grind
    [State.areaWrite, Canonical.xlate, canonical_mk, memoriesOk_self, MemoriesOk.writeSegs]

theorem Canonical.postTask {s : State} {tile id e} (hs : Canonical s) :
    Canonical (State.postTask s tile id e) := by
  grind [State.postTask, Canonical.postSlot, Canonical.report, Canonical.areaWrite, Canonical.again,
    Canonical.postSuper]

theorem Canonical.toHost {s0 : State} {e tile slot} (hs : Canonical s0) :
    Canonical (State.toHost s0 e tile slot) :=
  canonical_mk.2 ((memoriesOk_self _).2 hs.report)

theorem Canonical.route {s0 : State} {tile task e} (hs : Canonical s0) :
    Canonical (State.route s0 tile task e) := by
  grind [State.route, Canonical.logRouted, Canonical.postTask, Canonical.postSuper, Canonical.toHost,
    Canonical.report]

theorem Canonical.routeTask {s : State} {tile task e} (hs : Canonical s) :
    Canonical (State.routeTask s tile task e) := by
  grind [State.routeTask, Canonical.report, Canonical.route]

theorem Canonical.routeFrozen {s0 : State} {p e} (hs : Canonical s0) :
    Canonical (State.routeFrozen s0 p e) := by
  grind [State.routeFrozen, Canonical.logRouted, Canonical.postSlot, Canonical.postSuper, Canonical.toHost,
    Canonical.report]

theorem Canonical.granuleError {s : State} {g kind} (hs : Canonical s) :
    Canonical (s.granuleError g kind) := by
  unfold State.granuleError
  split <;> grind [canonical_mk, memoriesOk_self, Canonical.setTile, Canonical.report]

theorem Canonical.errorFound {s : State} {site kind} (hs : Canonical s) :
    Canonical (s.errorFound site kind) := by
  unfold State.errorFound
  split <;> grind [Canonical.granuleError, Canonical.routeFrozen]

theorem Canonical.pushTack {s : State} {p c} (hs : Canonical s) : Canonical (State.pushTack s p c) := by
  grind [State.pushTack, Canonical.setSlot, Canonical.later, Canonical.setAt]

theorem Canonical.complete {s : State} {p t c} (hs : Canonical s) : Canonical (State.complete s p t c) := by
  grind [State.complete, Canonical.setAt, Canonical.pushTack]

theorem Canonical.retireAt {s : State} {p size t} (hs : Canonical s) :
    Canonical (State.retireAt s p size t) :=
  hs.setAt.complete

theorem Canonical.blocked {s : State} {p stall} (hs : Canonical s) : Canonical (State.blocked s p stall) :=
  hs.setAt

theorem Canonical.finishPass {s : State} {core ps} (hs : Canonical s) :
    Canonical (State.finishPass s core ps) := by
  grind [State.finishPass, Canonical.passRows, Canonical.setSlot, Canonical.retireAt, Canonical.setCore,
    Canonical.setAt]

theorem Canonical.interruptPass {s : State} {slot} (hs : Canonical s) :
    Canonical (State.interruptPass s slot) := by
  grind [State.interruptPass, Canonical.finishPass, Canonical.passRows, Canonical.setCore]

theorem Canonical.haltStreams {s : State} {k} (hs : Canonical s) : Canonical (State.haltStreams s k) :=
  (hs.foldl fun _ _ h => h.setStream).relend

theorem Canonical.setEngine {s : State} {e v} (hs : Canonical s) : Canonical (s.setEngine e v) := by
  cases e <;> grind [State.setEngine, Canonical.setTile, canonical_mk, memoriesOk_self]

theorem Canonical.freeze {s : State} {k} (hs : Canonical s) : Canonical (State.freeze s k) :=
  hs.setSlot

theorem Canonical.enterHandler {s : State} {p} (hs : Canonical s) : Canonical (State.enterHandler s p) := by
  grind [State.enterHandler, Canonical.routeFrozen, Canonical.freeze, Canonical.fetchWord,
    Canonical.setSlot]

theorem Canonical.stopForTrap {s : State} {p async e} (hs : Canonical s) :
    Canonical (State.stopForTrap s p async e) := by
  grind [State.stopForTrap, Canonical.foldl, Canonical.haltStreams, Canonical.interruptPass,
    Canonical.setStream, Canonical.setSlot]

theorem Canonical.thimbleEnter {s : State} {async e result} (hs : Canonical s) :
    Canonical (State.thimbleEnter s async e result) :=
  hs.stopForTrap.setSlot.soon

theorem Canonical.thimbleFault {s : State} {e pc} (hs : Canonical s) :
    Canonical (State.thimbleFault s e pc) := by
  grind [State.thimbleFault, canonical_mk, memoriesOk_self, Canonical.soon, Canonical.thimbleEnter]

theorem Canonical.syncFault {s : State} {p e} (hs : Canonical s) : Canonical (State.syncFault s p e) := by
  grind [State.syncFault, Canonical.setAt, Canonical.thimbleFault, Canonical.routeFrozen, Canonical.freeze,
    Canonical.stopForTrap, Canonical.enterHandler, Canonical.logRouted]

theorem Canonical.deliverAsync {s : State} {k} (hs : Canonical s) : Canonical (State.deliverAsync s k) := by
  grind [State.deliverAsync, Canonical.thimbleEnter, Canonical.setSlot, Canonical.enterHandler,
    Canonical.stopForTrap]

theorem Canonical.toRunning {s : State} {k} (hs : Canonical s) : Canonical (State.toRunning s k) := by
  grind [State.toRunning, Canonical.foldl, Canonical.setSlot, Canonical.setStream, Canonical.once]

theorem Canonical.releasePend {s : State} {k} (hs : Canonical s) : Canonical (State.releasePend s k) :=
  hs.setTile

theorem Canonical.flushPush {s : State} {p} (hs : Canonical s) : Canonical (State.flushPush s p) :=
  hs.setSlot.setAt

theorem Canonical.issueX {size t} {body : State → Eff} {s : State} (hs : Canonical s)
    (hb : ∀ s, Canonical s → Canonical (body s).state) : OutCanonical (issueX size t body s) := by
  unfold Machine.issueX
  grind [Eff.state, outCanonical_next, Canonical.flushPush, Canonical.blocked, Canonical.setSlot,
    Canonical.retireAt, Canonical.setAt, Canonical.complete, Canonical.syncFault]

theorem Canonical.issue {size t} {body : State → Eff} {s : State} (hs : Canonical s)
    (hb : ∀ s, Canonical s → Canonical (body s).state) : OutCanonical (issue size t body s) :=
  hs.setMe.issueX hb

/-! ### Store buffers and caches -/

theorem Canonical.fillLine {s : State} {core a} (hs : Canonical s) : Canonical (State.fillLine s core a) :=
  hs.setAux

theorem Canonical.updateLine {s : State} {core e} (hs : Canonical s) :
    Canonical (State.updateLine s core e) :=
  hs.setAux

theorem Canonical.dropLines {s : State} {core a n} (hs : Canonical s) :
    Canonical (State.dropLines s core a n) :=
  hs.setAux

theorem Canonical.dropL1 {s : State} {core} (hs : Canonical s) : Canonical (State.dropL1 s core) :=
  hs.setAux

theorem Canonical.performEntry {s : State} {e} (hs : Canonical s) : Canonical (State.performEntry s e) := by
  grind [State.performEntry, canonical_mk, memoriesOk_self, MemoriesOk.writeBits]

theorem Canonical.drainCore {s : State} {core} (hs : Canonical s) : Canonical (State.drainCore s core) :=
  (hs.foldl fun _ _ h => h.performEntry).setAux

/-! ### FPFLAGS -/

theorem Canonical.raise {s : State} {f} (hs : Canonical s) : Canonical (State.raise s f) :=
  .ite hs hs.setMe

/-! ### Handles -/

theorem Canonical.setHandleOf {s : State} {k r h} (hs : Canonical s) :
    Canonical (State.setHandleOf s k r h) :=
  hs.setSlot.setTile

theorem Canonical.setHandle {s : State} {d h} (hs : Canonical s) : Canonical (State.setHandle s d h) :=
  hs.setHandleOf

/-! ### Memory operands -/

theorem Canonical.xlateAll {v a near} {s : State} {ranges} (hs : Canonical s) :
    Canonical (State.xlateAll v a near s ranges).2 := by
  induction ranges generalizing s <;> grind [State.xlateAll, Canonical.xlate]

theorem Canonical.postCheck {s : State} {h hidx off w} (hs : Canonical s) :
    Canonical (State.postCheck s h hidx off w).state := by
  grind [State.postCheck, Chk.state, Canonical.xlateAll, Canonical.streamFault]

theorem Canonical.checkMem {s : State} {h hidx off w} (hs : Canonical s) :
    Canonical (State.checkMem s h hidx off w).state := by
  grind [State.checkMem, Chk.state, Canonical.postCheck]

theorem Canonical.andThen {c : Chk} {k} (hs : Canonical c.state)
    (hk : ∀ segs leaf s, Canonical s → Canonical (k segs leaf s).state) :
    Canonical (c.andThen k).state := by
  cases c <;> grind [Chk.andThen, Chk.state, Eff.state]

/-! ### Reductions at memory -/

theorem Canonical.sendReduction {s : State} {core source p addr bit type rop value task va space}
    (hs : Canonical s) : Canonical (State.sendReduction s core source p addr bit type rop value task va
    space) :=
  hs.setCore.later.setTile

theorem Canonical.applyReduction {s : State} {tile r} (hs : Canonical s) :
    Canonical (State.applyReduction s tile r) := by
  grind [State.applyReduction, canonical_mk, memoriesOk_self, MemoriesOk.writeBits, Canonical.setTile,
    Canonical.route, Canonical.dropLines]

theorem Canonical.performRed {s : State} {tile i} (hs : Canonical s) :
    Canonical (State.performRed s tile i) := by
  grind [State.performRed, Canonical.applyReduction, Canonical.setTile]

@[simp] theorem Canonical.execReductionPerform {tile i} {s : State} (hs : Canonical s) :
    OutCanonical (execReductionPerform tile i s) :=
  hs.performRed

theorem Canonical.performWhere {mine} {s : State} {tile} (hs : Canonical s) :
    Canonical (State.performWhere mine s tile) :=
  hs.setTile.foldl fun _ _ h => h.applyReduction

theorem Canonical.performCore {s : State} {core} (hs : Canonical s) :
    Canonical (State.performCore s core) :=
  hs.foldl fun _ _ h => h.performWhere

theorem Canonical.settleCore {s : State} {core} (hs : Canonical s) : Canonical (State.settleCore s core) :=
  hs.drainCore.performCore

theorem Canonical.settle {s : State} (hs : Canonical s) : Canonical (State.settle s) :=
  hs.settleCore

end Sys2Proof.Claims
end

section
/-!
O58, continued: instructions of a stream, copies and the fabric.
-/
namespace Sys2Proof.Claims
open Sys2Proof.Machine

/-! ### Semaphores, fences, time -/

theorem Canonical.completeWait {s : State} {q d t v} (hs : Canonical s) :
    Canonical (State.completeWait s q d t v) := by
  grind [State.completeWait, Canonical.setSlot, Canonical.retireAt, Canonical.setAt]

theorem Canonical.wake1 {tile core sel} {s : State} {q} (hs : Canonical s) :
    Canonical (State.wake1 tile core sel s q) := by
  grind [State.wake1, Canonical.completeWait, Canonical.setAt]

theorem Canonical.wakeCopies {s : State} {e tile core sel} (hs : Canonical s) :
    Canonical (State.wakeCopies s e tile core sel) := by
  grind [State.wakeCopies, Canonical.foldl, Canonical.settleCore, Canonical.setEngine, Canonical.later]

theorem Canonical.nudge {s : State} {tile} (hs : Canonical s) : Canonical (State.nudge s tile) := by
  grind [State.nudge, Canonical.once]

theorem Canonical.passRecords {s : State} {tile core sel} (hs : Canonical s) :
    Canonical (State.passRecords s tile core sel) :=
  hs.setTile

theorem Canonical.semWake {s0 : State} {tile core sel} (hs : Canonical s0) :
    Canonical (State.semWake s0 tile core sel) := by
  grind [State.semWake, Canonical.foldl, Canonical.passRecords, Canonical.wake1, Canonical.nudge,
    Canonical.relend, Canonical.wakeCopies]

theorem Canonical.semSet {s : State} {tile core sel v} (hs : Canonical s) :
    Canonical (State.semSet s tile core sel v) :=
  hs.setSem.semWake

theorem Canonical.semAdd {s : State} {tile core sel a} (hs : Canonical s) :
    Canonical (State.semAdd s tile core sel a) :=
  hs.semSet

theorem Canonical.release {s : State} {scope} (hs : Canonical s) : Canonical (State.release s scope) :=
  .ite hs.settle hs

theorem Canonical.tkwBody {j n} {s : State} (hs : Canonical s) : Canonical (tkwBody j n s).state := by
  grind [tkwBody, Eff.state, Canonical.setMySlot]

theorem Canonical.tkpBody {j n} {s : State} (hs : Canonical s) : Canonical (tkpBody j n s).state := by
  grind [tkpBody, Eff.state, Canonical.setMySlot]

@[simp] theorem Canonical.execTkw {j n1 t} {s : State} (hs : Canonical s) :
    OutCanonical (execTkw j n1 t s) :=
  hs.issueX fun _ h => h.tkwBody

@[simp] theorem Canonical.execTkp {j n1 t} {s : State} (hs : Canonical s) :
    OutCanonical (execTkp j n1 t s) :=
  hs.issueX fun _ h => h.tkpBody

@[simp] theorem Canonical.execSemw {d a sel t} {s : State} (hs : Canonical s) :
    OutCanonical (execSemw d a sel t s) := by
  grind [execSemw, Eff.state, Canonical.issueX, Canonical.setX, Canonical.relend, Canonical.setMe]

@[simp] theorem Canonical.execSema {d a sel t} {s : State} (hs : Canonical s) :
    OutCanonical (execSema d a sel t s) := by
  grind [execSema, Eff.state, Canonical.issueX, Canonical.release, Canonical.semAdd, Canonical.setX]

@[simp] theorem Canonical.execSems {a sel t} {s : State} (hs : Canonical s) :
    OutCanonical (execSems a sel t s) := by
  grind [execSems, Eff.state, Canonical.issueX, Canonical.semSet, Canonical.release]

@[simp] theorem Canonical.execSemo {sel t} {s : State} (hs : Canonical s) :
    OutCanonical (execSemo sel t s) := by
  grind [execSemo, Eff.state, Canonical.issueX, Canonical.semWake, Canonical.setSem]

@[simp] theorem Canonical.execSemrd {d sel t} {s : State} (hs : Canonical s) :
    OutCanonical (execSemrd d sel t s) := by
  grind [execSemrd, Eff.state, Canonical.issueX, Canonical.setX]

@[simp] theorem Canonical.execSemwa {d a b f t} {s : State} (hs : Canonical s) :
    OutCanonical (execSemwa d a b f t s) := by
  grind [execSemwa, Eff.state, Canonical.issue, Canonical.setX, Canonical.relend, Canonical.setMe]

@[simp] theorem Canonical.execFence {scope t} {s : State} (hs : Canonical s) :
    OutCanonical (execFence scope t s) := by
  grind [execFence, Eff.state, Canonical.issueX]

@[simp] theorem Canonical.execRel {scope t} {s : State} (hs : Canonical s) :
    OutCanonical (execRel scope t s) :=
  hs.issueX fun _ h => h.release

@[simp] theorem Canonical.execAcq {t} {s : State} (hs : Canonical s) : OutCanonical (execAcq t s) :=
  hs.issue fun _ h => h.dropL1

theorem Canonical.dropRuns {s : State} {core rs} (hs : Canonical s) :
    Canonical (State.dropRuns s core rs) :=
  hs.foldl fun _ _ h => h.dropLines

@[simp] theorem Canonical.execAcqR {d m t} {s : State} (hs : Canonical s) :
    OutCanonical (execAcqR d m t s) :=
  hs.issueX fun _ h => h.dropRuns

@[simp] theorem Canonical.execPfenRetain {t} {s : State} (hs : Canonical s) :
    OutCanonical (execPfenRetain t s) := by
  grind [execPfenRetain, Eff.state, Canonical.issueX]

theorem Canonical.askLining {s : State} {tile core} (hs : Canonical s) :
    Canonical (State.askLining s tile core).2 := by
  grind [State.askLining, Canonical.later, Canonical.setAux]

@[simp] theorem Canonical.execPfenLining {t} {s : State} (hs : Canonical s) :
    OutCanonical (execPfenLining t s) := by
  grind [execPfenLining, Eff.state, Canonical.issueX, Canonical.askLining, Canonical.setMe]

@[simp] theorem Canonical.execLinept {d t} {s : State} (hs : Canonical s) :
    OutCanonical (execLinept d t s) :=
  hs.issueX fun _ h => h.askLining.setX

@[simp] theorem Canonical.execRdcyc {d t} {s : State} (hs : Canonical s) : OutCanonical (execRdcyc d t s) :=
  hs.issue fun _ h => h.setX

@[simp] theorem Canonical.execRdcycS {d t} {s : State} (hs : Canonical s) :
    OutCanonical (execRdcycS d t s) :=
  hs.issue fun _ h => h.setX

@[simp] theorem Canonical.execRdid {d t} {s : State} (hs : Canonical s) : OutCanonical (execRdid d t s) :=
  hs.issue fun _ h => h.setX

@[simp] theorem Canonical.execPrio {d a t} {s : State} (hs : Canonical s) :
    OutCanonical (execPrio d a t s) :=
  hs.issue fun _ h => h.setRegs.setX.relend

/-! ### Atomics -/

theorem Canonical.atomicBody {types f d m} {s : State} (hs : Canonical s) :
    Canonical (atomicBody types f d m s).state := by
  refine hs.checkMem.andThen fun segs leaf s hs => ?_
  grind [Eff.state, canonical_mk, memoriesOk_self, MemoriesOk.writeNat, Canonical.settle,
    Canonical.dropLines, Canonical.setX, Canonical.raise]

@[simp] theorem Canonical.execAadd {d m _f t} {s : State} (hs : Canonical s) :
    OutCanonical (execAadd d m _f t s) :=
  hs.issueX fun _ h => h.atomicBody

@[simp] theorem Canonical.execAmin {d m _f t} {s : State} (hs : Canonical s) :
    OutCanonical (execAmin d m _f t s) :=
  hs.issueX fun _ h => h.atomicBody

@[simp] theorem Canonical.execAmax {d m _f t} {s : State} (hs : Canonical s) :
    OutCanonical (execAmax d m _f t s) :=
  hs.issueX fun _ h => h.atomicBody

@[simp] theorem Canonical.execAminu {d m _f t} {s : State} (hs : Canonical s) :
    OutCanonical (execAminu d m _f t s) :=
  hs.issueX fun _ h => h.atomicBody

@[simp] theorem Canonical.execAmaxu {d m _f t} {s : State} (hs : Canonical s) :
    OutCanonical (execAmaxu d m _f t s) :=
  hs.issueX fun _ h => h.atomicBody

@[simp] theorem Canonical.execAand {d m _f t} {s : State} (hs : Canonical s) :
    OutCanonical (execAand d m _f t s) :=
  hs.issueX fun _ h => h.atomicBody

@[simp] theorem Canonical.execAor {d m _f t} {s : State} (hs : Canonical s) :
    OutCanonical (execAor d m _f t s) :=
  hs.issueX fun _ h => h.atomicBody

@[simp] theorem Canonical.execAxor {d m _f t} {s : State} (hs : Canonical s) :
    OutCanonical (execAxor d m _f t s) :=
  hs.issueX fun _ h => h.atomicBody

@[simp] theorem Canonical.execAxch {d m _f t} {s : State} (hs : Canonical s) :
    OutCanonical (execAxch d m _f t s) :=
  hs.issueX fun _ h => h.atomicBody

@[simp] theorem Canonical.execAcas {d m _f t} {s : State} (hs : Canonical s) :
    OutCanonical (execAcas d m _f t s) :=
  hs.issueX fun _ h => h.atomicBody

@[simp] theorem Canonical.execAfadd {d m _f t} {s : State} (hs : Canonical s) :
    OutCanonical (execAfadd d m _f t s) :=
  hs.issueX fun _ h => h.atomicBody

@[simp] theorem Canonical.execAinc {d m _f t} {s : State} (hs : Canonical s) :
    OutCanonical (execAinc d m _f t s) :=
  hs.issueX fun _ h => h.atomicBody

theorem Canonical.reductionBody {types rop d m} {s : State} (hs : Canonical s) :
    Canonical (reductionBody types rop d m s).state :=
  hs.checkMem.andThen fun _ _ _ hs => hs.drainCore.dropLines.sendReduction

@[simp] theorem Canonical.execRedadd {d m _f t} {s : State} (hs : Canonical s) :
    OutCanonical (execRedadd d m _f t s) :=
  hs.issueX fun _ h => h.reductionBody

@[simp] theorem Canonical.execRedfadd {d m _f t} {s : State} (hs : Canonical s) :
    OutCanonical (execRedfadd d m _f t s) :=
  hs.issueX fun _ h => h.reductionBody

@[simp] theorem Canonical.execRedmin {d m _f t} {s : State} (hs : Canonical s) :
    OutCanonical (execRedmin d m _f t s) :=
  hs.issueX fun _ h => h.reductionBody

@[simp] theorem Canonical.execRedmax {d m _f t} {s : State} (hs : Canonical s) :
    OutCanonical (execRedmax d m _f t s) :=
  hs.issueX fun _ h => h.reductionBody

/-! ### Bobbins -/

theorem Canonical.setBobbin {s : State} {core b v} (hs : Canonical s) :
    Canonical (State.setBobbin s core b v) :=
  hs.setCore

@[simp] theorem Canonical.execBbclm {d bob nw t} {s : State} (hs : Canonical s) :
    OutCanonical (execBbclm d bob nw t s) := by
  grind [execBbclm, Eff.state, Canonical.issue, Canonical.setX, Canonical.setBobbin]

@[simp] theorem Canonical.execBbwe {d bob nw t} {s : State} (hs : Canonical s) :
    OutCanonical (execBbwe d bob nw t s) := by
  grind [execBbwe, Eff.state, Canonical.issue, Canonical.setX]

@[simp] theorem Canonical.execBbpub {bob b t} {s : State} (hs : Canonical s) :
    OutCanonical (execBbpub bob b t s) := by
  grind [execBbpub, Eff.state, Canonical.issue, Canonical.setBobbin]

@[simp] theorem Canonical.execBbwf {d bob b nw t} {s : State} (hs : Canonical s) :
    OutCanonical (execBbwf d bob b nw t s) := by
  grind [execBbwf, Eff.state, Canonical.issue, Canonical.setX]

@[simp] theorem Canonical.execBbrel {bob b t} {s : State} (hs : Canonical s) :
    OutCanonical (execBbrel bob b t s) := by
  grind [execBbrel, Eff.state, Canonical.issue, Canonical.setBobbin]

@[simp] theorem Canonical.execBbinit {bob b t} {s : State} (hs : Canonical s) :
    OutCanonical (execBbinit bob b t s) := by
  grind [execBbinit, Eff.state, Canonical.issue, Canonical.setBobbin]

@[simp] theorem Canonical.execBbqry {d bob f t} {s : State} (hs : Canonical s) :
    OutCanonical (execBbqry d bob f t s) :=
  hs.issue fun _ h => h.setX

/-! ### Blocks and control transfer -/

@[simp] theorem Canonical.execNop {t} {s : State} (hs : Canonical s) : OutCanonical (execNop t s) :=
  hs.issue fun _ h => h

@[simp] theorem Canonical.execHint {_n _imm t} {s : State} (hs : Canonical s) :
    OutCanonical (execHint _n _imm t s) :=
  hs.issue fun _ h => h

theorem Canonical.enterBlock {runs len pp wp} {s : State} (hs : Canonical s) :
    OutCanonical (enterBlock runs len pp wp s) := by
  grind [enterBlock, outCanonical_next, Canonical.setMe]

theorem OutCanonical.afterPush {k : State → Out} {s : State} (hs : Canonical s)
    (hk : ∀ s, Canonical s → OutCanonical (k s)) : OutCanonical (afterPush k s) := by
  grind [Machine.afterPush, outCanonical_next, Canonical.flushPush, Canonical.blocked]

@[simp] theorem Canonical.execBlk {rep len pp wp} {s : State} (hs : Canonical s) :
    OutCanonical (execBlk rep len pp wp s) := by
  grind [execBlk, Eff.state, OutCanonical.afterPush, Canonical.enterBlock]

@[simp] theorem Canonical.execBlkx {creg len pp wp} {s : State} (hs : Canonical s) :
    OutCanonical (execBlkx creg len pp wp s) := by
  grind [execBlkx, Eff.state, OutCanonical.afterPush, Canonical.enterBlock]

@[simp] theorem Canonical.execExt {imm} {s : State} (hs : Canonical s) : OutCanonical (execExt imm s) := by
  grind [execExt, Eff.state, outCanonical_next, OutCanonical.afterPush, Canonical.setMe]

theorem Canonical.land {target} {k : State → State} {s : State} (hs : Canonical s)
    (hk : ∀ s, Canonical s → Canonical (k s)) : Canonical (land target k s).state := by
  grind [Machine.land, Eff.state, Canonical.fetchWord, Canonical.streamFault]

theorem Canonical.landReg {target} {s : State} (hs : Canonical s) : Canonical (landReg target s).state := by
  grind [landReg, Eff.state, Canonical.land]

@[simp] theorem Canonical.execBr {off t} {s : State} (hs : Canonical s) :
    OutCanonical (execBr off t s) := by
  grind [execBr, Eff.state, Canonical.issueX, Canonical.land]

@[simp] theorem Canonical.execBz {a off t} {s : State} (hs : Canonical s) :
    OutCanonical (execBz a off t s) := by
  grind [execBz, Eff.state, Canonical.issueX, Canonical.land]

@[simp] theorem Canonical.execBnz {a off t} {s : State} (hs : Canonical s) :
    OutCanonical (execBnz a off t s) := by
  grind [execBnz, Eff.state, Canonical.issueX, Canonical.land]

@[simp] theorem Canonical.execBrx {a t} {s : State} (hs : Canonical s) : OutCanonical (execBrx a t s) :=
  hs.issue fun _ h => h.landReg

@[simp] theorem Canonical.execCall {off t} {s : State} (hs : Canonical s) :
    OutCanonical (execCall off t s) := by
  grind [execCall, Eff.state, Canonical.issueX, Canonical.land, Canonical.setX]

@[simp] theorem Canonical.execRetB {t} {s : State} (hs : Canonical s) : OutCanonical (execRetB t s) :=
  hs.issue fun _ h => h.landReg

theorem Canonical.noteRetired {s : State} {t} (hs : Canonical s) : Canonical (State.noteRetired s t) := by
  grind [State.noteRetired, Canonical.report, Canonical.setTile]

theorem Canonical.writeStatus {s : State} {o status} (hs : Canonical s) :
    Canonical (State.writeStatus s o status) := by
  grind [State.writeStatus, canonical_mk, memoriesOk_self, MemoriesOk.writeNat]

theorem Canonical.closeCopy {s : State} {e o status} (hs : Canonical s) :
    Canonical (State.closeCopy s e o status) := by
  grind [State.closeCopy, Canonical.setEngine, Canonical.writeStatus, Canonical.semAdd]

theorem Canonical.closeFaulted {s : State} {k f} (hs : Canonical s) :
    Canonical (State.closeFaulted s k f) := by
  grind [State.closeFaulted, Canonical.closeCopy, Canonical.routeTask]

theorem Canonical.dropTask {s : State} {k} (hs : Canonical s) : Canonical (State.dropTask s k) := by
  grind [State.dropTask, canonical_mk, memoriesOk_self, Canonical.foldl, Canonical.releasePend,
    Canonical.setSlot, Canonical.postSuper, Canonical.nudge, Canonical.closeFaulted]

theorem Canonical.endProcedure {s : State} {result} (hs : Canonical s) :
    Canonical (State.endProcedure s result) :=
  canonical_mk.2 ((memoriesOk_self _).2 hs.setStream.dropTask)

theorem Canonical.retireTask {s : State} {k} (hs : Canonical s) : Canonical (State.retireTask s k) := by
  grind [State.retireTask, Canonical.foldl, Canonical.setStream, Canonical.endProcedure, Canonical.dropTask,
    Canonical.semAdd, Canonical.settleCore, Canonical.noteRetired]

theorem Canonical.rendDone {s : State} {q} (hs : Canonical s) : Canonical (State.rendDone s q) := by
  grind [State.rendDone, Canonical.setSlot, Canonical.retireAt]

theorem Canonical.formRend {s : State} {k f mask id} (hs : Canonical s) :
    Canonical (State.formRend s k f mask id) :=
  hs.foldl fun _ _ h => h.rendDone

theorem Canonical.rendAfterEnd {s : State} {k} (hs : Canonical s) : Canonical (State.rendAfterEnd s k) := by
  grind [State.rendAfterEnd, Canonical.foldl, Canonical.rendDone, Canonical.formRend]

@[simp] theorem Canonical.execRend {mask id t} {s : State} (hs : Canonical s) :
    OutCanonical (execRend mask id t s) := by
  grind [execRend, Eff.state, Canonical.issueX, Canonical.formRend, Canonical.setMe]

theorem Canonical.endStream {s : State} (hs : Canonical s) : Canonical (endStream s) := by
  grind [endStream, Canonical.foldl, Canonical.setStream, Canonical.setMe]

theorem OutCanonical.afterEnd {k} {o : Out} (ho : OutCanonical o) : OutCanonical (afterEnd k o) := by
  cases o <;> grind [Machine.afterEnd, OutCanonical, Canonical.retireTask, Canonical.rendAfterEnd]

@[simp] theorem Canonical.execEndS {t} {s : State} (hs : Canonical s) : OutCanonical (execEndS t s) := by
  grind [execEndS, Eff.state, OutCanonical.afterEnd, Canonical.issue, Canonical.endStream]

@[simp] theorem Canonical.execYield {t} {s : State} (hs : Canonical s) : OutCanonical (execYield t s) :=
  hs.issue fun _ h => h

theorem Canonical.waitcBody {stitch d n t} {s : State} (hs : Canonical s) :
    Canonical (waitcBody stitch d n t s).state := by
  grind [waitcBody, Eff.state, Canonical.setMe]

@[simp] theorem Canonical.execWaitc {d n t} {s : State} (hs : Canonical s) :
    OutCanonical (execWaitc d n t s) :=
  hs.issueX fun _ h => h.waitcBody

@[simp] theorem Canonical.execWaitcS {d n t} {s : State} (hs : Canonical s) :
    OutCanonical (execWaitcS d n t s) :=
  hs.issueX fun _ h => h.waitcBody

theorem Canonical.waitcReached {s : State} {q} (hs : Canonical s) : Canonical (State.waitcReached s q) := by
  grind [State.waitcReached, Canonical.setSlot, Canonical.retireAt]

@[simp] theorem Canonical.execWaitcTargetReached {p} {s : State} (hs : Canonical s) :
    OutCanonical (execWaitcTargetReached p s) :=
  hs.waitcReached

theorem Canonical.softTrap {code d imm t} {s : State} (hs : Canonical s) :
    OutCanonical (softTrap code d imm t s) := by
  grind [softTrap, canonical_mk, memoriesOk_self, Eff.state, outCanonical_next, Canonical.issueX,
    Canonical.deliverAsync, Canonical.setSlot, Canonical.logRouted, Canonical.route]

@[simp] theorem Canonical.execTrap {d imm t} {s : State} (hs : Canonical s) :
    OutCanonical (execTrap d imm t s) :=
  hs.softTrap

@[simp] theorem Canonical.execSysc {d imm t} {s : State} (hs : Canonical s) :
    OutCanonical (execSysc d imm t s) :=
  hs.softTrap

/-! ### The lining's blocks and their writer -/

theorem Canonical.awaitWriter {s : State} {p d} (hs : Canonical s) : Canonical (State.awaitWriter s p d) :=
  hs.once.again

theorem Canonical.writeCaptured {s : State} {k b} (hs : Canonical s) : Canonical (s.writeCaptured k b) := by
  have hl := hs.lining (k := k)
  unfold State.writeCaptured
  dsimp only
  split_ifs
  · exact (hs.setLining fun h => h.withWork h.work).setTileLining fun h =>
      h.withWork (Memory.wf_spliceBlock (Memory.wf_getD hl.shared) h.work b)
  · exact hs.setLining fun h => h.withWork (Memory.wf_spliceBlock (Memory.wf_getD hl.drain) hl.work b)

theorem Canonical.writerDrain {s : State} {tile core n} (hs : Canonical s) :
    Canonical (s.writerDrain tile core n) := by
  have spliced {s : State} (h : Canonical s) (ws bs) {m : Memory} (hm : Memory.wf m) :
    Memory.wf (List.foldl (spliceBlock (s.mem.within ws)) m bs) :=
    Memory.wf_foldl_spliceBlock (Memory.wf_within h.mem ws) bs hm
  unfold State.writerDrain
  dsimp only
  split_ifs
  · exact hs
  · exact hs.foldl fun s b h => h.writeCaptured
  · exact hs.setLining fun h => h.withWork (spliced hs _ _ h.work)
  · refine Canonical.setTileLining ?h fun h => h.withWork (spliced ?h _ _ h.work)
    exact hs.setLining fun h => h.withWork (spliced hs _ _ h.work)

theorem Canonical.writeBlock {s : State} {b} (hs : Canonical s) : Canonical (s.writeBlock b) := by
  unfold State.writeBlock
  cases (blockCores b).head? <;> grind
    [Option.elim, Canonical.writerDrain, Canonical.writeCaptured, Canonical.foldl]

theorem Canonical.unstall {s : State} {segs} (hs : Canonical s) : Canonical (s.unstall segs) := by
  unfold State.unstall
  cases (segBlocks segs).find? s.blockStalls <;> grind [Option.elim, Canonical.writeBlock]

@[simp] theorem Canonical.execLiningWriterDrain {tile core n} {s : State} (hs : Canonical s) :
    OutCanonical (execLiningWriterDrain tile core n s) :=
  hs.writerDrain

/-! ### Copies -/

theorem Canonical.farLoc {s : State} {tile ridx a near fbit w} (hs : Canonical s) :
    Canonical (State.farLoc s tile ridx a near fbit w).2 := by
  grind [State.farLoc, Canonical.xlate]

theorem Canonical.locate {s : State} {p h hidx a w pos} (hs : Canonical s) :
    Canonical (State.locate s p h hidx a w pos).2 := by
  grind [State.locate, Canonical.farLoc, Canonical.xlate]

theorem Canonical.putOp {s : State} {e o} (hs : Canonical s) : Canonical (State.putOp s e o) :=
  hs.setEngine

theorem Canonical.engineFault {e o h hidx wr c va k} {s : State} (hs : Canonical s) :
    Canonical (engineFault e o h hidx wr c va k s).state := by
  grind [engineFault, Iter.state, Canonical.pageFault]

theorem Canonical.readOne {e o} {s : State} (hs : Canonical s) : Canonical (readOne e o s).state := by
  grind [readOne, Canonical.foldl, Iter.state, Canonical.locate, Canonical.engineFault]

theorem Canonical.coverPoison {o segs shift w} {s : State} (hs : Canonical s) :
    Canonical (coverPoison o segs shift w s).2 := by
  cases segs with
  | nil => exact hs
  | cons e r => exact Canonical.foldl_snd hs (by grind [canonical_mk, memoriesOk_self])

theorem Canonical.dropFar {s : State} {tile code va space} (hs : Canonical s) :
    Canonical (State.dropFar s tile code va space) :=
  hs.setTile.route

theorem Canonical.writeOne {e o} {s : State} (hs : Canonical s) : Canonical (writeOne e o s).state := by
  grind [writeOne, canonical_mk, memoriesOk_self, MemoriesOk.putBits, Iter.state, Canonical.locate,
    Canonical.dropFar, Canonical.engineFault, Canonical.unstall, Canonical.dropLines,
    Canonical.applyReduction, Canonical.coverPoison]

theorem Canonical.runIters {e n o} {s : State} (hs : Canonical s) : Canonical (runIters e n o s).state := by
  induction n generalizing o s <;> grind
    [Machine.runIters, Iter.state, Canonical.readOne, Canonical.writeOne]

theorem Canonical.readAhead {e n o} {s : State} (hs : Canonical s) :
    Canonical (readAhead e n o s).state := by
  induction n generalizing o s <;> grind [Machine.readAhead, Iter.state, Canonical.readOne]

theorem Canonical.deliverNext {s : State} {k} (hs : Canonical s) : Canonical (State.deliverNext s k) := by
  grind [State.deliverNext, Canonical.deliverAsync, Canonical.setSlot, Canonical.stopForTrap,
    Canonical.thimbleEnter, Canonical.enterHandler, Canonical.logRouted, Canonical.routeFrozen,
    Canonical.freeze]

theorem Canonical.pauseCopy {s : State} {e o ev} (hs : Canonical s) :
    Canonical (State.pauseCopy s e o ev) := by
  grind [State.pauseCopy, Canonical.putOp, Canonical.deliverNext, Canonical.setSlot, Canonical.postTask,
    Canonical.routeTask, Canonical.closeCopy]

theorem Canonical.publishCopy {s : State} {o} (hs : Canonical s) : Canonical (State.publishCopy s o).2 := by
  grind [State.publishCopy, Canonical.setBobbin]

theorem Canonical.freeSource {s : State} {e o} (hs : Canonical s) : Canonical (State.freeSource s e o) := by
  grind [State.freeSource, Canonical.putOp, Canonical.semAdd]

theorem Canonical.iterSettle {i : Iter} {e k} (hs : Canonical i.state)
    (hk : ∀ o s, Canonical s → Canonical (k o s)) : Canonical (i.settle e k) := by
  cases i <;> grind [Iter.settle, Iter.state, Canonical.putOp, Canonical.pauseCopy, Canonical.again]

theorem Canonical.claimTarget {s : State} {o} (hs : Canonical s) :
    ∀ r, State.claimTarget s o = some r → Canonical r.2 := by
  grind [State.claimTarget, Canonical.setBobbin]

theorem Canonical.copyStart {s : State} {e id n} (hs : Canonical s) : Canonical (s.copyStart e id n) := by
  grind [State.copyStart, Canonical.iterSettle, Canonical.again, → Canonical.claimTarget,
    Canonical.runIters, Canonical.later]

theorem Canonical.copySourceFree {s : State} {e id} (hs : Canonical s) :
    Canonical (s.copySourceFree e id) := by
  grind [State.copySourceFree, Canonical.iterSettle, Canonical.again, Canonical.readAhead,
    Canonical.freeSource]

theorem Canonical.copyComplete {s : State} {e id} (hs : Canonical s) : Canonical (s.copyComplete e id) := by
  grind [State.copyComplete, Canonical.iterSettle, Canonical.again, Canonical.runIters,
    Canonical.publishCopy, Canonical.closeCopy]

theorem Canonical.copyFault {s : State} {e id} (hs : Canonical s) : Canonical (s.copyFault e id) := by
  grind [State.copyFault, Iter.state, Canonical.runIters, Canonical.pauseCopy]

@[simp] theorem Canonical.execCopyStart {e id n} {s : State} (hs : Canonical s) :
    OutCanonical (execCopyStart e id n s) :=
  hs.copyStart

@[simp] theorem Canonical.execCopySourceFree {e id} {s : State} (hs : Canonical s) :
    OutCanonical (execCopySourceFree e id s) :=
  hs.copySourceFree

@[simp] theorem Canonical.execCopyComplete {e id} {s : State} (hs : Canonical s) :
    OutCanonical (execCopyComplete e id s) :=
  hs.copyComplete

@[simp] theorem Canonical.execCopyFault {e id} {s : State} (hs : Canonical s) :
    OutCanonical (execCopyFault e id s) :=
  hs.copyFault

theorem Canonical.copyDirective {s : State} {k} (hs : Canonical s) :
    Canonical (State.copyDirective s k) := by
  grind [State.copyDirective, Canonical.setSlot, Canonical.later, Canonical.putOp, Canonical.closeCopy]

theorem Canonical.signBy {s : State} {p sel} (hs : Canonical s) : Canonical (State.signBy s p sel) :=
  hs.setSem.relend

theorem Canonical.acceptCopy {s : State} {e o} (hs : Canonical s) : Canonical (State.acceptCopy s e o) := by
  grind [State.acceptCopy, canonical_mk, memoriesOk_self, MemoriesOk.writeNat, Canonical.settle,
    Canonical.setEngine, Canonical.signBy, Canonical.freeSource, Canonical.later]

theorem Canonical.withPattern {m k} {s : State} (hs : Canonical s)
    (hk : ∀ p a s, Canonical s → Canonical (k p a s).state) : Canonical (withPattern m k s).state :=
  hs.checkMem.andThen fun _ _ _ hs => hk _ _ _ hs

theorem Canonical.acceptBody {a tile kind strict pat recOff arg armed extra} {s : State}
    (hs : Canonical s) : Canonical (acceptBody a tile kind strict pat recOff arg armed extra s).state := by
  grind [acceptBody, Eff.state, Canonical.settle, Canonical.acceptCopy]

theorem Canonical.roomIn {tile k} {s : State} (hs : Canonical s)
    (hk : ∀ s, Canonical s → Canonical (k s).state) : Canonical (roomIn tile k s).state := by
  grind [Machine.roomIn, Eff.state]

@[simp] theorem Canonical.execCpy {m tile t} {s : State} (hs : Canonical s) :
    OutCanonical (execCpy m tile t s) := by
  grind [execCpy, Eff.state, Canonical.issueX, Canonical.roomIn, Canonical.withPattern,
    Canonical.acceptBody]

@[simp] theorem Canonical.execCpyx {d m tile t} {s : State} (hs : Canonical s) :
    OutCanonical (execCpyx d m tile t s) := by
  grind [execCpyx, Eff.state, Canonical.issueX, Canonical.roomIn, Canonical.withPattern,
    Canonical.acceptBody]

@[simp] theorem Canonical.execCpyq {d a b tile t} {s : State} (hs : Canonical s) :
    OutCanonical (execCpyq d a b tile t s) := by
  grind [execCpyq, Eff.state, Canonical.issue, Canonical.roomIn, Canonical.acceptBody]

@[simp] theorem Canonical.execGath {d m tile t} {s : State} (hs : Canonical s) :
    OutCanonical (execGath d m tile t s) := by
  grind [execGath, Eff.state, Canonical.issueX, Canonical.roomIn, Canonical.withPattern,
    Canonical.acceptBody]

@[simp] theorem Canonical.execScat {d m tile t} {s : State} (hs : Canonical s) :
    OutCanonical (execScat d m tile t s) := by
  grind [execScat, Eff.state, Canonical.issueX, Canonical.roomIn, Canonical.withPattern,
    Canonical.acceptBody]

@[simp] theorem Canonical.execFill {d m tile t} {s : State} (hs : Canonical s) :
    OutCanonical (execFill d m tile t s) := by
  grind [execFill, Eff.state, Canonical.issueX, Canonical.roomIn, Canonical.withPattern,
    Canonical.acceptBody]

@[simp] theorem Canonical.execCpyw {d m tile t} {s : State} (hs : Canonical s) :
    OutCanonical (execCpyw d m tile t s) := by
  grind [execCpyw, Eff.state, Canonical.issueX, Canonical.roomIn, Canonical.withPattern,
    Canonical.acceptBody, Canonical.signBy]

/-! ### Circuits and messages -/

theorem Canonical.setCirc {s : State} {c v} (hs : Canonical s) : Canonical (State.setCirc s c v) :=
  canonical_mk.2 ((memoriesOk_self _).2 hs)

theorem Canonical.onCircuit {c ok k} {s : State} (hs : Canonical s)
    (hk : ∀ s, Canonical s → Canonical (k s).state) : Canonical (onCircuit c ok k s).state := by
  grind [Machine.onCircuit, Eff.state]

theorem Canonical.raiseAt {s0 : State} {tile e} (hs : Canonical s0) :
    Canonical (State.raiseAt s0 tile e) := by
  grind [State.raiseAt, canonical_mk, memoriesOk_self, Canonical.logRouted, Canonical.postSuper,
    Canonical.report]

theorem Canonical.trip {s : State} {sensor} (hs : Canonical s) : Canonical (State.trip s sensor) :=
  (canonical_mk.2 ((memoriesOk_self _).2 hs)).raiseAt

theorem Canonical.addTransfer {s : State} {c t} (hs : Canonical s) : Canonical (State.addTransfer s c t) :=
  hs.setCirc

theorem Canonical.endFabric {s : State} {c tile id st done} (hs : Canonical s) :
    Canonical (State.endFabric s c tile id st done) := by
  grind [State.endFabric, Canonical.route, Canonical.closeCopy]

theorem Canonical.endTransfer {s : State} {c st t} (hs : Canonical s) :
    Canonical (State.endTransfer s c st t) := by
  grind [State.endTransfer, Canonical.endFabric, Canonical.route, Canonical.once]

theorem Canonical.endTransfers {s : State} {c late} (hs : Canonical s) :
    Canonical (State.endTransfers s c late) := by
  grind [State.endTransfers, Canonical.foldl, Canonical.endTransfer, Canonical.setCirc, Canonical.route]

theorem Canonical.freePorts {s : State} {c} (hs : Canonical s) : Canonical (State.freePorts s c) :=
  canonical_mk.2 ((memoriesOk_self _).2 hs)

theorem Canonical.failCircuit {s : State} {c cause} (hs : Canonical s) :
    Canonical (State.failCircuit s c cause) := by
  grind [State.failCircuit, Canonical.endTransfers, Canonical.freePorts, Canonical.setCirc,
    Canonical.raiseAt]

theorem Canonical.breakCircuit {s : State} {c} (hs : Canonical s) : Canonical (State.breakCircuit s c) := by
  grind [State.breakCircuit, Canonical.endTransfers, Canonical.setCirc]

theorem Canonical.overrun {s : State} {c late} (hs : Canonical s) : Canonical (State.overrun s c late) :=
  hs.setCirc.endTransfers

theorem Canonical.breakDone {s : State} {c} (hs : Canonical s) : Canonical (State.breakDone s c) := by
  grind [State.breakDone, Canonical.freePorts, Canonical.setCirc]

@[simp] theorem Canonical.execSendM {a b t} {s : State} (hs : Canonical s) :
    OutCanonical (execSendM a b t s) := by
  grind [execSendM, Eff.state, Canonical.issue, Canonical.onCircuit, Canonical.setCirc,
    Canonical.addTransfer]

@[simp] theorem Canonical.execFsig {a b t} {s : State} (hs : Canonical s) :
    OutCanonical (execFsig a b t s) := by
  grind [execFsig, Eff.state, Canonical.issue, Canonical.onCircuit, Canonical.addTransfer]

theorem Canonical.farCover {s : State} {tile source segs shift w} (hs : Canonical s) :
    Canonical (s.farCover tile source segs shift w) := by
  cases segs with
  | nil => exact hs
  | cons e r => exact Canonical.foldl hs (by grind [canonical_mk, memoriesOk_self, Canonical.setTile])

theorem Canonical.farArrive {s : State} {tile f task place sent} (hs : Canonical s) :
    ∀ r, State.farArrive s tile f task place sent = some r → Canonical r.1 := by
  grind [State.farArrive, canonical_mk, memoriesOk_self, MemoriesOk.putBits, Canonical.farLoc,
    Canonical.dropFar, Canonical.applyReduction, Canonical.farCover]

theorem Canonical.wakeShared {f} {s : State} {tile} (hs : Canonical s) :
    Canonical (State.wakeShared f s tile) := by
  grind [State.wakeShared, Canonical.farLoc, Canonical.unstall]

theorem Canonical.behind {s : State} {d} (hs : Canonical s) : Canonical (State.behind s d) :=
  canonical_mk.2 ((memoriesOk_self _).2 hs)

@[simp] theorem Canonical.execFabricWriteArrival {tile w} {s : State} (hs : Canonical s) :
    OutCanonical (execFabricWriteArrival tile w s) := by
  grind [execFabricWriteArrival, outCanonical_next, → Canonical.farArrive, Canonical.behind,
    Canonical.wakeShared]

theorem Canonical.holdPages {p h hidx w ps t} {s : State} (hs : Canonical s) :
    Canonical (State.holdPages p h hidx w ps t s).2 := by
  induction ps generalizing s t <;> grind [State.holdPages, Canonical.xlate]

theorem Canonical.fabricBody {a kind pat recOff} {s : State} (hs : Canonical s) :
    Canonical (fabricBody a kind pat recOff s).state := by
  grind [fabricBody, Eff.state, Canonical.holdPages, Canonical.streamFault, Canonical.addTransfer,
    Canonical.acceptCopy]

@[simp] theorem Canonical.execFcpy {m t} {s : State} (hs : Canonical s) :
    OutCanonical (execFcpy m t s) := by
  grind [execFcpy, Eff.state, Canonical.issueX, Canonical.roomIn, Canonical.withPattern,
    Canonical.fabricBody]

@[simp] theorem Canonical.execFred {m t} {s : State} (hs : Canonical s) :
    OutCanonical (execFred m t s) := by
  grind [execFred, Eff.state, Canonical.issueX, Canonical.roomIn, Canonical.withPattern,
    Canonical.fabricBody]

theorem Canonical.fabricIter {s : State} {c tile o r} (hs : Canonical s)
    (hr : s.fabricIter c tile o = some r) : Canonical r.2 := by
  unfold State.fabricIter at hr
  dsimp only at hr
  split at hr
  · cases hr
  · next u sent h1 =>
    obtain rfl := Option.some.inj hr
    refine foldl_bind_some (P := fun q => Canonical q.1) (fun q t r h hr => ?_) ?_ h1
    · exact h.farArrive r hr
    · exact hs

theorem Canonical.fabricRun {c tile n o} {s : State} (hs : Canonical s) :
    Canonical (State.fabricRun c tile n o s).2 := by
  induction n generalizing s o <;> grind [State.fabricRun, → Canonical.fabricIter]

theorem Canonical.fsigAt {s : State} {tile core sel v} (hs : Canonical s) :
    Canonical (State.fsigAt s tile core sel v) :=
  hs.semAdd

@[simp] theorem Canonical.execFsigArrival {tile core sel addend} {s : State} (hs : Canonical s) :
    OutCanonical (execFsigArrival tile core sel addend s) := by
  grind [execFsigArrival, outCanonical_next, Canonical.fsigAt, Canonical.behind]

theorem Canonical.putTransfer {s : State} {c i t} (hs : Canonical s) :
    Canonical (State.putTransfer s c i t) :=
  hs.setCirc

theorem Canonical.arriveMessage {s : State} {c m} (hs : Canonical s) :
    Canonical (State.arriveMessage s c m) :=
  hs.setCirc.once

/-! ### The collective engine -/

theorem Canonical.setColl {s : State} {tile g} (hs : Canonical s) : Canonical (State.setColl s tile g) :=
  hs.setTile

theorem Canonical.putColl {s : State} {tile o} (hs : Canonical s) : Canonical (State.putColl s tile o) :=
  hs.setColl

theorem Canonical.elemRun {s : State} {p h hidx w a pos n} (hs : Canonical s) :
    Canonical (State.elemRun s p h hidx w a pos n).2 := by
  grind [State.elemRun, Canonical.xlate]

theorem Canonical.readElems {s : State} {p h hidx w pos n r} (hs : Canonical s)
    (hr : s.readElems p h hidx w pos n = some r) : Canonical r.2 := by
  grind [State.readElems, canonical_mk, memoriesOk_self, Canonical.elemRun]

theorem Canonical.contribution {s : State} {o c r} (hs : Canonical s) (hr : s.contribution o c = some r) :
    Canonical r.2 := by
  unfold State.contribution at hr
  split at hr <;> grind [Option.map_eq_some_iff, → Canonical.readElems]

theorem Canonical.heldChunk {s : State} {o c h r} (hs : Canonical s) (hr : s.heldChunk o c h = some r) :
    Canonical r.2.2 := by
  grind [State.heldChunk, Option.map_eq_some_iff, → Canonical.contribution]

theorem Canonical.absorb {o k fuel h} {s : State} {r} (hs : Canonical s)
    (hr : State.absorb o k fuel h s = some r) : Canonical r.2 := by
  induction fuel generalizing s h <;> grind [State.absorb, → Canonical.heldChunk, Option.bind_eq_some_iff]

theorem Canonical.writeChunk {s : State} {o c v} (hs : Canonical s) :
    Canonical (State.writeChunk s o c v).2 := by
  grind [State.writeChunk, canonical_mk, memoriesOk_self, MemoriesOk.writeSegs, Canonical.elemRun,
    Canonical.unstall]

theorem Canonical.finishColl {s : State} {tile o} (hs : Canonical s) :
    Canonical (State.finishColl s tile o) := by
  grind [State.finishColl, canonical_mk, memoriesOk_self, MemoriesOk.writeNat, MemoriesOk.filter,
    Canonical.setColl, Canonical.setTile, Canonical.semAdd]

theorem Canonical.abortOthers {s : State} {tile plan inst reason} (hs : Canonical s) :
    Canonical (State.abortOthers s tile plan inst reason) := by
  grind [State.abortOthers, Canonical.foldl, Canonical.once]

theorem Canonical.abortColl {s : State} {tile ticket reason} (hs : Canonical s) :
    Canonical (State.abortColl s tile ticket reason) := by
  grind [State.abortColl, canonical_mk, memoriesOk_self, MemoriesOk.writeBytes, MemoriesOk.writeNat,
    Canonical.again, Canonical.setColl, Canonical.semAdd, Canonical.abortOthers, Canonical.route]

@[simp] theorem Canonical.execCollectiveAbort {tile ticket reason} {s : State} (hs : Canonical s) :
    OutCanonical (execCollectiveAbort tile ticket reason s) :=
  hs.abortColl

theorem Canonical.bindColl {s : State} {tile plan inst} (hs : Canonical s) :
    Canonical (State.bindColl s tile plan inst).2 := by
  grind [State.bindColl, Canonical.setColl, Canonical.putColl]

theorem Canonical.missed {s : State} {tile plan inst} (hs : Canonical s) :
    Canonical (State.missed s tile plan inst) :=
  hs.logRouted.postSuper.abortOthers

theorem Canonical.sendChunk {s : State} {c tile o part k} (hs : Canonical s) :
    Canonical (State.sendChunk s c tile o part k) := by
  grind [State.sendChunk, Canonical.addTransfer, → Canonical.heldChunk, Canonical.once]

theorem Canonical.fillSends {s : State} {tile o k} (hs : Canonical s) :
    Canonical (State.fillSends s tile o k) :=
  canonical_mk.2 ((memoriesOk_self _).2 hs)

theorem Canonical.gave {s : State} {tile ticket k} (hs : Canonical s) :
    Canonical (State.gave s tile ticket k) := by
  grind [State.gave, Canonical.putColl]

theorem Canonical.stepDone {s : State} {tile ticket} (hs : Canonical s) :
    Canonical (State.stepDone s tile ticket) := by
  grind [State.stepDone, Canonical.setColl, Canonical.once]

theorem Canonical.chunkStep {s : State} {c plan step} (hs : Canonical s) :
    Canonical (State.chunkStep s c plan step) := by
  grind [State.chunkStep, Canonical.foldl, Canonical.setColl, Canonical.bindColl, Canonical.missed,
    Canonical.once, Canonical.stepDone, Canonical.sendChunk]

theorem Canonical.stage {s : State} {o k part v r} (hs : Canonical s) (hr : s.stage o k part v = some r) :
    Canonical r.2 := by
  cases part <;> grind [State.stage, → Canonical.absorb]

theorem Canonical.takeChunk {s : State} {tile o k part v} (hs : Canonical s) :
    ∀ t, State.takeChunk s tile o k part v = some t → Canonical t := by
  grind [State.takeChunk, → Canonical.stage, Canonical.once, Canonical.writeChunk, Canonical.fillSends,
    Canonical.putColl]

theorem Canonical.wakeWriter {k} {s : State} {o} (hs : Canonical s) :
    Canonical (State.wakeWriter k s o) := by
  grind [State.wakeWriter, Canonical.once, Canonical.writeChunk]

theorem Canonical.chunkIn {s : State} {tile sig plan inst k part v} (hs : Canonical s) :
    ∀ t, State.chunkIn s tile sig plan inst k part v = some t → Canonical t := by
  grind [State.chunkIn, Canonical.bindColl, Canonical.missed, Canonical.once, → Canonical.takeChunk]

@[simp] theorem Canonical.execChunkArrival {tile ticket chunk part data} {s : State} (hs : Canonical s) :
    OutCanonical (execChunkArrival tile ticket chunk part data s) := by
  grind [Machine.execChunkArrival, outCanonical_next, Canonical.getD, Canonical.behind, Canonical.bindColl,
    → Canonical.takeChunk, Canonical.wakeWriter]

theorem Canonical.collAlone {s : State} {o r} (hs : Canonical s) (hr : s.collAlone o = some r) :
    Canonical r :=
  foldl_bind_some (P := Canonical) (fun s k r h hr =>
    by grind [→ Canonical.contribution, → Canonical.takeChunk, Canonical.once]) hs hr

theorem Canonical.collComplete {s : State} {tile ticket} (hs : Canonical s) :
    Canonical (s.collComplete tile ticket) := by
  grind [State.collComplete, Canonical.getD, Canonical.again, Canonical.finishColl, → Canonical.collAlone,
    Canonical.wakeWriter]

@[simp] theorem Canonical.execCollectiveComplete {tile ticket} {s : State} (hs : Canonical s) :
    OutCanonical (execCollectiveComplete tile ticket s) :=
  hs.collComplete

@[simp] theorem Canonical.execColl {d m t} {s : State} (hs : Canonical s) :
    OutCanonical (execColl d m t s) := by
  grind [execColl, canonical_mk, memoriesOk_self, MemoriesOk.writeNat, Eff.state, Canonical.issueX,
    Canonical.andThen, Canonical.checkMem, Canonical.settle, Canonical.setColl, Canonical.setX,
    Canonical.signBy, Canonical.collComplete, Canonical.once]

@[simp] theorem Canonical.execCqry {d a f t} {s : State} (hs : Canonical s) :
    OutCanonical (execCqry d a f t s) :=
  hs.issue fun _ h => h.setX

@[simp] theorem Canonical.execCwait {d a t} {s : State} (hs : Canonical s) :
    OutCanonical (execCwait d a t s) := by
  grind [execCwait, Eff.state, Canonical.issue, Canonical.setX]

@[simp] theorem Canonical.execCabt {a t} {s : State} (hs : Canonical s) :
    OutCanonical (execCabt a t s) := by
  grind [execCabt, Eff.state, Canonical.issue, Canonical.abortColl]

theorem Canonical.performFlit {s : State} {c i t} (hs : Canonical s) : Canonical (s.performFlit c i t) := by
  unfold State.performFlit
  dsimp only
  split
  · grind [Canonical.putTransfer, Canonical.fabricRun, Canonical.putOp, Canonical.foldl,
      Canonical.wakeShared, Canonical.freeSource]
  · exact hs.putTransfer.arriveMessage
  · exact hs.putTransfer.foldl fun s t h => h.fsigAt
  · refine Canonical.ite ?_ hs.putTransfer
    split
    · next hr => exact foldl_bind_some (P := Canonical) (fun s u r h hr => h.chunkIn _ hr) hs.putTransfer hr
    · exact hs.foldl fun s o h => h.wakeWriter

theorem Canonical.tagFailure {s : State} {e} (hs : Canonical s) : Canonical (State.tagFailure s e) := by
  grind [State.tagFailure, canonical_mk, memoriesOk_self, Canonical.trip]

theorem Canonical.sendFlit {s : State} {c} (hs : Canonical s) : Canonical (State.sendFlit s c) := by
  grind [State.sendFlit, Canonical.performFlit, Canonical.setCirc]

theorem Canonical.flitArrival {s : State} {c fate} (hs : Canonical s) :
    Canonical (State.flitArrival s c fate) := by
  grind [State.flitArrival, Canonical.sendFlit, Canonical.setCirc, Canonical.tagFailure,
    Canonical.arriveMessage]

@[simp] theorem Canonical.execFlitArrival {c fate} {s : State} (hs : Canonical s) :
    OutCanonical (execFlitArrival c fate s) :=
  hs.flitArrival

theorem Canonical.fillSlots {c n} {s : State} (hs : Canonical s) : Canonical (State.fillSlots c n s) := by
  induction n generalizing s <;> grind [State.fillSlots, Canonical.sendFlit]

theorem Canonical.flitsLeave {s : State} (hs : Canonical s) : Canonical (State.flitsLeave s) :=
  hs.foldl fun _ _ h => h.fillSlots

theorem Canonical.deliverMessage {s : State} {c} (hs : Canonical s) : Canonical (s.deliverMessage c) := by
  have hm {u : State} {v a bs} (hu : Canonical u) :
      Canonical { u.setCirc c v with mem := u.mem.writeBytes a bs } :=
    hu.setCirc.withMem (Memory.wf_writeBytes hu.mem a bs)
  grind [State.deliverMessage, Canonical.setBobbin, Canonical.once, Canonical.again, Canonical.setCirc]

@[simp] theorem Canonical.execMessageDelivery {c} {s : State} (hs : Canonical s) :
    OutCanonical (execMessageDelivery c s) :=
  hs.deliverMessage

theorem Canonical.fabricComplete {s : State} {tile id} (hs : Canonical s) :
    Canonical (State.fabricComplete s tile id) := by
  grind [State.fabricComplete, canonical_mk, memoriesOk_self, Canonical.closeCopy, Canonical.route]

@[simp] theorem Canonical.execFabricCopyComplete {tile id} {s : State} (hs : Canonical s) :
    OutCanonical (execFabricCopyComplete tile id s) :=
  hs.fabricComplete

theorem Canonical.acknowledged {s : State} {c t} (hs : Canonical s) :
    Canonical (State.acknowledged s c t) := by
  grind [State.acknowledged, Canonical.fabricComplete, Canonical.setCirc, Canonical.gave,
    Canonical.stepDone]

theorem Canonical.acksCome {s : State} {c} (hs : Canonical s) : Canonical (State.acksCome s c) :=
  hs.foldl fun _ _ h => h.acknowledged

end Sys2Proof.Claims
end

section
/-!
O58, continued: the vector and matrix engines, system registers, the walker.
-/
namespace Sys2Proof.Claims
open Sys2Proof.Machine

/-! ### Rows of the vector engine -/

theorem Canonical.putRow {s : State} {r ls} (hs : Canonical s) : Canonical (State.putRow s r ls) :=
  hs.setRow

/-! ### Slice transfers and ply instructions -/

theorem Canonical.storeSegs {s : State} {space segs bs} (hs : Canonical s) :
    Canonical (State.storeSegs s space segs bs) := by
  grind [State.storeSegs, canonical_mk, memoriesOk_self, MemoriesOk.writeSegs, Canonical.dropRuns]

@[simp] theorem Canonical.execSld {d m f t} {s : State} (hs : Canonical s) :
    OutCanonical (execSld d m f t s) := by
  grind [execSld, canonical_mk, memoriesOk_self, MemoriesOk.writeBytes, Eff.state, Canonical.issueX,
    Canonical.andThen, Canonical.checkMem, Canonical.settle, Canonical.dropRuns]

@[simp] theorem Canonical.execSst {d m f t} {s : State} (hs : Canonical s) :
    OutCanonical (execSst d m f t s) := by
  grind [execSst, Eff.state, Canonical.issueX, Canonical.andThen, Canonical.checkMem, Canonical.settle,
    Canonical.storeSegs]

theorem Canonical.plyLoop {uses body n fuel acc} {s : State} (hs : Canonical s)
    (hb : ∀ i s, Canonical s → Canonical (body i s).2) : Canonical (plyLoop uses body n fuel acc s).2 := by
  induction fuel generalizing acc s <;> grind [Machine.plyLoop]

theorem Canonical.plyDrop {n uses} {s : State} (hs : Canonical s) : Canonical (plyDrop n uses s) :=
  hs.foldl fun _ _ h => h.dropRuns

theorem Canonical.foldl_chk {α : Type} {f : Chk → α → Chk} {as : List α} {c : Chk} (h : Canonical c.state)
    (hf : ∀ c a, Canonical c.state → Canonical (f c a).state) : Canonical (as.foldl f c).state := by
  induction as generalizing c with
  | nil => exact h
  | cons a r ih => exact ih (hf c a h)

theorem Canonical.plyRun {n rel uses wd sat body} {s : State} (hs : Canonical s)
    (hb : ∀ i s, Canonical s → Canonical (body i s).2) :
    Canonical (plyRun n rel uses wd sat body s).state := by
  unfold Machine.plyRun
  split
  · exact hs
  · refine (Canonical.foldl_chk (c := .ok [] 0 s) hs ?_).andThen fun _ _ s hs => ?_
    · rintro (_ | _ | _) u hc
      · exact Canonical.postCheck hc
      all_goals exact hc
    · grind [Eff.state, Canonical.plyLoop, Canonical.settle, Canonical.plyDrop, Canonical.setX,
        Canonical.raise]

theorem Canonical.PlyEnd_write {e} {s : State} {i g} (hs : Canonical s) :
    Canonical (PlyEnd.write e s i g) :=
  hs.writeGroup

@[simp] theorem Canonical.execPld {d m f t} {s : State} (hs : Canonical s) :
    OutCanonical (execPld d m f t s) := by
  grind [execPld, Eff.state, Canonical.issueX, Canonical.plyRun, Canonical.PlyEnd_write]

theorem Canonical.plyStore {d m same} {s : State} (hs : Canonical s) :
    Canonical (plyStore d m same s).state := by
  grind [plyStore, Eff.state, Canonical.plyRun, Canonical.PlyEnd_write]

@[simp] theorem Canonical.execPst {d m t} {s : State} (hs : Canonical s) : OutCanonical (execPst d m t s) :=
  hs.issueX fun _ h => h.plyStore

@[simp] theorem Canonical.execPstl {d m t} {s : State} (hs : Canonical s) :
    OutCanonical (execPstl d m t s) :=
  hs.issueX fun _ h => h.plyStore

@[simp] theorem Canonical.execPaxpy {d m f t} {s : State} (hs : Canonical s) :
    OutCanonical (execPaxpy d m f t s) := by
  grind [execPaxpy, Eff.state, Canonical.issueX, Canonical.plyRun, Canonical.PlyEnd_write]

theorem Canonical.plyMap {d m sat f} {s : State} (hs : Canonical s) :
    Canonical (plyMap d m sat f s).state := by
  grind [plyMap, Eff.state, Canonical.plyRun, Canonical.PlyEnd_write]

@[simp] theorem Canonical.execPscl {d m t} {s : State} (hs : Canonical s) :
    OutCanonical (execPscl d m t s) :=
  hs.issueX fun _ h => h.plyMap

@[simp] theorem Canonical.execPnorm {d m t} {s : State} (hs : Canonical s) :
    OutCanonical (execPnorm d m t s) :=
  hs.issueX fun _ h => h.plyMap

@[simp] theorem Canonical.execPcnt {d m t} {s : State} (hs : Canonical s) :
    OutCanonical (execPcnt d m t s) := by
  grind [execPcnt, Eff.state, Canonical.issueX, Canonical.plyRun]

@[simp] theorem Canonical.execPcvt {d m f t} {s : State} (hs : Canonical s) :
    OutCanonical (execPcvt d m f t s) := by
  grind [execPcvt, Eff.state, Canonical.issueX, Canonical.plyRun, Canonical.PlyEnd_write, Canonical.wr]

/-! ### Vector instructions -/

theorem Canonical.vecInstr {t rows checks body} {s : State} (hs : Canonical s)
    (hb : ∀ s, Canonical s → Canonical (body s)) : OutCanonical (vecInstr t rows checks body s) := by
  grind [Machine.vecInstr, Eff.state, Canonical.issue]

theorem Canonical.putLanes {s : State} {d r} (hs : Canonical s) : Canonical (State.putLanes s d r) :=
  hs.putRow.raise

theorem Canonical.vecElem {op o d a b f t} {s : State} (hs : Canonical s) :
    OutCanonical (vecElem op o d a b f t s) :=
  hs.vecInstr fun _ h => h.putLanes

theorem Canonical.vecUnary {op o d a f t} {s : State} (hs : Canonical s) :
    OutCanonical (vecUnary op o d a f t s) :=
  hs.vecInstr fun _ h => h.putLanes

@[simp] theorem Canonical.execVadd {d a b f t} {s : State} (hs : Canonical s) :
    OutCanonical (execVadd d a b f t s) :=
  hs.vecElem

@[simp] theorem Canonical.execVsub {d a b f t} {s : State} (hs : Canonical s) :
    OutCanonical (execVsub d a b f t s) :=
  hs.vecElem

@[simp] theorem Canonical.execVmul {d a b f t} {s : State} (hs : Canonical s) :
    OutCanonical (execVmul d a b f t s) :=
  hs.vecElem

@[simp] theorem Canonical.execVfma {d a b f t} {s : State} (hs : Canonical s) :
    OutCanonical (execVfma d a b f t s) :=
  hs.vecElem

@[simp] theorem Canonical.execVmin {d a b f t} {s : State} (hs : Canonical s) :
    OutCanonical (execVmin d a b f t s) :=
  hs.vecElem

@[simp] theorem Canonical.execVmax {d a b f t} {s : State} (hs : Canonical s) :
    OutCanonical (execVmax d a b f t s) :=
  hs.vecElem

@[simp] theorem Canonical.execVabs {d a f t} {s : State} (hs : Canonical s) :
    OutCanonical (execVabs d a f t s) :=
  hs.vecUnary

@[simp] theorem Canonical.execVneg {d a f t} {s : State} (hs : Canonical s) :
    OutCanonical (execVneg d a f t s) :=
  hs.vecUnary

@[simp] theorem Canonical.execVcmp {d a b f t} {s : State} (hs : Canonical s) :
    OutCanonical (execVcmp d a b f t s) :=
  hs.vecInstr fun _ h => h.putLanes

@[simp] theorem Canonical.execVsel {d a b t} {s : State} (hs : Canonical s) :
    OutCanonical (execVsel d a b t s) :=
  hs.vecInstr fun _ h => h.putLanes

theorem Canonical.vecBit {op g d a b t} {s : State} (hs : Canonical s) :
    OutCanonical (vecBit op g d a b t s) :=
  hs.vecInstr fun _ h => h.putLanes

@[simp] theorem Canonical.execVand {d a b t} {s : State} (hs : Canonical s) :
    OutCanonical (execVand d a b t s) :=
  hs.vecBit

@[simp] theorem Canonical.execVor {d a b t} {s : State} (hs : Canonical s) :
    OutCanonical (execVor d a b t s) :=
  hs.vecBit

@[simp] theorem Canonical.execVxor {d a b t} {s : State} (hs : Canonical s) :
    OutCanonical (execVxor d a b t s) :=
  hs.vecBit

theorem Canonical.vecShift {op g d a b t} {s : State} (hs : Canonical s) :
    OutCanonical (vecShift op g d a b t s) :=
  hs.vecInstr fun _ h => h.putLanes

@[simp] theorem Canonical.execVshl {d a b t} {s : State} (hs : Canonical s) :
    OutCanonical (execVshl d a b t s) :=
  hs.vecShift

@[simp] theorem Canonical.execVshr {d a b t} {s : State} (hs : Canonical s) :
    OutCanonical (execVshr d a b t s) :=
  hs.vecShift

@[simp] theorem Canonical.execVcvt {d a b t} {s : State} (hs : Canonical s) :
    OutCanonical (execVcvt d a b t s) := by
  grind [execVcvt, Eff.state, Canonical.issue, Canonical.putLanes]

@[simp] theorem Canonical.execVsfn {d a f t} {s : State} (hs : Canonical s) :
    OutCanonical (execVsfn d a f t s) :=
  hs.vecInstr fun _ h => h.putLanes

@[simp] theorem Canonical.execVred {d a f t} {s : State} (hs : Canonical s) :
    OutCanonical (execVred d a f t s) :=
  hs.vecInstr fun _ h => h.setX.raise

@[simp] theorem Canonical.execVscan {d a f t} {s : State} (hs : Canonical s) :
    OutCanonical (execVscan d a f t s) :=
  hs.vecInstr fun _ h => h.putLanes

@[simp] theorem Canonical.execVbcst {d a t} {s : State} (hs : Canonical s) :
    OutCanonical (execVbcst d a t s) :=
  hs.vecInstr fun _ h => h.putLanes

@[simp] theorem Canonical.execViota {d a t} {s : State} (hs : Canonical s) :
    OutCanonical (execViota d a t s) :=
  hs.vecInstr fun _ h => h.putLanes

theorem Canonical.vecMove {op store d m f t} {s : State} (hs : Canonical s) :
    OutCanonical (vecMove op store d m f t s) := by
  grind [vecMove, canonical_mk, memoriesOk_self, MemoriesOk.writeBytes, Eff.state, Canonical.issueX,
    Canonical.andThen, Canonical.checkMem, Canonical.settle, Canonical.storeSegs]

@[simp] theorem Canonical.execVld {d m f t} {s : State} (hs : Canonical s) :
    OutCanonical (execVld d m f t s) :=
  hs.vecMove

@[simp] theorem Canonical.execVst {d m f t} {s : State} (hs : Canonical s) :
    OutCanonical (execVst d m f t s) :=
  hs.vecMove

theorem Canonical.setAccum {s : State} {a v} (hs : Canonical s) : Canonical (State.setAccum s a v) :=
  hs.setMyCore

@[simp] theorem Canonical.execVget {d a b f t} {s : State} (hs : Canonical s) :
    OutCanonical (execVget d a b f t s) :=
  hs.vecInstr fun _ h => h.setX

@[simp] theorem Canonical.execVput {d a b f t} {s : State} (hs : Canonical s) :
    OutCanonical (execVput d a b f t s) := by
  grind [execVput, Canonical.vecInstr, Canonical.setLane, Canonical.setAccum]

@[simp] theorem Canonical.execVcolR {d a b t} {s : State} (hs : Canonical s) :
    OutCanonical (execVcolR d a b t s) :=
  hs.vecInstr fun _ h => h.putLanes

@[simp] theorem Canonical.execVcolW {d a b t} {s : State} (hs : Canonical s) :
    OutCanonical (execVcolW d a b t s) := by
  grind [execVcolW, Canonical.foldl, Canonical.vecInstr, Canonical.setLane]

@[simp] theorem Canonical.execVperm {d a b t} {s : State} (hs : Canonical s) :
    OutCanonical (execVperm d a b t s) :=
  hs.vecInstr fun _ h => h.putLanes

@[simp] theorem Canonical.execVrng {d a b f t} {s : State} (hs : Canonical s) :
    OutCanonical (execVrng d a b f t s) :=
  hs.vecInstr fun _ h => h.putLanes

@[simp] theorem Canonical.execOsmx {d t} {s : State} (hs : Canonical s) : OutCanonical (execOsmx d t s) :=
  hs.vecInstr fun _ h => h.putRow.setAccum.raise

@[simp] theorem Canonical.execOsmn {d t} {s : State} (hs : Canonical s) : OutCanonical (execOsmn d t s) :=
  hs.vecInstr fun _ h => h.putLanes

theorem Canonical.addOvf {s : State} {a n} (hs : Canonical s) : Canonical (State.addOvf s a n) :=
  hs.setAccum.raise

@[simp] theorem Canonical.execVqnt {d a b f t} {s : State} (hs : Canonical s) :
    OutCanonical (execVqnt d a b f t s) := by
  grind [execVqnt, canonical_mk, memoriesOk_self, MemoriesOk.writeBytes, Canonical.foldl,
    Canonical.vecInstr, Canonical.putRow, Canonical.raise, Canonical.addOvf]

@[simp] theorem Canonical.execVdqn {d a b f t} {s : State} (hs : Canonical s) :
    OutCanonical (execVdqn d a b f t s) := by
  grind [execVdqn, Canonical.foldl, Canonical.vecInstr, Canonical.addOvf, Canonical.raise, Canonical.putRow]

/-! ### The matrix engine and the dot units -/

theorem Canonical.setMatrix {s : State} {m} (hs : Canonical s) : Canonical (State.setMatrix s m) :=
  hs.setMyCore

theorem Canonical.takeRecord {s : State} (hs : Canonical s) : Canonical (State.takeRecord s) :=
  .ite hs.setMatrix hs

theorem Canonical.matEff {tiles checks body} {s : State} (hs : Canonical s)
    (hb : ∀ s, Canonical s → Canonical (body s).state) : Canonical (matEff tiles checks body s).state := by
  unfold Machine.matEff
  split_ifs
  · exact hs
  · split
    · exact hs
    · exact hb s hs

theorem Canonical.matInstr {t tiles checks body} {s : State} (hs : Canonical s)
    (hb : ∀ s, Canonical s → Canonical (body s).state) : OutCanonical (matInstr t tiles checks body s) :=
  hs.issueX fun _ h => h.matEff hb

theorem Canonical.matPlain {t tiles checks body} {s : State} (hs : Canonical s)
    (hb : ∀ s, Canonical s → Canonical (body s).state) : OutCanonical (matPlain t tiles checks body s) :=
  hs.issue fun _ h => h.matEff hb

@[simp] theorem Canonical.execMcfg {d a t} {s : State} (hs : Canonical s) :
    OutCanonical (execMcfg d a t s) :=
  hs.matPlain fun _ h => h.takeRecord.setAccum

@[simp] theorem Canonical.execMfmt {a t} {s : State} (hs : Canonical s) : OutCanonical (execMfmt a t s) :=
  hs.matPlain fun _ h => h.takeRecord.setMatrix

theorem Canonical.fillWeights {s : State} {type pw mode nc bl} (hs : Canonical s) :
    Canonical (State.fillWeights s type pw mode nc bl) := by
  grind [State.fillWeights, canonical_mk, memoriesOk_self, MemoriesOk.writeBytes, MemoriesOk.zero,
    MemoriesOk.filter, Canonical.setMatrix]

@[simp] theorem Canonical.execMlw {d m f t} {s : State} (hs : Canonical s) :
    OutCanonical (execMlw d m f t s) := by
  grind [execMlw, Eff.state, Canonical.matInstr, Canonical.andThen, Canonical.checkMem, Canonical.settle,
    Canonical.fillWeights, Canonical.takeRecord]

@[simp] theorem Canonical.execMswp {t} {s : State} (hs : Canonical s) : OutCanonical (execMswp t s) := by
  grind [execMswp, Eff.state, Canonical.issue, Canonical.matEff, Canonical.takeRecord, Canonical.setMatrix]

theorem Canonical.startPass {s : State} {ps} (hs : Canonical s) : Canonical (State.startPass s ps) :=
  hs.setMatrix.setMe.later

theorem Canonical.returnW {s : State} {t} (hs : Canonical s) : Canonical (State.returnW s t) :=
  .ite hs.setMySlot hs

theorem Canonical.mmaInstr {op zero d m t} {s : State} (hs : Canonical s) :
    OutCanonical (mmaInstr op zero d m t s) := by
  grind [mmaInstr, Eff.state, Canonical.issueX, Canonical.matEff, Canonical.startPass, Canonical.returnW,
    Canonical.andThen, Canonical.checkMem, Canonical.takeRecord, Canonical.settle]

@[simp] theorem Canonical.execMma {d m t} {s : State} (hs : Canonical s) : OutCanonical (execMma d m t s) :=
  hs.mmaInstr

@[simp] theorem Canonical.execMmaz {d m t} {s : State} (hs : Canonical s) :
    OutCanonical (execMmaz d m t s) :=
  hs.mmaInstr

@[simp] theorem Canonical.execMatrixPassComplete {tile core} {s : State} (hs : Canonical s) :
    OutCanonical (execMatrixPassComplete tile core s) := by
  grind [execMatrixPassComplete, outCanonical_next, Canonical.finishPass]

@[simp] theorem Canonical.execMrsm {t} {s : State} (hs : Canonical s) : OutCanonical (execMrsm t s) := by
  grind [execMrsm, Eff.state, Canonical.issue, Canonical.matEff, Canonical.passRows, Canonical.setMatrix]

@[simp] theorem Canonical.execMrsmDiscard {t} {s : State} (hs : Canonical s) :
    OutCanonical (execMrsmDiscard t s) := by
  grind [execMrsmDiscard, Eff.state, Canonical.issue, Canonical.matEff, Canonical.setMatrix]

@[simp] theorem Canonical.execMscl {d m f t} {s : State} (hs : Canonical s) :
    OutCanonical (execMscl d m f t s) := by
  grind [execMscl, Eff.state, Canonical.matInstr, Canonical.andThen, Canonical.checkMem,
    Canonical.takeRecord, Canonical.settle, Canonical.setMatrix]

@[simp] theorem Canonical.execMbias {m t} {s : State} (hs : Canonical s) :
    OutCanonical (execMbias m t s) := by
  grind [execMbias, Eff.state, Canonical.matInstr, Canonical.andThen, Canonical.checkMem,
    Canonical.takeRecord, Canonical.settle, Canonical.setMatrix]

@[simp] theorem Canonical.execMbiasClr {t} {s : State} (hs : Canonical s) :
    OutCanonical (execMbiasClr t s) :=
  hs.matInstr fun _ h => h.takeRecord.setMatrix

@[simp] theorem Canonical.execMdrn {d m f t} {s : State} (hs : Canonical s) :
    OutCanonical (execMdrn d m f t s) := by
  grind [execMdrn, canonical_mk, memoriesOk_self, MemoriesOk.zero, Canonical.foldl, Eff.state,
    Canonical.matInstr, Canonical.andThen, Canonical.checkMem, Canonical.takeRecord, Canonical.settle,
    Canonical.wrBits, Canonical.raise, Canonical.addOvf, Canonical.wr]

@[simp] theorem Canonical.execMzro {d b t} {s : State} (hs : Canonical s) :
    OutCanonical (execMzro d b t s) := by
  refine hs.matPlain fun s h => Canonical.ite (Canonical.setAccum ?h) ?h
  exact canonical_mk.2 ((memoriesOk_self _).2 h.takeRecord).zero

@[simp] theorem Canonical.execMovc {d a b t} {s : State} (hs : Canonical s) :
    OutCanonical (execMovc d a b t s) := by
  refine hs.matPlain fun s h => Canonical.ite (Canonical.setAccum ?h) ?h
  exact canonical_mk.2 ((memoriesOk_self _).2 h.takeRecord).writeBytes

@[simp] theorem Canonical.execMtrn {d a sh dh t} {s : State} (hs : Canonical s) :
    OutCanonical (execMtrn d a sh dh t s) := by
  refine hs.matPlain fun s h => ?_
  dsimp only [Eff.state]
  exact h.takeRecord.foldl fun s' j h => h.setRow

@[simp] theorem Canonical.execMstat {d a f t} {s : State} (hs : Canonical s) :
    OutCanonical (execMstat d a f t s) := by
  grind [execMstat, Eff.state, Canonical.issue, Canonical.matEff, Canonical.setMatrix, Canonical.setAccum,
    Canonical.setX]

@[simp] theorem Canonical.execMgemv {d m t} {s : State} (hs : Canonical s) :
    OutCanonical (execMgemv d m t s) := by
  grind [execMgemv, Eff.state, outCanonical_next, Canonical.matInstr, Canonical.andThen, Canonical.checkMem,
    Canonical.takeRecord, Canonical.setAux, Canonical.settle, Canonical.later]

@[simp] theorem Canonical.execMgemvComplete {tile core id} {s : State} (hs : Canonical s) :
    OutCanonical (execMgemvComplete tile core id s) := by
  grind [execMgemvComplete, outCanonical_next, Canonical.awaitWriter, Canonical.setTile, Canonical.setRow,
    Canonical.setAux, Canonical.setSlot]

@[simp] theorem Canonical.execMgwt {d t} {s : State} (hs : Canonical s) :
    OutCanonical (execMgwt d t s) := by
  grind [execMgwt, Eff.state, Canonical.issue, Canonical.matEff, Canonical.setMySlot, Canonical.takeRecord,
    Canonical.setX]

/-! ### System registers -/

theorem Canonical.setPcReg {s : State} {k f v} (hs : Canonical s) : Canonical (State.setPcReg s k f v) := by
  grind [State.setPcReg, Canonical.setRegs, Canonical.setStream]

theorem Canonical.setSysReg {s : State} {i v} (hs : Canonical s) : Canonical (s.setSysReg i v) := by
  grind (splits := 30) [State.setSysReg, Canonical.setRegs, Canonical.setPcReg, Canonical.relend,
    Canonical.setMyCore, Canonical.setMe, Canonical.setStream]

@[simp] theorem Canonical.execMfs {d idx t} {s : State} (hs : Canonical s) :
    OutCanonical (execMfs d idx t s) := by
  grind [execMfs, Eff.state, Canonical.issueX, Canonical.setX]

@[simp] theorem Canonical.execMts {d idx t} {s : State} (hs : Canonical s) :
    OutCanonical (execMts d idx t s) := by
  grind [execMts, Eff.state, Canonical.issueX, Canonical.setSysReg]

theorem Canonical.landing {s : State} {p target} (hs : Canonical s) :
    Canonical (State.landing s p target).2 := by
  grind [State.landing, Canonical.fetchWord]

theorem Canonical.applyMoves {k fs} {s : State} (hs : Canonical s) :
    Canonical (State.applyMoves k fs s).2 := by
  induction fs generalizing s <;> grind [State.applyMoves, Canonical.landing, Canonical.setStream]

theorem Canonical.eretTask {s : State} {k push back} (hs : Canonical s) :
    Canonical (State.eretTask s k push back) := by
  grind [State.eretTask, Canonical.foldl, Canonical.setRegs, Canonical.applyMoves, Canonical.setSlot,
    Canonical.syncFault, Canonical.setStream, Canonical.pushTack, Canonical.deliverNext,
    Canonical.copyDirective, Canonical.toRunning, Canonical.releasePend]

theorem Canonical.firmware {s : State} {result} (hs : Canonical s) : Canonical (s.firmware result) := by
  cases result <;> grind [State.firmware, canonical_mk, memoriesOk_self, Canonical.endProcedure,
    Canonical.eretTask]

theorem Canonical.moveHandler {s : State} {k pc b} (hs : Canonical s) :
    Canonical (State.moveHandler s k pc b) :=
  hs.setSlot

theorem Canonical.eretSuper {k push} {s : State} (hs : Canonical s) :
    Canonical (eretSuper k push s).state := by
  grind [eretSuper, Eff.state, Canonical.pushTack, Canonical.landing, Canonical.setRegs,
    Canonical.setStream, Canonical.moveHandler]

@[simp] theorem Canonical.execEret {t} {s : State} (hs : Canonical s) : OutCanonical (execEret t s) := by
  grind [execEret, Eff.state, Canonical.issue, Canonical.eretSuper, Canonical.eretTask]

@[simp] theorem Canonical.execWfi {a t} {s : State} (hs : Canonical s) : OutCanonical (execWfi a t s) := by
  grind [execWfi, Eff.state, Canonical.issue, Canonical.setMe]

/-! ### The graph walker -/

theorem Canonical.readRec {s : State} {tile base i} (hs : Canonical s) :
    Canonical (State.readRec s tile base i).2 := by
  grind [State.readRec, Canonical.xlate]

theorem Canonical.badRec {s : State} {tile i va} (hs : Canonical s) :
    Canonical (State.badRec s tile i va) :=
  hs.raiseAt

theorem Canonical.readRecs {tile base is} {s : State} (hs : Canonical s) :
    Canonical (State.readRecs tile base is s).2 := by
  induction is generalizing s <;> grind [State.readRecs, Canonical.readRec, Canonical.badRec]

theorem Canonical.startTask {s : State} {tile k r} (hs : Canonical s) :
    Canonical (State.startTask s tile k r) := by
  grind [State.startTask, canonical_mk, memoriesOk_self, Canonical.foldl, Canonical.setSlot,
    Canonical.setStream, Canonical.setTile, Canonical.relend]

theorem Canonical.runProcedure {s : State} {entry htbase table} (hs : Canonical s) :
    Canonical (State.runProcedure s entry htbase table) := by
  grind [State.runProcedure, canonical_mk, memoriesOk_self, Canonical.areaWrite, Canonical.soon,
    Canonical.setSlot, Canonical.setStream]

theorem Canonical.walk1 {s : State} {tile} (hs : Canonical s) : Canonical (State.walk1 s tile) := by
  grind [State.walk1, Canonical.again, Canonical.startTask, Canonical.nudge, Canonical.setTile]

@[simp] theorem Canonical.execWalkerIterationStart {tile} {s : State} (hs : Canonical s) :
    OutCanonical (execWalkerIterationStart tile s) :=
  hs.walk1

theorem Canonical.walkStart {s : State} {tile} (hs : Canonical s) : Canonical (State.walkStart s tile) := by
  grind [State.walkStart, Canonical.foldl, Canonical.readRecs, Canonical.askLining, Canonical.report,
    Canonical.setTile, Canonical.once]

@[simp] theorem Canonical.execWStart {tile} {s : State} (hs : Canonical s) :
    OutCanonical (execWStart tile s) :=
  .ite hs.walkStart hs

theorem Canonical.walkStop {s : State} {tile} (hs : Canonical s) : Canonical (State.walkStop s tile) :=
  hs.setTile

@[simp] theorem Canonical.execWStop {tile} {s : State} (hs : Canonical s) :
    OutCanonical (execWStop tile s) :=
  .ite hs.walkStop hs

/-! ### Pre-emption and contexts -/

theorem Canonical.cmdErr {s : State} {tile} (hs : Canonical s) : Canonical (State.cmdErr s tile) :=
  hs.setTile

theorem Canonical.preempt {s : State} {tile k arg} (hs : Canonical s) :
    Canonical (State.preempt s tile k arg) := by
  grind [State.preempt, canonical_mk, memoriesOk_self, Canonical.once, Canonical.cmdErr, Canonical.setSlot]

@[simp] theorem Canonical.execWPreempt {tile core slot arg} {s : State} (hs : Canonical s) :
    OutCanonical (execWPreempt tile core slot arg s) :=
  .ite hs.preempt hs

theorem Canonical.preemptHalt {s : State} {k} (hs : Canonical s) : Canonical (State.preemptHalt s k) := by
  grind [State.preemptHalt, Canonical.haltStreams, Canonical.interruptPass, Canonical.setAux,
    Canonical.once, Canonical.setSlot]

@[simp] theorem Canonical.execPreemptHalt {tile core slot} {s : State} (hs : Canonical s) :
    OutCanonical (execPreemptHalt tile core slot s) :=
  hs.preemptHalt

theorem Canonical.saveContext {s : State} {k} (hs : Canonical s) : Canonical (State.saveContext s k) := by
  grind [State.saveContext, canonical_mk, memoriesOk_self, Canonical.settleCore, Canonical.areaWrite,
    Canonical.setSlot, Canonical.nudge, Canonical.again, Canonical.report]

@[simp] theorem Canonical.execContextSaveComplete {tile core slot} {s : State} (hs : Canonical s) :
    OutCanonical (execContextSaveComplete tile core slot s) :=
  hs.saveContext

theorem Canonical.freeBank {s : State} {k} (hs : Canonical s) : Canonical (State.freeBank s k) :=
  canonical_mk.2 ((memoriesOk_self _).2 hs.setSlot)

theorem Canonical.loadTiles {s : State} {k mx acc} (hs : Canonical s) :
    Canonical (s.loadTiles k mx acc) := by
  unfold State.loadTiles
  dsimp only
  generalize hf : acc.foldl _ s = u
  have hu : Canonical u := by
    rw [← hf]
    refine hs.foldl fun s ⟨a, b⟩ h => ?_
    exact h.setCore.withMem (Memory.wf_writeBytes h.mem _ _)
  split
  · exact hu
  · exact hu.setCore.withMem (Memory.wf_writeBytes (Memory.wf_writeBytes hu.mem _ _) _ _)

theorem Canonical.vacate {s : State} {src k id} (hs : Canonical s) :
    Canonical (State.vacate s src k id) := by
  grind [State.vacate, canonical_mk, memoriesOk_self, Canonical.setSlot]

theorem Canonical.restartMgemv {s : State} {k l} (hs : Canonical s) :
    Canonical (State.restartMgemv s k l) :=
  hs.foldl fun _ _ h => h.later.setAux

theorem Canonical.loadContext {s : State} {tile k area hd body mx acc} (hs : Canonical s) :
    Canonical (State.loadContext s tile k area hd body mx acc) := by
  grind [State.loadContext, canonical_mk, memoriesOk_self, Canonical.foldl, Canonical.setSlot,
    Canonical.setStream, Canonical.freeBank, Canonical.vacate, Canonical.loadTiles, Canonical.dropL1,
    Canonical.setTile, Canonical.restartMgemv, Canonical.enterHandler, Canonical.toRunning,
    Canonical.deliverNext, Canonical.relend, Canonical.route, Canonical.once]

theorem Canonical.resume {s : State} {tile k arg} (hs : Canonical s) :
    Canonical (State.resume s tile k arg) := by
  grind [State.resume, Canonical.cmdErr, Canonical.areaWrite, Canonical.loadContext, Canonical.again,
    Canonical.setTile]

@[simp] theorem Canonical.execWResume {tile core slot arg} {s : State} (hs : Canonical s) :
    OutCanonical (execWResume tile core slot arg s) :=
  .ite hs.resume hs

theorem Canonical.enter {s : State} {tile k} (hs : Canonical s) : Canonical (State.enter s tile k) := by
  grind [State.enter, Canonical.enterHandler, Canonical.cmdErr]

@[simp] theorem Canonical.execWEnter {tile core slot} {s : State} (hs : Canonical s) :
    OutCanonical (execWEnter tile core slot s) :=
  .ite hs.enter hs

theorem Canonical.kill {s : State} {tile k} (hs : Canonical s) : Canonical (State.kill s tile k) := by
  grind [State.kill, Canonical.foldl, Canonical.dropTask, Canonical.setStream, Canonical.cmdErr]

@[simp] theorem Canonical.execWKill {tile core slot} {s : State} (hs : Canonical s) :
    OutCanonical (execWKill tile core slot s) :=
  .ite hs.kill hs

end Sys2Proof.Claims
end

section
/-!
O58, continued: the lining, ports, boot and devices.
-/
namespace Sys2Proof.Claims
open Sys2Proof.Machine

/-! ### The lining: points, capture, commit, resume -/

theorem Canonical.pastFence {n} {s : State} {q} (hs : Canonical s) : Canonical (State.pastFence n s q) := by
  grind [State.pastFence, Canonical.setSlot, Canonical.retireAt]

theorem Canonical.stopPass {s : State} {k} (hs : Canonical s) : Canonical (State.stopPass s k) := by
  grind [State.stopPass, Canonical.interruptPass]

theorem Canonical.snapCore_wf {s : State} {tile core n} (hs : Canonical s) :
    Memory.wf (s.snapCore tile core n).mem := by
  unfold State.snapCore
  dsimp only
  refine Memory.wf_within (Canonical.mem ?_) _
  exact Canonical.foldl (hs.foldl fun s p h => h.pastFence) fun s p h => h.setStream

theorem Canonical.capture {s : State} {tile core} (hs : Canonical s) : Canonical (s.capture tile core) := by
  unfold State.capture
  dsimp only
  split_ifs
  · exact hs
  · have h1 : Canonical ((s.settleCore (coreKey tile core)).stopPass (coreKey tile core)) :=
      hs.settleCore.stopPass
    refine Canonical.later (Canonical.nudge
      (h1.setTile.setAux.setLining fun h => h.captured h1.snapCore_wf ?_))
    rintro _ ⟨⟩
    exact h1.setTile.snapTile_wf

@[simp] theorem Canonical.execLiningCapture {tile core} {s : State} (hs : Canonical s) :
    OutCanonical (execLiningCapture tile core s) :=
  hs.capture

theorem Canonical.linePeriod {s : State} {tile core} (hs : Canonical s) :
    Canonical (State.linePeriod s tile core) := by
  grind [State.linePeriod, Canonical.askLining, Canonical.setAux]

@[simp] theorem Canonical.execPeriodicLiningTimer {tile core} {s : State} (hs : Canonical s) :
    OutCanonical (execPeriodicLiningTimer tile core s) :=
  hs.linePeriod

theorem Canonical.setCommitted {s : State} {tile core snap tseq} (hs : Canonical s)
    (hd : (s.lining (coreKey tile core)).drain = some snap) :
    Canonical ((s.setTileLining tile ((s.tileLining tile).commit tile tseq
      ((s.tileLining tile).newest (s.lining (coreKey tile core)).shared))).setLining (coreKey tile core)
      { (s.lining (coreKey tile core)).commit (coreKey tile core) snap with
        drain := none, shared := none }) :=
  have hl := hs.lining (k := coreKey tile core)
  (hs.setTileLining fun h => h.commit (h.newest hl.shared)).setLining fun _ =>
    (hl.commit (hl.drain snap hd)).flushed

theorem Canonical.commit {s : State} {tile core} (hs : Canonical s) : Canonical (s.commit tile core) := by
  grind [State.commit, Canonical.setCommitted, Canonical.setTile, Canonical.setCore, Canonical.once]

@[simp] theorem Canonical.execLiningCommit {tile core} {s : State} (hs : Canonical s) :
    OutCanonical (execLiningCommit tile core s) :=
  hs.commit

theorem Canonical.captureFlush {s : State} {tile core n} (hs : Canonical s) {k} :
    Canonical (s.setLining k
      { s.lining k with drain := some (s.snapCore tile core n), shared := none, left := [] }) :=
  hs.setLining fun h => h.captured hs.snapCore_wf (by simp)

theorem Canonical.powerFail {s : State} {tile} (hs : Canonical s) : Canonical (s.powerFail tile) := by
  have h1 := hs.foldl (as := List.range 8)
    (f := fun s c => (s.settleCore (coreKey tile c)).stopPass (coreKey tile c)) fun s c h =>
    h.settleCore.stopPass
  unfold State.powerFail
  dsimp only
  split_ifs
  · exact hs
  · exact (h1.setTile.setTileLining fun h => h.flushed).once.foldl fun s o h => h.abortOthers
  · refine (Canonical.once (Canonical.setTileLining ?h fun h => h.drained (Canonical.snapTile_wf ?h))).foldl
      fun s o h => h.abortOthers
    exact h1.setTile.foldl fun s c h => h.captureFlush.setAux

@[simp] theorem Canonical.execPowerFailDetect {tile} {s : State} (hs : Canonical s) :
    OutCanonical (execPowerFailDetect tile s) :=
  hs.powerFail

theorem Canonical.finalFlush {s : State} {tile good} (hs : Canonical s) :
    Canonical (s.finalFlush tile good) := by
  unfold State.finalFlush
  refine Canonical.ite hs ?_
  dsimp only
  generalize hf : List.foldl _ s (List.range 8) = u
  have hu : Canonical u := by
    rw [← hf]
    refine hs.foldl fun s c hc => hc.setLining fun h => LiningOk.flushed ?_
    split
    · next p hp => exact LiningOk.ite (h.commit (h.drain p hp)) h
    · exact h
  refine Canonical.setTile (hu.setTileLining fun h => TileLiningOk.flushed ?_)
  split
  · next p hp => exact TileLiningOk.ite (h.commit (h.drain p hp)) h
  · exact h

@[simp] theorem Canonical.execFinalFlushCommit {tile good} {s : State} (hs : Canonical s) :
    OutCanonical (execFinalFlushCommit tile good s) :=
  hs.finalFlush

@[simp] theorem Canonical.execThermalTrip {s : State} (hs : Canonical s) :
    OutCanonical (execThermalTrip s) := by
  grind [execThermalTrip, canonical_mk, memoriesOk_self, Canonical.foldl, outCanonical_next,
    Canonical.powerFail]

theorem Canonical.restoreCore {s : State} {tile core p} (hs : Canonical s) (hp : Memory.wf p.mem) :
    Canonical (s.restoreCore tile core p) := by
  obtain ⟨hm, hl⟩ := canonical_iff.1 hs
  refine Canonical.setAux (Canonical.setEngine
    (Canonical.setCore (Canonical.setLining ?_ fun h => h.withWork hp)))
  exact canonical_iff.2 ⟨Memory.wf_foldl_splice hp _ hm, hl⟩

theorem Canonical.restoreTile {s : State} {tile p} (hs : Canonical s) (hp : Memory.wf p.mem) :
    Canonical (s.restoreTile tile p) := by
  obtain ⟨-, hl⟩ := canonical_iff.1 (hs.setTileLining (t := tile) fun h => h.withWork hp)
  exact Canonical.setTile (canonical_iff.2 ⟨Memory.wf_foldl_splice hp _ hs.mem, hl⟩)

theorem Canonical.endTransfersOf {tile} {s : State} {c} (hs : Canonical s) :
    Canonical (State.endTransfersOf tile s c) := by
  grind [State.endTransfersOf, Canonical.endTransfers, Canonical.setCirc]

theorem Canonical.endFabricOf {s : State} {tile} (hs : Canonical s) :
    Canonical (State.endFabricOf s tile) := by
  grind [State.endFabricOf, Canonical.foldl, Canonical.endTransfersOf, Canonical.endFabric,
    Canonical.abortColl]

theorem Canonical.preemptAgain {s : State} {k area} (hs : Canonical s) :
    Canonical (State.preemptAgain s k area) := by
  grind [State.preemptAgain, canonical_mk, memoriesOk_self, Canonical.setAux, Canonical.once,
    Canonical.setSlot]

theorem Canonical.resumeSlot {torn} {s : State} {k} (hs : Canonical s) :
    Canonical (State.resumeSlot torn s k) := by
  grind [State.resumeSlot, Canonical.foldl, Canonical.setRegs, Canonical.preemptAgain,
    Canonical.enterHandler, Canonical.toRunning, Canonical.once, Canonical.route, Canonical.later,
    Canonical.deliverNext]

theorem Canonical.restartEngines {s : State} {tile} (hs : Canonical s) :
    Canonical (State.restartEngines s tile) := by
  grind [State.restartEngines, Canonical.foldl, Canonical.later, Canonical.once, Canonical.nudge]

theorem Canonical.liningResume {s : State} {tile} (hs : Canonical s) : Canonical (s.liningResume tile) := by
  have hc (c : Nat) : Memory.wf (if s.hub.fresh then resetCore else
    (s.lining (coreKey tile c)).committed.getD resetCore).mem := by
    split_ifs
    · exact Memory.wf_nil
    · exact hs.lining.getD_committed
  have ht : Memory.wf (if s.hub.fresh then resetTile else (s.tileLining tile).committed.getD
    resetTile).mem := by
    split_ifs
    · exact Memory.wf_nil
    · exact hs.tileLining.getD_committed
  have h1 := hs.foldl (as := List.range 8) fun s c h => h.restoreCore (tile := tile) (core := c) (hc c)
  have h2 := ((h1.restoreTile (tile := tile) ht).setTileLining (t := tile) fun h => h.unflushed).endFabricOf
    (tile := tile)
  exact Canonical.ite hs (Canonical.ite h2 (h2.foldl fun s k h => h.resumeSlot).restartEngines.relend)

@[simp] theorem Canonical.execLiningResume {tile} {s : State} (hs : Canonical s) :
    OutCanonical (execLiningResume tile s) :=
  hs.liningResume

@[simp] theorem Canonical.execThermalRecovery {s : State} (hs : Canonical s) :
    OutCanonical (execThermalRecovery s) := by
  grind [execThermalRecovery, canonical_mk, memoriesOk_self, Canonical.foldl, outCanonical_next,
    Canonical.liningResume]

theorem Canonical.clearLining {s : State} (hs : Canonical s) : Canonical s.clearLining := by
  refine canonical_iff.2 ⟨hs.mem, fun e he => ?_, fun e he => ?_⟩
  · obtain ⟨k, -, rfl⟩ := List.mem_map.1 he
    exact (LiningOk.empty.commit Memory.wf_nil).withWork (Memory.wf_within hs.mem _)
  · obtain ⟨k, -, rfl⟩ := List.mem_map.1 he
    exact (TileLiningOk.empty.commit Memory.wf_nil).withWork (Memory.wf_within hs.mem _)

/-! ### Ports, training and circuits -/

theorem Canonical.setEp {s : State} {e v} (hs : Canonical s) : Canonical (State.setEp s e v) :=
  canonical_mk.2 ((memoriesOk_self _).2 hs)

theorem Canonical.setLaser {s : State} {j v} (hs : Canonical s) : Canonical (State.setLaser s j v) :=
  canonical_mk.2 ((memoriesOk_self _).2 hs)

theorem Canonical.setLink {s : State} {m v} (hs : Canonical s) : Canonical (State.setLink s m v) :=
  canonical_mk.2 ((memoriesOk_self _).2 hs)

theorem Canonical.pairTouch {s : State} {near far} (hs : Canonical s) :
    Canonical (State.pairTouch s near far) :=
  hs.foldl fun _ _ h => h.setEp

theorem Canonical.pairUse {s : State} {near far} (hs : Canonical s) :
    Canonical (State.pairUse s near far) := by
  grind [State.pairUse, Canonical.foldl, Canonical.setEp]

theorem Canonical.clearEntries {s : State} {e} (hs : Canonical s) : Canonical (State.clearEntries s e) := by
  grind [State.clearEntries, Canonical.foldl, Canonical.setEp]

theorem Canonical.sayTraining {s : State} {near far c stage} (hs : Canonical s) :
    Canonical (State.sayTraining s near far c stage) :=
  hs.raiseAt

theorem Canonical.train {s : State} {near far prep c} (hs : Canonical s) :
    Canonical (State.train s near far prep c) := by
  grind [State.train, Canonical.sayTraining, Canonical.setEp, Canonical.once]

theorem Canonical.trainNext {s : State} {e} (hs : Canonical s) : Canonical (State.trainNext s e) := by
  grind [State.trainNext, Canonical.once, Canonical.sayTraining]

theorem Canonical.abandon {s : State} {ports} (hs : Canonical s) : Canonical (State.abandon s ports) := by
  grind [State.abandon, Canonical.foldl, Canonical.setEp, Canonical.trainNext]

theorem Canonical.restartFar {s : State} {e} (hs : Canonical s) : Canonical (State.restartFar s e) := by
  grind [State.restartFar, Canonical.foldl, Canonical.setEp, Canonical.trainNext]

theorem Canonical.sourceBack {s : State} {j} (hs : Canonical s) : Canonical (State.sourceBack s j) := by
  grind [State.sourceBack, Canonical.raiseAt]

theorem Canonical.trained {s : State} {near far} (hs : Canonical s) :
    Canonical (State.trained s near far) := by
  grind [State.trained, Canonical.setEp, Canonical.raiseAt, Canonical.sourceBack, Canonical.pairTouch,
    Canonical.sayTraining]

theorem Canonical.fastEnd {s : State} {near far ok} (hs : Canonical s) :
    Canonical (State.fastEnd s near far ok) := by
  grind [State.fastEnd, Canonical.trainNext, Canonical.setEp, Canonical.trained, Canonical.once,
    Canonical.raiseAt]

theorem Canonical.fullEnd {s : State} {near far ok} (hs : Canonical s) :
    Canonical (State.fullEnd s near far ok) := by
  grind [State.fullEnd, Canonical.trainNext, Canonical.trained, Canonical.raiseAt, Canonical.setEp,
    Canonical.sourceBack, Canonical.once]

@[simp] theorem Canonical.execFastBringupEnd {near far ok} {s : State} (hs : Canonical s) :
    OutCanonical (execFastBringupEnd near far ok s) :=
  hs.fastEnd

@[simp] theorem Canonical.execFullTrainingEnd {near far ok} {s : State} (hs : Canonical s) :
    OutCanonical (execFullTrainingEnd near far ok s) :=
  hs.fullEnd

theorem Canonical.leavePort {s : State} {e cause} (hs : Canonical s) :
    Canonical (State.leavePort s e cause) := by
  grind [State.leavePort, Canonical.foldl, Canonical.setEp, Canonical.setCirc]

theorem Canonical.untrusted {s : State} {c peer} (hs : Canonical s) :
    Canonical (State.untrusted s c peer) := by
  grind [State.untrusted, Canonical.setLink, Canonical.raiseAt]

theorem Canonical.make {s : State} {w tree} (hs : Canonical s) : Canonical (State.make s w tree) := by
  grind [State.make, Canonical.foldl, Canonical.report, Canonical.abandon, Canonical.setCirc,
    Canonical.setEp, Canonical.untrusted, Canonical.train, Canonical.pairUse]

theorem Canonical.failMake {s : State} {c cause e} (hs : Canonical s) :
    Canonical (s.failMake c cause e) := by
  cases e <;> grind [State.failMake, Canonical.failCircuit, Canonical.raiseAt]

theorem Canonical.resolveMake {s : State} {c} (hs : Canonical s) : Canonical (s.resolveMake c) := by
  unfold State.resolveMake
  dsimp only
  split
  · exact hs
  · refine Canonical.ite hs.failMake (Canonical.ite hs.failMake
      (Canonical.ite hs.failMake (Canonical.ite hs.failMake (Canonical.ite hs.failMake ?_))))
    split
    · exact hs.failMake
    · refine Canonical.ite (Canonical.raiseAt (Canonical.setCirc ?h)) (Canonical.setCirc ?h)
      exact Canonical.foldl (hs.foldl fun s e h => Canonical.ite h.setEp h) fun s e h => h.setEp

theorem Canonical.makeObserved {s : State} {c obs} (hs : Canonical s) :
    Canonical (State.makeObserved s c obs) := by
  grind [State.makeObserved, Canonical.setCirc, Canonical.resolveMake]

@[simp] theorem Canonical.execCircuitMakeResolve {c obs} {s : State} (hs : Canonical s) :
    OutCanonical (execCircuitMakeResolve c obs s) :=
  hs.makeObserved

theorem Canonical.breakComplete {s : State} {c} (hs : Canonical s) : Canonical (State.breakComplete s c) :=
  .ite hs.breakDone hs

@[simp] theorem Canonical.execCircuitBreakComplete {c} {s : State} (hs : Canonical s) :
    OutCanonical (execCircuitBreakComplete c s) :=
  hs.breakComplete

theorem Canonical.prep {s : State} {route} (hs : Canonical s) : Canonical (State.prep s route) := by
  grind [State.prep, Canonical.foldl, Canonical.pairUse, Canonical.train]

theorem Canonical.loseLock {s : State} {e wl rx} (hs : Canonical s) :
    Canonical (State.loseLock s e wl rx) := by
  grind [State.loseLock, Canonical.leavePort, Canonical.setEp, Canonical.once, Canonical.raiseAt]

@[simp] theorem Canonical.execLossOfLock {ep wl rx} {s : State} (hs : Canonical s) :
    OutCanonical (execLossOfLock ep wl rx s) :=
  hs.loseLock

theorem Canonical.mapSpare {s : State} {e wl} (hs : Canonical s) : Canonical (State.mapSpare s e wl) := by
  grind [State.mapSpare, Canonical.clearEntries, Canonical.leavePort, Canonical.restartFar, Canonical.once,
    Canonical.setEp]

@[simp] theorem Canonical.execSpareWavelengthMapping {ep wl} {s : State} (hs : Canonical s) :
    OutCanonical (execSpareWavelengthMapping ep wl s) :=
  hs.mapSpare

theorem Canonical.switchSource {s : State} {j spare byRepl} (hs : Canonical s) :
    Canonical (State.switchSource s j spare byRepl) := by
  grind [State.switchSource, Canonical.foldl, Canonical.setLaser, Canonical.clearEntries,
    Canonical.restartFar, Canonical.once, Canonical.setEp]

theorem Canonical.spareSwitch {s : State} {j} (hs : Canonical s) : Canonical (State.spareSwitch s j) :=
  .ite hs.switchSource hs

theorem Canonical.peerSwitch {s : State} {peer j} (hs : Canonical s) :
    Canonical (State.peerSwitch s peer j) :=
  hs.foldl fun _ _ h => h.leavePort.clearEntries

@[simp] theorem Canonical.execSpareSourceSwitch {site} {s : State} (hs : Canonical s) :
    OutCanonical (execSpareSourceSwitch site s) := by
  cases site with
  | here j => exact hs.spareSwitch
  | peer m j => exact hs.peerSwitch

theorem Canonical.failSource {s : State} {j} (hs : Canonical s) : Canonical (State.failSource s j) := by
  grind [State.failSource, Canonical.foldl, Canonical.leavePort, Canonical.setLaser, Canonical.once,
    Canonical.raiseAt, Canonical.setEp]

@[simp] theorem Canonical.execSourceFailure {src} {s : State} (hs : Canonical s) :
    OutCanonical (execSourceFailure src s) :=
  hs.failSource

theorem Canonical.writeWlmap {s : State} {e v} (hs : Canonical s) : Canonical (State.writeWlmap s e v) := by
  grind [State.writeWlmap, Canonical.leavePort, Canonical.restartFar, Canonical.trainNext,
    Canonical.clearEntries, Canonical.setEp]

@[simp] theorem Canonical.execWlmapWrite {ep v} {s : State} (hs : Canonical s) :
    OutCanonical (execWlmapWrite ep v s) :=
  .ite hs.writeWlmap hs

theorem Canonical.spareTakes {s : State} {j} (hs : Canonical s) : Canonical (State.spareTakes s j) :=
  .ite hs.switchSource hs

theorem Canonical.writeLaserctl {s : State} {j v} (hs : Canonical s) :
    Canonical (State.writeLaserctl s j v) := by
  grind [State.writeLaserctl, canonical_mk, memoriesOk_self, Canonical.foldl, Canonical.leavePort,
    Canonical.once, Canonical.setLaser, Canonical.spareTakes]

@[simp] theorem Canonical.execLaserctlWrite {src v} {s : State} (hs : Canonical s) :
    OutCanonical (execLaserctlWrite src v s) :=
  .ite hs.writeLaserctl hs

theorem Canonical.laserLocked {s : State} {j ok} (hs : Canonical s) :
    Canonical (State.laserLocked s j ok) := by
  grind [State.laserLocked, Canonical.setLaser, Canonical.spareTakes]

@[simp] theorem Canonical.execLaserLockEnd {src ok} {s : State} (hs : Canonical s) :
    OutCanonical (execLaserLockEnd src ok s) :=
  hs.laserLocked

@[simp] theorem Canonical.execLaserPowerControl {src} {s : State} (hs : Canonical s) :
    OutCanonical (execLaserPowerControl src s) :=
  .ite hs.setLaser hs

@[simp] theorem Canonical.execRingThermalLock {_ep} {s : State} (hs : Canonical s) :
    OutCanonical (execRingThermalLock _ep s) :=
  hs

theorem Canonical.pbBegin {s : State} {e op wlm farep k} (hs : Canonical s) (hk : ∀ p, Canonical (k p)) :
    Canonical (s.pbBegin e op wlm farep k) := by
  grind [State.pbBegin, Canonical.setEp]

theorem Canonical.pbLock {s : State} {e wlm} (hs : Canonical s) : Canonical (State.pbLock s e wlm) := by
  grind [State.pbLock, Canonical.pbBegin, Canonical.once, Canonical.setEp]

theorem Canonical.pbTrain {s : State} {e wlm farep} (hs : Canonical s) :
    Canonical (State.pbTrain s e wlm farep) := by
  grind [State.pbTrain, Canonical.pbBegin, Canonical.once, Canonical.setEp]

theorem Canonical.pbFast {s : State} {e wlm farep} (hs : Canonical s) :
    Canonical (State.pbFast s e wlm farep) := by
  grind [State.pbFast, Canonical.pbBegin, Canonical.once, Canonical.setEp]

theorem Canonical.pbAbort {s : State} {e} (hs : Canonical s) : Canonical (State.pbAbort s e) := by
  grind [State.pbAbort, Canonical.pbBegin, Canonical.setEp]

@[simp] theorem Canonical.execPbLock {ep wlm} {s : State} (hs : Canonical s) :
    OutCanonical (execPbLock ep wlm s) :=
  hs.pbLock

@[simp] theorem Canonical.execPbTrain {ep wlm farep} {s : State} (hs : Canonical s) :
    OutCanonical (execPbTrain ep wlm farep s) :=
  hs.pbTrain

@[simp] theorem Canonical.execPbFast {ep wlm farep} {s : State} (hs : Canonical s) :
    OutCanonical (execPbFast ep wlm farep s) :=
  hs.pbFast

@[simp] theorem Canonical.execPbAbort {ep} {s : State} (hs : Canonical s) :
    OutCanonical (execPbAbort ep s) :=
  hs.pbAbort

theorem Canonical.lockEnd {s : State} {e failed} (hs : Canonical s) :
    Canonical (State.lockEnd s e failed) := by
  grind [State.lockEnd, Canonical.trainNext, Canonical.setEp]

@[simp] theorem Canonical.execLockEnd {ep failed} {s : State} (hs : Canonical s) :
    OutCanonical (execLockEnd ep failed s) :=
  hs.lockEnd

theorem Canonical.trainEnd {s : State} {e obs} (hs : Canonical s) : Canonical (State.trainEnd s e obs) := by
  grind [State.trainEnd, Canonical.trainNext, Canonical.setEp]

@[simp] theorem Canonical.execTrainEnd {ep obs} {s : State} (hs : Canonical s) :
    OutCanonical (execTrainEnd ep obs s) :=
  hs.trainEnd

theorem Canonical.peerReset {s : State} {peer} (hs : Canonical s) : Canonical (State.peerReset s peer) := by
  grind [State.peerReset, canonical_mk, memoriesOk_self, Canonical.foldl, Canonical.setLink,
    Canonical.raiseAt]

@[simp] theorem Canonical.execPeerReset {peer} {s : State} (hs : Canonical s) :
    OutCanonical (execPeerReset peer s) :=
  hs.peerReset

theorem Canonical.measured {s : State} {peer m digest} (hs : Canonical s) :
    Canonical (State.measured s peer m digest) := by
  grind [State.measured, Canonical.setLink, Canonical.raiseAt]

@[simp] theorem Canonical.execMeasurementEnd {peer m digest} {s : State} (hs : Canonical s) :
    OutCanonical (execMeasurementEnd peer m digest s) :=
  hs.measured

theorem Canonical.clearTrust {s : State} {peer} (hs : Canonical s) : Canonical (State.clearTrust s peer) :=
  .ite hs.setLink hs

theorem Canonical.keyUpdate {s : State} {peer} (hs : Canonical s) : Canonical (State.keyUpdate s peer) :=
  .ite hs hs.setLink

@[simp] theorem Canonical.execKeyUpdate {peer} {s : State} (hs : Canonical s) :
    OutCanonical (execKeyUpdate peer s) :=
  hs.keyUpdate

theorem Canonical.countUpdates {s : State} {peer} (hs : Canonical s) :
    Canonical (State.countUpdates s peer) := by
  grind [State.countUpdates, Canonical.once, Canonical.setLink]

theorem Canonical.keyWindow {s : State} {peer} (hs : Canonical s) : Canonical (State.keyWindow s peer) := by
  grind [State.keyWindow, Canonical.setLink]

@[simp] theorem Canonical.execKeyPhaseWindowEnd {peer} {s : State} (hs : Canonical s) :
    OutCanonical (execKeyPhaseWindowEnd peer s) :=
  hs.keyWindow

theorem Canonical.remakeService {s : State} {peer} (hs : Canonical s) :
    Canonical (State.remakeService s peer) := by
  grind [State.remakeService, canonical_mk, memoriesOk_self, Canonical.setEp, Canonical.setLink]

@[simp] theorem Canonical.execServiceCircuitRemake {peer} {s : State} (hs : Canonical s) :
    OutCanonical (execServiceCircuitRemake peer s) :=
  hs.remakeService

/-! ### Boot, power, alarms, background activities -/

theorem Canonical.fence {s : State} {mask} (hs : Canonical s) : Canonical (State.fence s mask) := by
  grind [State.fence, canonical_mk, memoriesOk_self, Canonical.foldl, Canonical.setTile]

theorem Canonical.bootService {s : State} {peers} (hs : Canonical s) :
    Canonical (State.bootService s peers) := by
  grind [State.bootService, Canonical.foldl, Canonical.setLink, Canonical.setEp]

theorem Canonical.bootOptics {s : State} {obs} (hs : Canonical s) : Canonical (State.bootOptics s obs) :=
  (canonical_mk.2 ((memoriesOk_self _).2 hs)).bootService

theorem Canonical.bootTrust {s : State} {obs} (hs : Canonical s) : Canonical (State.bootTrust s obs) := by
  grind [State.bootTrust, canonical_mk, memoriesOk_self, Canonical.foldl, Canonical.setLink,
    Canonical.raiseAt]

theorem Canonical.bootAct {s : State} {obs n alt} (hs : Canonical s) : Canonical (s.bootAct obs n alt) := by
  unfold State.bootAct
  dsimp only
  split
  case h_4 =>
    split_ifs
    · exact canonical_iff.2 ⟨hs.mem, fun e he => (canonical_iff.1 hs).2.1 e (List.mem_of_mem_filter he),
        (canonical_iff.1 hs).2.2⟩
    · exact canonical_iff.2 ⟨hs.mem, (canonical_iff.1 hs).2⟩
  all_goals grind [canonical_mk, memoriesOk_self, Canonical.fence, Canonical.bootOptics,
    Canonical.bootTrust]

theorem Canonical.recoveryMode {s : State} {obs} (hs : Canonical s) :
    Canonical (State.recoveryMode s obs) :=
  canonical_mk.2 ((memoriesOk_self _).2 hs.bootOptics)

theorem Canonical.bootStep {s : State} {obs n} (hs : Canonical s) :
    Canonical (State.bootStep s obs n).2 := by
  grind [State.bootStep, canonical_mk, memoriesOk_self, Canonical.bootAct, Canonical.recoveryMode]

theorem Canonical.bootFrom {obs steps} {s : State} (hs : Canonical s) :
    Canonical (State.bootFrom obs steps s) := by
  induction steps generalizing s <;> grind [State.bootFrom, Canonical.bootStep]

theorem Canonical.resetModule {s : State} (hs : Canonical s) : Canonical s.resetModule :=
  canonical_iff.2 ⟨Memory.wf_filter hs.mem _, hs.keptLinings, hs.keptTileLinings⟩

theorem Canonical.reboot {s : State} {obs} (hs : Canonical s) : Canonical (State.reboot s obs) := by
  grind [State.reboot, canonical_mk, memoriesOk_self, Canonical.resetModule, Canonical.bootFrom]

@[simp] theorem Canonical.execModuleReset {obs} {s : State} (hs : Canonical s) :
    OutCanonical (execModuleReset obs s) :=
  hs.reboot

@[simp] theorem Canonical.execModulePowerLoss {s : State} (hs : Canonical s) :
    OutCanonical (execModulePowerLoss s) :=
  canonical_iff.2 ⟨Memory.wf_filter hs.mem _, hs.keptLinings, hs.keptTileLinings⟩

@[simp] theorem Canonical.execAlarmTrip {sensor} {s : State} (hs : Canonical s) :
    OutCanonical (execAlarmTrip sensor s) :=
  .ite hs.trip hs

@[simp] theorem Canonical.execHbmRefresh {_tile _bank} {s : State} (hs : Canonical s) :
    OutCanonical (execHbmRefresh _tile _bank s) :=
  hs

@[simp] theorem Canonical.execTelemetrySampling {s : State} (hs : Canonical s) :
    OutCanonical (execTelemetrySampling s) :=
  hs

@[simp] theorem Canonical.execMramScrub {_tile _core} {s : State} (hs : Canonical s) :
    OutCanonical (execMramScrub _tile _core s) :=
  hs

theorem Canonical.scrub {s : State} {tile granule err} (hs : Canonical s) :
    Canonical (State.scrub s tile granule err) :=
  .ite hs hs.granuleError

@[simp] theorem Canonical.execPatrolScrub {tile granule err} {s : State} (hs : Canonical s) :
    OutCanonical (execPatrolScrub tile granule err s) :=
  hs.scrub

/-! ### The 16-bit forms -/

theorem Canonical.compact {d f} {s : State} (hs : Canonical s) : OutCanonical (compact d f s) := by
  exact hs.issue fun _ h => h.setX

@[simp] theorem Canonical.execCNop {s : State} (hs : Canonical s) : OutCanonical (execCNop s) :=
  hs.issue fun _ h => h

@[simp] theorem Canonical.execCTkw {imm} {s : State} (hs : Canonical s) : OutCanonical (execCTkw imm s) :=
  hs.issue fun _ h => h.tkwBody

@[simp] theorem Canonical.execCTkp {imm} {s : State} (hs : Canonical s) : OutCanonical (execCTkp imm s) :=
  hs.issue fun _ h => h.tkpBody

@[simp] theorem Canonical.execCBz {d imm} {s : State} (hs : Canonical s) :
    OutCanonical (execCBz d imm s) := by
  grind [execCBz, Eff.state, Canonical.issue, Canonical.land]

@[simp] theorem Canonical.execCBnz {d imm} {s : State} (hs : Canonical s) :
    OutCanonical (execCBnz d imm s) := by
  grind [execCBnz, Eff.state, Canonical.issue, Canonical.land]

@[simp] theorem Canonical.execCEnd {s : State} (hs : Canonical s) : OutCanonical (execCEnd s) := by
  grind [execCEnd, Eff.state, OutCanonical.afterEnd, Canonical.issue, Canonical.endStream]

/-! ### Translation controls -/

theorem Canonical.invalidate {s : State} {tile vpn} (hs : Canonical s) :
    Canonical (State.invalidate s tile vpn) := by
  cases vpn <;> grind [State.invalidate, Canonical.foldl, Canonical.once, Canonical.setTile]

@[simp] theorem Canonical.execInvalidatePage {tile vpn} {s : State} (hs : Canonical s) :
    OutCanonical (execInvalidatePage tile vpn s) :=
  hs.invalidate

@[simp] theorem Canonical.execInvalidateAll {tile} {s : State} (hs : Canonical s) :
    OutCanonical (execInvalidateAll tile s) :=
  hs.invalidate

@[simp] theorem Canonical.execHubInvalidatePage {vpn} {s : State} (hs : Canonical s) :
    OutCanonical (execHubInvalidatePage vpn s) :=
  hs.invalidate

@[simp] theorem Canonical.execHubInvalidateAll {s : State} (hs : Canonical s) :
    OutCanonical (execHubInvalidateAll s) :=
  hs.invalidate

theorem Canonical.invalidated {s : State} {tile} (hs : Canonical s) :
    Canonical (State.invalidated s tile) := by
  grind [State.invalidated, Canonical.foldl, Canonical.again, Canonical.settleCore, Canonical.setTile]

@[simp] theorem Canonical.execInvalidationComplete {tile} {s : State} (hs : Canonical s) :
    OutCanonical (execInvalidationComplete tile s) :=
  hs.invalidated

theorem Canonical.migrate {s : State} {tile va ppn} (hs : Canonical s) :
    Canonical (s.migrate tile va ppn) := by
  have hm := (memoriesOk_self s).2 hs
  unfold State.migrate
  dsimp only
  split
  · exact hs
  · refine Canonical.ite hs (Canonical.ite ?_ (Canonical.ite hs ?_))
    · exact Canonical.invalidate (canonical_mk.2 hm.writeNat)
    · exact Canonical.invalidate (canonical_mk.2 hm.copyRange.writeNat)

theorem Canonical.writeRoot {s : State} {tile v} (hs : Canonical s) :
    Canonical (State.writeRoot s tile v) :=
  hs.setTile.invalidate

@[simp] theorem Canonical.execPtrootWrite {tile v} {s : State} (hs : Canonical s) :
    OutCanonical (execPtrootWrite tile v s) :=
  hs.writeRoot

@[simp] theorem Canonical.execHptrootWrite {v} {s : State} (hs : Canonical s) :
    OutCanonical (execHptrootWrite v s) :=
  hs.writeRoot

theorem Canonical.writeSplit {s : State} {tile v} (hs : Canonical s) :
    Canonical (State.writeSplit s tile v) := by
  grind [State.writeSplit, Canonical.once, Canonical.setTile]

@[simp] theorem Canonical.execMsplitWrite {tile v} {s : State} (hs : Canonical s) :
    OutCanonical (execMsplitWrite tile v s) :=
  hs.writeSplit

theorem Canonical.changeSplit {s : State} {tile} (hs : Canonical s) : Canonical (s.changeSplit tile) := by
  unfold State.changeSplit
  dsimp only
  split
  · exact hs
  · refine Canonical.ite hs.again ?_
    generalize hf : List.foldl _ s (List.range 8) = u
    have hu : Canonical u := by
      rw [← hf]
      exact hs.foldl fun s c h => h.settleCore
    exact canonical_mk.2 ((memoriesOk_self _).2 hu.setTile).zero

@[simp] theorem Canonical.execSplitChange {tile} {s : State} (hs : Canonical s) :
    OutCanonical (execSplitChange tile s) :=
  hs.changeSplit

/-! ### Device registers -/

theorem Canonical.logDev {s : State} {a} (hs : Canonical s) : Canonical (State.logDev s a) :=
  canonical_mk.2 ((memoriesOk_self _).2 hs)

theorem Canonical.translateCmd {s : State} {t v} (hs : Canonical s) :
    Canonical (State.translateCmd s t v) := by
  grind [State.translateCmd, Canonical.invalidate]

theorem Canonical.walkerCmd {s : State} {t v} (hs : Canonical s) : Canonical (State.walkerCmd s t v) := by
  grind [State.walkerCmd, Canonical.walkStart, Canonical.walkStop, Canonical.preempt, Canonical.resume,
    Canonical.enter, Canonical.kill]

theorem Canonical.walkerCommand {s : State} {t} (hs : Canonical s) :
    Canonical (State.walkerCommand s t) := by
  grind [State.walkerCommand, Canonical.walkerCmd, Canonical.setTile]

theorem Canonical.portCmd {s : State} {e v} (hs : Canonical s) : Canonical (State.portCmd s e v) := by
  grind [State.portCmd, Canonical.pbLock, Canonical.pbTrain, Canonical.pbFast, Canonical.pbAbort]

theorem Canonical.writeReg {s : State} {r v} (hs : Canonical s) : Canonical (s.writeReg r v) := by
  cases r <;> grind [State.writeReg, canonical_mk, memoriesOk_self, Canonical.foldl, Canonical.writeRoot,
    Canonical.translateCmd, Canonical.later, Canonical.writeSplit, Canonical.setTile, Canonical.soon,
    Canonical.writeWlmap, Canonical.writeLaserctl, Canonical.portCmd, Canonical.setEp]

theorem Canonical.devRead {s : State} {off} (hs : Canonical s) : Canonical (State.devRead s off).2 := by
  grind [State.devRead, Canonical.logDev]

theorem Canonical.devStore {s : State} {off lo bytes v} (hs : Canonical s) :
    ∀ t, State.devStore s off lo bytes v = some t → Canonical t := by
  grind [State.devStore, Canonical.logDev, Canonical.writeReg]

@[simp] theorem Canonical.execRegisterWrite {s : State} {offset v} (hs : Canonical s) :
    OutCanonical (execRegisterWrite offset v s) :=
  hs.ite (Canonical.getD (fun _ h => hs.devStore _ h) hs)

end Sys2Proof.Claims
end

section
/-!
O58, continued: loads and stores, the sequencer, launch and the mailbox.
-/
namespace Sys2Proof.Claims
open Sys2Proof.Machine

/-! ### Loads, stores, handle instructions -/

theorem Canonical.loadBytes {s : State} {core space pol na a n} (hs : Canonical s) :
    Canonical (State.loadBytes s core space pol na a n).2 := by
  grind [State.loadBytes, Canonical.dropLines, Canonical.fillLine]

theorem Canonical.loadBody {d m f bytes signed dev} {s : State} (hs : Canonical s) :
    Canonical (loadBody d m f bytes signed dev s).state := by
  grind [loadBody, Eff.state, Canonical.andThen, Canonical.checkMem, Canonical.devRead, Canonical.setX,
    Canonical.performCore, Canonical.loadBytes]

theorem Canonical.storeEntry {s : State} {p space through fill e a} (hs : Canonical s) :
    Canonical (State.storeEntry s p space through fill e a) := by
  grind [State.storeEntry, Canonical.performEntry, Canonical.drainCore, Canonical.later, Canonical.setAux,
    Canonical.updateLine, Canonical.fillLine]

theorem Canonical.storeBody {d m f bytes dev} {s : State} (hs : Canonical s) :
    Canonical (storeBody d m f bytes dev s).state := by
  grind [storeBody, Eff.state, Canonical.andThen, Canonical.checkMem, → Canonical.devStore,
    Canonical.storeEntry, Canonical.performCore]

@[simp] theorem Canonical.execLdb {d m f t} {s : State} (hs : Canonical s) :
    OutCanonical (execLdb d m f t s) :=
  hs.issueX fun _ h => h.loadBody

@[simp] theorem Canonical.execLdh {d m f t} {s : State} (hs : Canonical s) :
    OutCanonical (execLdh d m f t s) :=
  hs.issueX fun _ h => h.loadBody

@[simp] theorem Canonical.execLdw {d m f t} {s : State} (hs : Canonical s) :
    OutCanonical (execLdw d m f t s) :=
  hs.issueX fun _ h => h.loadBody

@[simp] theorem Canonical.execLdd {d m f t} {s : State} (hs : Canonical s) :
    OutCanonical (execLdd d m f t s) :=
  hs.issueX fun _ h => h.loadBody

@[simp] theorem Canonical.execLdbs {d m f t} {s : State} (hs : Canonical s) :
    OutCanonical (execLdbs d m f t s) :=
  hs.issueX fun _ h => h.loadBody

@[simp] theorem Canonical.execLdhs {d m f t} {s : State} (hs : Canonical s) :
    OutCanonical (execLdhs d m f t s) :=
  hs.issueX fun _ h => h.loadBody

@[simp] theorem Canonical.execLdws {d m f t} {s : State} (hs : Canonical s) :
    OutCanonical (execLdws d m f t s) :=
  hs.issueX fun _ h => h.loadBody

@[simp] theorem Canonical.execStb {d m f t} {s : State} (hs : Canonical s) :
    OutCanonical (execStb d m f t s) :=
  hs.issueX fun _ h => h.storeBody

@[simp] theorem Canonical.execSth {d m f t} {s : State} (hs : Canonical s) :
    OutCanonical (execSth d m f t s) :=
  hs.issueX fun _ h => h.storeBody

@[simp] theorem Canonical.execStw {d m f t} {s : State} (hs : Canonical s) :
    OutCanonical (execStw d m f t s) :=
  hs.issueX fun _ h => h.storeBody

@[simp] theorem Canonical.execStd {d m f t} {s : State} (hs : Canonical s) :
    OutCanonical (execStd d m f t s) :=
  hs.issueX fun _ h => h.storeBody

@[simp] theorem Canonical.execHld {d a imm t} {s : State} (hs : Canonical s) :
    OutCanonical (execHld d a imm t s) := by
  grind [execHld, Eff.state, outCanonical_fault, Canonical.issueX, Canonical.xlate, Canonical.streamFault,
    Canonical.performCore, Canonical.setHandle, Canonical.dropLines]

@[simp] theorem Canonical.execHinfo {d a f t} {s : State} (hs : Canonical s) :
    OutCanonical (execHinfo d a f t s) :=
  hs.issue fun _ h => h.setX

@[simp] theorem Canonical.execHsub {d a b f t} {s : State} (hs : Canonical s) :
    OutCanonical (execHsub d a b f t s) := by
  grind [execHsub, Eff.state, Canonical.issue, Canonical.setHandle]

@[simp] theorem Canonical.execPref {m t} {s : State} (hs : Canonical s) :
    OutCanonical (execPref m t s) := by
  refine hs.issueX fun s hs => ?_
  dsimp only
  split
  · next h => grind [Eff.state, Chk.state, Canonical.checkMem, Canonical.fillLine]
  · exact hs

@[simp] theorem Canonical.execPrefL2 {_m t} {s : State} (hs : Canonical s) :
    OutCanonical (execPrefL2 _m t s) :=
  hs.issueX fun _ h => h

theorem Canonical.cinvBody {d m} {s : State} (hs : Canonical s) : Canonical (cinvBody d m s).state :=
  hs.dropRuns

@[simp] theorem Canonical.execCinv {d m t} {s : State} (hs : Canonical s) :
    OutCanonical (execCinv d m t s) :=
  hs.issueX fun _ h => h.cinvBody

@[simp] theorem Canonical.execCinvL2 {d m t} {s : State} (hs : Canonical s) :
    OutCanonical (execCinvL2 d m t s) :=
  hs.issueX fun _ h => h.cinvBody

/-! ### The fabric sequencer -/

theorem Canonical.seqNext {s : State} {n} (hs : Canonical s) : Canonical (State.seqNext s n) :=
  canonical_mk.2 ((memoriesOk_self _).2 hs)

theorem Canonical.closePhase {s : State} (hs : Canonical s) : Canonical (State.closePhase s) := by
  grind [State.closePhase, canonical_mk, memoriesOk_self, Canonical.foldl, Canonical.overrun]

theorem Canonical.phaseEnds {s : State} (hs : Canonical s) : Canonical (State.phaseEnds s) := by
  grind [State.phaseEnds, Canonical.closePhase]

@[simp] theorem Canonical.execPhaseEnd {s : State} (hs : Canonical s) : OutCanonical (execPhaseEnd s) :=
  hs.phaseEnds

theorem Canonical.seqAlign {s : State} (hs : Canonical s) : Canonical (State.seqAlign s) :=
  canonical_mk.2 ((memoriesOk_self _).2 hs.seqNext)

theorem Canonical.seqPhase {s : State} {n} (hs : Canonical s) : Canonical (State.seqPhase s n) := by
  grind [State.seqPhase, canonical_mk, memoriesOk_self, Canonical.closePhase, Canonical.seqNext]

theorem Canonical.seqMake {s : State} {w tree} (hs : Canonical s) : Canonical (State.seqMake s w tree) :=
  hs.make.seqNext

theorem Canonical.seqBreak {s : State} {c} (hs : Canonical s) : Canonical (State.seqBreak s c) :=
  hs.breakCircuit.seqNext

theorem Canonical.seqPrep {s : State} {route} (hs : Canonical s) : Canonical (State.seqPrep s route) :=
  hs.prep.seqNext

theorem Canonical.seqWait {s : State} {n} (hs : Canonical s) : Canonical (State.seqWait s n) :=
  hs.seqNext

theorem Canonical.seqSigt {s : State} {sel tile core v} (hs : Canonical s) :
    Canonical (State.seqSigt s sel tile core v) := by
  grind [State.seqSigt, Canonical.seqNext, Canonical.semAdd, Canonical.later]

theorem Canonical.breakAll {s : State} (hs : Canonical s) : Canonical (State.breakAll s) :=
  hs.foldl fun _ _ h => h.breakCircuit

theorem Canonical.seqPause {s : State} (hs : Canonical s) : Canonical (State.seqPause s) := by
  grind [State.seqPause, canonical_mk, memoriesOk_self, Canonical.seqNext, Canonical.breakAll]

theorem Canonical.seqLoop {s : State} {n} (hs : Canonical s) : Canonical (State.seqLoop s n) :=
  canonical_mk.2 ((memoriesOk_self _).2 hs.seqNext)

theorem Canonical.seqNextWord {s : State} (hs : Canonical s) : Canonical (State.seqNextWord s) := by
  grind [State.seqNextWord, canonical_mk, memoriesOk_self, Canonical.seqNext]

theorem Canonical.seqChunk {s : State} {c plan step} (hs : Canonical s) :
    Canonical (State.seqChunk s c plan step) :=
  hs.chunkStep.seqNext

theorem Canonical.seqEnd {s : State} (hs : Canonical s) : Canonical (State.seqEnd s) :=
  canonical_mk.2 ((memoriesOk_self _).2 hs.breakAll)

theorem Canonical.word {s : State} {f} (hs : Canonical s) (hf : ∀ s, Canonical s → Canonical (f s)) :
    OutCanonical (s.word f) := by
  grind [State.word, outCanonical_next]

@[simp] theorem Canonical.execSqAlign {s : State} (hs : Canonical s) : OutCanonical (execSqAlign s) :=
  hs.word fun _ h => h.seqAlign

@[simp] theorem Canonical.execSqPhase {n} {s : State} (hs : Canonical s) : OutCanonical (execSqPhase n s) :=
  hs.word fun _ h => h.seqPhase

@[simp] theorem Canonical.execSqMake {w} {s : State} (hs : Canonical s) : OutCanonical (execSqMake w s) :=
  hs.word fun _ h => h.seqMake

@[simp] theorem Canonical.execSqTree {w} {s : State} (hs : Canonical s) : OutCanonical (execSqTree w s) :=
  hs.word fun _ h => h.seqMake

@[simp] theorem Canonical.execSqBreak {c} {s : State} (hs : Canonical s) : OutCanonical (execSqBreak c s) :=
  hs.word fun _ h => h.seqBreak

@[simp] theorem Canonical.execSqPrep {route} {s : State} (hs : Canonical s) :
    OutCanonical (execSqPrep route s) :=
  hs.word fun _ h => h.seqPrep

@[simp] theorem Canonical.execSqWait {n} {s : State} (hs : Canonical s) : OutCanonical (execSqWait n s) :=
  hs.word fun _ h => h.seqWait

@[simp] theorem Canonical.execSqSigt {sel tile core addend} {s : State} (hs : Canonical s) :
    OutCanonical (execSqSigt sel tile core addend s) :=
  hs.word fun _ h => h.seqSigt

@[simp] theorem Canonical.execSqLoop {n} {s : State} (hs : Canonical s) : OutCanonical (execSqLoop n s) :=
  hs.word fun _ h => h.seqLoop

@[simp] theorem Canonical.execSqNext {s : State} (hs : Canonical s) : OutCanonical (execSqNext s) :=
  hs.word fun _ h => h.seqNextWord

@[simp] theorem Canonical.execSqChunk {c plan step} {s : State} (hs : Canonical s) :
    OutCanonical (execSqChunk c plan step s) :=
  hs.word fun _ h => h.seqChunk

@[simp] theorem Canonical.execSequencerEnd {s : State} (hs : Canonical s) :
    OutCanonical (execSequencerEnd s) :=
  hs.word fun _ h => h.seqEnd

@[simp] theorem Canonical.execSqPausept {s : State} (hs : Canonical s) :
    OutCanonical (execSqPausept s) := by
  grind [execSqPausept, canonical_mk, memoriesOk_self, outCanonical_next, Canonical.seqPause]

@[simp] theorem Canonical.execPauseResume {s : State} (hs : Canonical s) :
    OutCanonical (execPauseResume s) := by
  grind [execPauseResume, canonical_mk, memoriesOk_self, outCanonical_next, outCanonical_refused]

theorem Canonical.seqStep {s : State} (hs : Canonical s) : Canonical (State.seqStep s) := by
  grind [State.seqStep, Canonical.seqAlign, Canonical.seqPhase, Canonical.seqMake, Canonical.seqBreak,
    Canonical.seqPrep, Canonical.seqWait, Canonical.seqSigt, Canonical.seqPause, Canonical.seqLoop,
    Canonical.seqNextWord, Canonical.seqChunk, Canonical.seqEnd]

theorem Canonical.alarmActs {s : State} {level} (hs : Canonical s) :
    Canonical (State.alarmActs s level) := by
  grind [State.alarmActs, canonical_mk, memoriesOk_self, Canonical.foldl, Canonical.breakAll,
    Canonical.soon]

theorem Canonical.circuitDue {s : State} {c} (hs : Canonical s) : Canonical (State.circuitDue s c) := by
  grind [State.circuitDue, Canonical.failCircuit, Canonical.setCirc, Canonical.resolveMake,
    Canonical.breakDone]

theorem Canonical.boundary {s : State} (hs : Canonical s) : Canonical (State.boundary s) := by
  grind [State.boundary, Canonical.foldl, Canonical.acksCome, Canonical.circuitDue, Canonical.alarmActs,
    Canonical.phaseEnds, Canonical.seqStep, Canonical.countUpdates, Canonical.keyWindow]

theorem Canonical.passTo {target fuel} {s : State} (hs : Canonical s) :
    Canonical (State.passTo target fuel s) := by
  induction fuel generalizing s <;> grind
    [State.passTo, canonical_mk, memoriesOk_self, Canonical.flitsLeave, Canonical.boundary]

theorem Canonical.passTime {s : State} {n} (hs : Canonical s) : Canonical (State.passTime s n) :=
  hs.passTo

theorem Canonical.alignReleased {s : State} {high} (hs : Canonical s) :
    Canonical (State.alignReleased s high) := by
  grind [State.alignReleased, canonical_mk, memoriesOk_self, Canonical.foldl, Canonical.again,
    Canonical.walkStart, Canonical.boundary]

@[simp] theorem Canonical.execAlignRelease {high} {s : State} (hs : Canonical s) :
    OutCanonical (execAlignRelease high s) :=
  hs.alignReleased

/-! ### Launch -/

theorem Canonical.createGroup {s : State} {d others} (hs : Canonical s) :
    Canonical (State.createGroup s d others).2 := by
  grind [State.createGroup, canonical_mk, memoriesOk_self]

theorem Canonical.deleteGroup {s : State} {id} (hs : Canonical s) :
    Canonical (State.deleteGroup s id).2 := by
  grind [State.deleteGroup, canonical_mk, memoriesOk_self]

theorem wf_mapPage {va leaf levels base} {q : Nat × Memory} (hq : Memory.wf q.2) :
    Memory.wf (mapPage va leaf levels base q).2 := by
  fun_induction mapPage va leaf levels base q with
  | case1 => exact hq
  | case2 => exact Memory.wf_writeNat hq _ _ _
  | case3 => grind
  | case4 _ _ _ _ _ _ _ _ _ _ ih => exact ih (Memory.wf_writeNat (Memory.wf_zero hq _ _) _ _ _)

theorem Memory.wf_foldl {α : Type} {f : Memory → α → Memory} {as : List α} {m : Memory} (h : Memory.wf m)
    (hf : ∀ m a, Memory.wf m → Memory.wf (f m a)) :
    Memory.wf (as.foldl f m) := by
  induction as generalizing m with
  | nil => exact h
  | cons a r ih => exact ih (hf m a h)

theorem Memory.wf_foldl_snd {α β : Type} {f : β × Memory → α → β × Memory} {as : List α} {b : β}
    {m : Memory} (h : Memory.wf m)
    (hf : ∀ b m a, Memory.wf m → Memory.wf (f (b, m) a).2) : Memory.wf (as.foldl f (b, m)).2 := by
  induction as generalizing b m with
  | nil => exact h
  | cons a r ih => exact ih (hf b m a h)

theorem Canonical.placeTile {img ps root} {s : State} {t} (hs : Canonical s) :
    Canonical (State.placeTile img ps root s t) := by
  unfold Machine.State.placeTile
  dsimp only
  refine canonical_mk.2 (MemoriesOk.of_mem ((memoriesOk_self s).2 hs) fun _ =>
    Memory.wf_foldl ?_ fun m p hm => Memory.wf_foldl hm fun m v hm => Memory.wf_writeBytes hm _ _)
  exact Memory.wf_foldl_snd (Memory.wf_zero hs.mem _ _) fun b m v hm => wf_mapPage (Memory.wf_zero hm _ _)

theorem Canonical.loadDirect {img tiles} {s : State} {x3} (hs : Canonical s) :
    Canonical (State.loadDirect img tiles s x3) := by
  grind [State.loadDirect, canonical_mk, memoriesOk_self, MemoriesOk.writeBytes, Canonical.foldl]

theorem Canonical.loadWindows {img tiles} {s : State} {x3} (hs : Canonical s) :
    Canonical (State.loadWindows img tiles s x3) := by
  grind [State.loadWindows, Canonical.foldl, Canonical.setTile]

theorem Canonical.loadSlots {ss obs tiles} {s : State} {t} (hs : Canonical s) :
    Canonical (State.loadSlots ss obs tiles s t) :=
  hs.foldl fun _ _ h => h.setRegs

theorem Canonical.loadGraph {ss tiles} {s : State} {t} (hs : Canonical s) :
    Canonical (State.loadGraph ss tiles s t) :=
  hs.setTile

theorem Canonical.launchFails {s : State} {code} (hs : Canonical s) :
    Canonical (State.launchFails s code).2.2 :=
  canonical_mk.2 ((memoriesOk_self _).2 hs)

theorem Canonical.launchRuns {s : State} {img obs ss tiles ps ws} (hs : Canonical s) :
    Canonical (State.launchRuns s img obs ss tiles ps ws) := by
  grind [State.launchRuns, canonical_mk, memoriesOk_self, Canonical.foldl, Canonical.placeTile,
    Canonical.setTile, Canonical.loadWindows, Canonical.loadDirect, Canonical.loadSlots,
    Canonical.loadGraph, Canonical.createGroup, Canonical.once]

theorem Canonical.launchTables {s : State} {img obs} (hs : Canonical s) :
    Canonical (State.launchTables s img obs).2.2 := by
  grind [State.launchTables, canonical_mk, memoriesOk_self, Canonical.launchFails, Canonical.launchRuns]

theorem Canonical.launch {s : State} {img obs} (hs : Canonical s) :
    Canonical (State.launch s img obs).2.2 := by
  grind [State.launch, Canonical.clearLining, Canonical.launchFails, Canonical.launchTables]

/-! ### The launch mailbox -/

theorem Canonical.endRequest {s : State} {code detail} (hs : Canonical s) :
    Canonical (State.endRequest s code detail) :=
  canonical_mk.2 ((memoriesOk_self _).2 hs)

theorem Canonical.served {s : State} {f} (hs : Canonical s) (hf : ∀ s, Canonical s → Canonical (f s)) :
    OutCanonical (s.served f) := by
  grind [State.served, outCanonical_next]

theorem Canonical.request {s : State} {f} (hs : Canonical s) (hf : ∀ s, Canonical s → Canonical (f s)) :
    OutCanonical (s.request f) :=
  hs.served fun s h => Canonical.ite h.endRequest (hf s h)

theorem Canonical.doLaunch {obs} {s : State} (hs : Canonical s) : Canonical (State.doLaunch obs s) :=
  hs.launch.endRequest

@[simp] theorem Canonical.execLaunch {obs} {s : State} (hs : Canonical s) :
    OutCanonical (execLaunch obs s) :=
  hs.request fun _ h => h.doLaunch

theorem Canonical.doCancel {s : State} (hs : Canonical s) : Canonical (State.doCancel s) := by
  grind [State.doCancel, canonical_mk, memoriesOk_self, Canonical.foldl, Canonical.endRequest,
    Canonical.walkStop, Canonical.seqEnd]

@[simp] theorem Canonical.execCancel {s : State} (hs : Canonical s) : OutCanonical (execCancel s) :=
  hs.request fun _ h => h.doCancel

theorem Canonical.doRecover {write} {s : State} (hs : Canonical s) : Canonical (s.doRecover write) := by
  cases write <;> grind [State.doRecover, canonical_mk, memoriesOk_self, Canonical.endRequest,
    Canonical.soon]

@[simp] theorem Canonical.execRecover {write} {s : State} (hs : Canonical s) :
    OutCanonical (execRecover write s) :=
  hs.served fun _ h => h.doRecover

theorem Canonical.doGroup {others} {s : State} (hs : Canonical s) : Canonical (State.doGroup others s) :=
  hs.createGroup.endRequest

@[simp] theorem Canonical.execGroupCreate {others} {s : State} (hs : Canonical s) :
    OutCanonical (execGroupCreate others s) :=
  hs.request fun _ h => h.doGroup

theorem Canonical.doUngroup {s : State} (hs : Canonical s) : Canonical (State.doUngroup s) :=
  hs.deleteGroup.endRequest

@[simp] theorem Canonical.execGroupDelete {s : State} (hs : Canonical s) :
    OutCanonical (execGroupDelete s) :=
  hs.request fun _ h => h.doUngroup

theorem Canonical.doSeccfg {s : State} (hs : Canonical s) : Canonical (State.doSeccfg s) := by
  grind [State.doSeccfg, canonical_mk, memoriesOk_self, Canonical.endRequest]

@[simp] theorem Canonical.execSeccfg {s : State} (hs : Canonical s) : OutCanonical (execSeccfg s) :=
  hs.request fun _ h => h.doSeccfg

theorem Canonical.doLogread {s : State} (hs : Canonical s) : Canonical (State.doLogread s) := by
  grind [State.doLogread, canonical_mk, memoriesOk_self, MemoriesOk.writeBytes, Canonical.endRequest]

@[simp] theorem Canonical.execLogread {s : State} (hs : Canonical s) : OutCanonical (execLogread s) :=
  hs.request fun _ h => h.doLogread

theorem Canonical.doClearj {s : State} (hs : Canonical s) : Canonical (State.doClearj s) :=
  (canonical_mk.2 ((memoriesOk_self _).2 hs)).endRequest

@[simp] theorem Canonical.execClearj {s : State} (hs : Canonical s) : OutCanonical (execClearj s) :=
  hs.served fun _ h => h.doClearj

@[simp] theorem Canonical.execMbcmdInvalid {op} {s : State} (hs : Canonical s) :
    OutCanonical (execMbcmdInvalid op s) := by
  grind [execMbcmdInvalid, outCanonical_next, Canonical.request, Canonical.endRequest]

theorem Canonical.mailbox {s : State} {op} (hs : Canonical s) : Canonical (s.mailbox op) := by
  unfold State.mailbox
  refine Canonical.ite hs (Canonical.ite hs.endRequest ?_)
  split <;> grind [canonical_mk, memoriesOk_self, Canonical.doLaunch, Canonical.doCancel,
    Canonical.doRecover, Canonical.doGroup, Canonical.doUngroup, Canonical.doSeccfg, Canonical.doLogread,
    Canonical.doClearj, Canonical.endRequest]

end Sys2Proof.Claims
end

section
/-!
O58, continued: integer instructions, transforms, due events and turns.
-/
namespace Sys2Proof.Claims
open Sys2Proof.Machine

/-! ### Integer instructions -/

theorem Canonical.aluR {t d f} {s : State} (hs : Canonical s) : OutCanonical (aluR t d f s) :=
  hs.issue fun _ h => h.setX

theorem Canonical.aluI {t d f} {s : State} (hs : Canonical s) : OutCanonical (aluI t d f s) :=
  hs.issueX fun _ h => h.setX

@[simp] theorem Canonical.execClamp {d a b uns t} {s : State} (hs : Canonical s) :
    OutCanonical (execClamp d a b uns t s) :=
  hs.aluR

@[simp] theorem Canonical.execRndc {d a b t} {s : State} (hs : Canonical s) :
    OutCanonical (execRndc d a b t s) := by
  grind [execRndc, Eff.state, Canonical.issue, Canonical.setX]

/-! ### The transform engines -/

theorem Canonical.setXfm {s : State} {tile e g} (hs : Canonical s) : Canonical (State.setXfm s tile e g) :=
  hs.setTile

@[simp] theorem Canonical.execXfm {d m e1 t} {s : State} (hs : Canonical s) :
    OutCanonical (execXfm d m e1 t s) := by
  grind [execXfm, canonical_mk, memoriesOk_self, MemoriesOk.writeNat, Eff.state, Canonical.issueX,
    Canonical.andThen, Canonical.checkMem, Canonical.settle, Canonical.setXfm, Canonical.setX,
    Canonical.once]

theorem Canonical.xfmUnit {ply} {s : State} {u} (hs : Canonical s) : Canonical (State.xfmUnit ply s u) := by
  grind [State.xfmUnit, canonical_mk, memoriesOk_self, MemoriesOk.writeBits, Canonical.foldl,
    Canonical.clearPoison]

theorem Canonical.xfmWrites {s : State} {r some_} (hs : Canonical s) :
    Canonical (State.xfmWrites s r some_).2 := by
  grind [State.xfmWrites, canonical_mk, memoriesOk_self, Canonical.foldl, Canonical.xfmUnit]

theorem Canonical.xfmEnd {s : State} {tile e o st outsz satc} (hs : Canonical s) :
    Canonical (State.xfmEnd s tile e o st outsz satc) := by
  grind [State.xfmEnd, canonical_mk, memoriesOk_self, MemoriesOk.writeNat, MemoriesOk.filter,
    Canonical.setXfm, Canonical.semAdd, Canonical.once]

theorem Canonical.xfmStart {s : State} {tile e} (hs : Canonical s) :
    Canonical (State.xfmStart s tile e) := by
  grind [State.xfmStart, Canonical.awaitWriter, Canonical.once, Canonical.setXfm]

@[simp] theorem Canonical.execXfmRecordStart {tile eng} {s : State} (hs : Canonical s) :
    OutCanonical (execXfmRecordStart tile eng s) :=
  hs.xfmStart

theorem Canonical.xfmFinish {s : State} {tile e} (hs : Canonical s) :
    Canonical (State.xfmFinish s tile e) := by
  grind [State.xfmFinish, Canonical.xfmWrites, Canonical.route, Canonical.xfmEnd]

@[simp] theorem Canonical.execXfmRecordEnd {tile eng} {s : State} (hs : Canonical s) :
    OutCanonical (execXfmRecordEnd tile eng s) :=
  hs.xfmFinish

theorem Canonical.xfmStop {s : State} {tile e o} (hs : Canonical s) :
    Canonical (State.xfmStop s tile e o) := by
  grind [State.xfmStop, Canonical.xfmWrites, Canonical.xfmEnd]

@[simp] theorem Canonical.execXwait {d a t} {s : State} (hs : Canonical s) :
    OutCanonical (execXwait d a t s) := by
  grind [execXwait, Eff.state, Canonical.issue, Canonical.setX]

@[simp] theorem Canonical.execXqry {d a f t} {s : State} (hs : Canonical s) :
    OutCanonical (execXqry d a f t s) :=
  hs.issue fun _ h => h.setX

@[simp] theorem Canonical.execXabt {a t} {s : State} (hs : Canonical s) :
    OutCanonical (execXabt a t s) := by
  grind [execXabt, Eff.state, Canonical.issue, Canonical.xfmStop]

@[simp] theorem Canonical.execXabtQ {a t} {s : State} (hs : Canonical s) :
    OutCanonical (execXabtQ a t s) := by
  grind [execXabtQ, Canonical.foldl, Eff.state, Canonical.issue, Canonical.xfmStop]

theorem Canonical.cancelWait {sel} {s : State} {q} (hs : Canonical s) :
    Canonical (State.cancelWait sel s q) := by
  grind [State.cancelWait, Canonical.completeWait]

theorem Canonical.cancelCopies {s : State} {e core sel} (hs : Canonical s) :
    Canonical (State.cancelCopies s e core sel) :=
  hs.foldl fun _ _ h => h.closeCopy

theorem Canonical.cancelRecords {s : State} {tile e core sel} (hs : Canonical s) :
    Canonical (State.cancelRecords s tile e core sel) :=
  hs.foldl fun _ _ h => h.xfmEnd

@[simp] theorem Canonical.execSemsDisarm {a sel t} {s : State} (hs : Canonical s) :
    OutCanonical (execSemsDisarm a sel t s) := by
  grind [execSemsDisarm, Canonical.foldl, Eff.state, Canonical.issueX, Canonical.release,
    Canonical.cancelWait, Canonical.cancelCopies, Canonical.cancelRecords, Canonical.semSet]

/-! ### Delivery of traps, pending pushes, stores arriving home -/

@[simp] theorem Canonical.execSyncTrapDelivery {p c} {s : State} (hs : Canonical s) :
    OutCanonical (execSyncTrapDelivery p c s) :=
  .ite hs.syncFault hs

@[simp] theorem Canonical.execAsyncTrapDelivery {tile core slot} {s : State} (hs : Canonical s) :
    OutCanonical (execAsyncTrapDelivery tile core slot s) :=
  hs.deliverNext

@[simp] theorem Canonical.execThimbleTrap {c} {s : State} (hs : Canonical s) :
    OutCanonical (execThimbleTrap c s) :=
  .ite hs.syncFault hs

theorem Canonical.pushNow {s : State} {p} (hs : Canonical s) : Canonical (State.pushNow s p) := by
  grind [State.pushNow, Canonical.flushPush, Canonical.setAt]

@[simp] theorem Canonical.execPendingTackPush {p} {s : State} (hs : Canonical s) :
    OutCanonical (execPendingTackPush p s) :=
  hs.pushNow

theorem Canonical.watchdog {s : State} {p} (hs : Canonical s) : Canonical (State.watchdog s p) := by
  grind [State.watchdog, Canonical.route, Canonical.setAt, Canonical.syncFault]

@[simp] theorem Canonical.execTackWatchdog {p} {s : State} (hs : Canonical s) :
    OutCanonical (execTackWatchdog p s) :=
  hs.watchdog

theorem Canonical.performStore {s : State} {tile core i} (hs : Canonical s) :
    Canonical (State.performStore s tile core i) := by
  grind [State.performStore, Canonical.performEntry, Canonical.setAux]

@[simp] theorem Canonical.execStorePerformedAtHome {tile core i} {s : State} (hs : Canonical s) :
    OutCanonical (execStorePerformedAtHome tile core i s) :=
  hs.performStore

/-! ### Due events -/

theorem Canonical.passDue {s : State} {tile core} (hs : Canonical s) :
    Canonical (State.passDue s tile core) := by
  grind [State.passDue, Canonical.passTime, Canonical.finishPass, Canonical.once]

theorem Canonical.runDue {d} {s : State} (hs : Canonical s) : OutCanonical (runDue d s) := by
  cases d
  case mgemvComplete => exact hs.execMgemvComplete
  case fsigArrival => exact hs.execFsigArrival
  case fabricWriteArrival => exact hs.execFabricWriteArrival
  case chunkArrival => exact hs.execChunkArrival
  all_goals grind [Machine.runDue, outCanonical_next, Canonical.copyStart, Canonical.copySourceFree,
    Canonical.copyComplete, Canonical.pushNow, Canonical.xfmStart, Canonical.xfmFinish,
    Canonical.performRed, Canonical.walk1, Canonical.walkerCommand, Canonical.deliverNext,
    Canonical.postTask, Canonical.preemptHalt, Canonical.saveContext, Canonical.capture,
    Canonical.writerDrain, Canonical.commit, Canonical.finalFlush, Canonical.passDue,
    Canonical.performStore, Canonical.changeSplit, Canonical.invalidated, Canonical.deliverMessage,
    Canonical.collComplete, Canonical.abortColl, Canonical.fastEnd, Canonical.fullEnd, Canonical.lockEnd,
    Canonical.trainEnd, Canonical.keyUpdate, Canonical.remakeService, Canonical.laserLocked,
    Canonical.mapSpare, Canonical.spareSwitch, Canonical.alignReleased, Canonical.mailbox, Canonical.reboot,
    Canonical.firmware]

/-! ### Turns -/

theorem Canonical.fetchRun {run p} {s : State} (hs : Canonical s)
    (hr : ∀ i s, Canonical s → OutCanonical (run i s)) : OutCanonical (fetchRun run p s) := by
  grind [Machine.fetchRun, outCanonical_next, outCanonical_fault, canonical_mk, memoriesOk_self,
    Canonical.endPageWait, Canonical.fetchWord, Canonical.syncFault, Canonical.streamFault,
    Canonical.blocked]

theorem Canonical.trial {run acc p} (hs : Canonical acc.2)
    (hr : ∀ i s, Canonical s → OutCanonical (run i s)) : Canonical (trial run acc p).2 := by
  have h1 := hs.fetchRun (p := p) hr
  grind [Machine.trial, OutCanonical, Canonical.setAt]

theorem Canonical.lowestFault {run p} {s : State} {o : Out} (hs : Canonical s) (ho : OutCanonical o)
    (hr : ∀ i s, Canonical s → OutCanonical (run i s)) : OutCanonical (lowestFault run p s o) := by
  cases o with
  | next t =>
    unfold Machine.lowestFault
    dsimp only
    split_ifs
    · generalize hf : List.findSome? _ _ = r
      cases r with
      | none => exact ho
      | some u =>
        obtain ⟨f, -, hu⟩ := List.exists_of_findSome?_eq_some hf
        have h1 := hs.fetchRun (p := { p with stream := f }) hr
        grind [OutCanonical]
    · exact ho
  | fault r => exact ho
  | refused r => exact ho

theorem Canonical.guardWrites {redo} {s : State} {o : Out} (hs : Canonical s) (ho : OutCanonical o) :
    OutCanonical (guardWrites redo s o) := by
  cases o <;> grind [Machine.guardWrites, OutCanonical, canonical_mk, memoriesOk_self, Canonical.writeBlock]

theorem Canonical.engineTurn {run p n} {s : State} (hs : Canonical s)
    (hr : ∀ i s, Canonical s → OutCanonical (run i s)) : OutCanonical (engineTurn run p n s) := by
  unfold Machine.engineTurn
  split_ifs
  · exact hs.passTime.writerDrain
  all_goals
    dsimp only
    generalize hf : List.foldl (Machine.trial run) _ _ = q
    have hq : Canonical q.2 := by
      rw [← hf]
      exact Canonical.foldl_snd hs.passTime fun b s a h => h.trial (acc := (b, s)) hr
    split
    · exact hq
    · exact hq.guardWrites (hq.lowestFault (hq.fetchRun hr) hr)

theorem Canonical.runTurn {run due} {s : State} (hs : Canonical s)
    (hr : ∀ i s, Canonical s → OutCanonical (run i s)) (hd : ∀ d s, Canonical s → OutCanonical (due d s)) :
    OutCanonical (runTurn run due s) := by
  grind [Machine.runTurn, outCanonical_next, canonical_mk, memoriesOk_self, Canonical.engineTurn,
    Canonical.guardWrites, Canonical.errorFound, Canonical.clearTrust, Canonical.runProcedure,
    Canonical.migrate, Canonical.passTime]

/-! ### The step -/

theorem Canonical.exec {i : Instr} {s : State} (hs : Canonical s) : OutCanonical (exec i s) := by
  cases i with
  | addR | subR | mulR | mulh | mulhu | divI | divu | remI | remu | andR | orR | xorR | shl | shrl | shra |
    minS | maxS | minu | maxu | seq | slt | sltu | sel | clz | popc | bfx | bfi =>
    simp only [Machine.exec]
    exact hs.aluR
  | addi | andi | ori | xori | shli | shrli | shrai | slti | li | lih | muli =>
    simp only [Machine.exec]
    exact hs.aluI
  | cMov | cAdd | cSub | cAnd | cOr | cXor | cAddi | cLi | cShli | cShrli =>
    simp only [Machine.exec]
    exact hs.compact
  | _ =>
    simp only [Machine.exec]
    simp [hs]

theorem Canonical.step {s : State} (hs : Canonical s) : OutCanonical (step s) :=
  hs.runTurn (fun _ _ h => h.exec) (fun _ _ h => h.runDue)

/-- Settles O58: every function the step is made of keeps the memories canonical. -/
theorem memoryStaysCanonical : Obligations.MemoryStaysCanonical := by
  unfold Obligations.MemoryStaysCanonical
  intro s t hs h
  exact outCanonical_next.1 (h ▸ hs.step)

end Sys2Proof.Claims
end

section
/-!
O59: the memories at reset, and after an instruction is placed.
-/

namespace Sys2Proof.Claims
open Sys2Proof.Machine

theorem Canonical.reset : Canonical State.reset :=
  canonical_iff.2 ⟨Memory.wf_nil, by rintro _ ⟨⟩, by rintro _ ⟨⟩⟩

theorem Canonical.placeSeqWord {s : State} {w} (hs : Canonical s) : Canonical (placeSeqWord s w) := by
  unfold Machine.placeSeqWord
  split
  · exact canonical_mk.2 ((memoriesOk_self s).2 hs)
  · exact hs

/-- The word and the two translation entries are the only memory a placed instruction changes. -/
theorem Canonical.placeCodeWord {s : State} {w} (hs : Canonical s) : Canonical (placeCodeWord s w) :=
  (Canonical.setTile (canonical_mk.2
    ((memoriesOk_self s).2 hs).writeNat.writeNat.writeBytes)).setSlot.setStream

theorem Canonical.withFetchWord {s : State} {nbits w} (hs : Canonical s) :
    Canonical (s.withFetchWord nbits w) := by
  unfold State.withFetchWord placeWord
  split_ifs
  · exact hs.placeSeqWord
  · exact hs.placeCodeWord

/-- Settles O59. -/
theorem memoryCanonicalAtReset : Obligations.MemoryCanonicalAtReset :=
  ⟨Canonical.reset, fun _ _ _ hs => hs.withFetchWord⟩

end Sys2Proof.Claims
end

section
/-!
O54: the registers of space 9.

Where each register stands, what a REGISTER_WRITE of it leaves, the walker's command, and the thimble core's
scalar accesses. A register write is one update of the hub or of one tile, so each clause is the field it sets
(`registerWrite_quiet`); an access is that of `issueX_done` after checks that change nothing (`checkMem_dev`).
-/

namespace Sys2Proof.Claims
open Sys2Proof.Machine

/-! ### Where the registers stand -/

theorem devReg_tile {t o : Nat} (ht : t < 16) (ho : o < 0x1000) :
    devReg (0x200000 + 0x1000 * t + o) = tileReg t o := by
  have hq : (0x200000 + 0x1000 * t + o - 0x200000) / 0x1000 = t := by omega
  have hr : (0x200000 + 0x1000 * t + o) % 0x1000 = o := by omega
  unfold devReg
  rw [hq, hr]
  repeat rw [if_neg (by omega)]
  rw [if_pos (by omega)]

theorem tileReg_frt {t o : Nat} (h : 0x200 ≤ o ∧ o < 0x240) : tileReg t o = some (.frt t (o - 0x200)) := by
  unfold tileReg
  split
  case h_12 => exact if_pos h
  all_goals omega

/-! ### A register write -/

theorem registerWrite_listed {s : State} {v : Word} {a : Nat} {r : DevReg} (ha : a < 0x100800000)
    (h8 : a % 8 = 0) (hr : devReg a = some r) (hs : s.devStalls r = false) :
    exec (.registerWrite a v) s = .next (s.writeReg r v) := by
  have ha8 : a / 8 * 8 = a := by omega
  change execRegisterWrite a v s = _
  simp [execRegisterWrite, State.devStore, ha8, hr, hs, Nat.not_le.2 ha]

theorem registerWrite_unlisted {s : State} {v : Word} {a : Nat} (ha : a < 0x100800000)
    (hn : devReg (a / 8 * 8) = none) : exec (.registerWrite a v) s = .next (s.logDev (a / 8 * 8)) := by
  change execRegisterWrite a v s = _
  simp [execRegisterWrite, State.devStore, hn, Nat.not_le.2 ha]

theorem Quiet.of_eq {s u : State} (hc : u.cur = s.cur) (hst : u.streams = s.streams) (hm : u.mem = s.mem) :
    Quiet s u := by
  refine ⟨⟨hc, fun k => ?_⟩, fun a => by rw [hm]⟩
  have hk : u.stream k = s.stream k := congrArg (Tab.get _ k) hst
  simp [hk]

/-- A write that sets fields of the hub or of a tile: the register's update, and nothing a program sees of itself. -/
theorem registerWrite_quiet {s : State} {v : Word} {a : Nat} {r : DevReg} {P : State → Prop}
    (ha : a < 0x100800000) (h8 : a % 8 = 0) (hr : devReg a = some r) (hs : s.devStalls r = false)
    (hc : (s.writeReg r v).cur = s.cur) (hst : (s.writeReg r v).streams = s.streams)
    (hm : (s.writeReg r v).mem = s.mem) (hP : P (s.writeReg r v)) :
    ∃ u, exec (.registerWrite a v) s = .next u ∧ Quiet s u ∧ P u :=
  ⟨_, registerWrite_listed ha h8 hr hs, .of_eq hc hst hm, hP⟩

/-- The same of a register of a tile's block. -/
theorem tileWrite_quiet {s : State} {v : Word} {t o : Nat} {r : DevReg} {P : State → Prop} (ht : t < 16)
    (ho : o < 0x1000) (h8 : o % 8 = 0) (hr : tileReg t o = some r) (hs : s.devStalls r = false)
    (hc : (s.writeReg r v).cur = s.cur) (hst : (s.writeReg r v).streams = s.streams)
    (hm : (s.writeReg r v).mem = s.mem) (hP : P (s.writeReg r v)) :
    ∃ u, exec (.registerWrite (0x200000 + 0x1000 * t + o) v) s = .next u ∧ Quiet s u ∧ P u :=
  registerWrite_quiet (by omega) (by omega) ((devReg_tile ht ho).trans hr) hs hc hst hm hP

/-! ### The fields a write sets -/

theorem getLsbD_eq_bitN (v : Word) (i : Nat) : v.getLsbD i = bitN v.toNat i := by
  simp [bitN, BitVec.getLsbD, Nat.testBit_eq_decide_div_mod_eq]

/-- A bit of ALMSTAT written as one clears (R13). -/
theorem bitN_cleared {seen n i : Nat} (hi : i < 8) :
    bitN (BitVec.ofNat 8 seen &&& ~~~ BitVec.ofNat 8 (n % 2 ^ 8)).toNat i = (bitN seen i && !bitN n i) := by
  have h (x : Nat) : bitN x i = x.testBit i := by simp [bitN, Nat.testBit_eq_decide_div_mod_eq]
  rw [h, h, h, BitVec.testBit_toNat, BitVec.getLsbD_and, BitVec.getLsbD_not, BitVec.getLsbD_ofNat,
    BitVec.getLsbD_ofNat, Nat.testBit_mod_two_pow]
  simp [hi]

theorem rootBits_eq (v : Word) :
    rootBits v = BitVec.ofNat 64 (v.toNat / 2 ^ 13 % 2 ^ 39 * 2 ^ 13 + v.toNat % 2) := by
  simp [rootBits, bits]

theorem once_cases (s : State) (d : Due) : s.once d = s ∨ s.once d = s.later d := by
  unfold State.once
  split_ifs
  · exact .inl rfl
  · exact .inr rfl

/-- An invalidation of all translations of a tile (R344). -/
theorem invalidateAll_fields (s : State) (t : Nat) :
    let u := s.invalidate t none
    u.cur = s.cur ∧ u.streams = s.streams ∧ u.mem = s.mem ∧ (u.tile t).ptroot = (s.tile t).ptroot ∧
      (u.tile t).tcache = [] := by
  have htile {k : Tile} : (s.setTile t k).tile t = k := State.tile_setTile_same s t k
  unfold State.invalidate
  dsimp only
  rcases once_cases (s.setTile t _) (.invalidationComplete t) with h | h
  all_goals
    rw [h]
    refine ⟨rfl, rfl, rfl, ?_, ?_⟩
    · exact (congrArg Tile.ptroot htile).trans rfl
    · exact (congrArg Tile.tcache htile).trans (by simp)

/-! ### FRT: eight routing bytes at once -/

/-- FRT's codes `c`, `c + 1`, … of a tile set one after another. -/
def setFrt (t c : Nat) (f : Nat → Nat) (s : State) (i : Nat) : State :=
  s.setTile t { s.tile t with frt := Tab.set (frtReset (c + i)) (c + i) (f i) (s.tile t).frt }

theorem setFrt_frt (t c : Nat) (f : Nat → Nat) (s : State) (i j : Nat) :
    (setFrt t c f s i).frt t (c + j) = if j = i then f i else s.frt t (c + j) := by
  unfold setFrt State.frt
  rw [State.tile_setTile_same]
  by_cases h : j = i
  · subst h; simp
  · have hne : c + j ≠ c + i := by omega
    rw [if_neg h]
    unfold Tab.set
    split_ifs
    · exact Tab.get_erase_other _ hne _
    · exact Tab.get_insert_other _ hne _ _

theorem foldl_setFrt_kept (t c : Nat) (f : Nat → Nat) (is : List Nat) (s : State) :
    (is.foldl (setFrt t c f) s).cur = s.cur ∧ (is.foldl (setFrt t c f) s).streams = s.streams ∧
      (is.foldl (setFrt t c f) s).mem = s.mem := by
  induction is generalizing s with
  | nil => exact ⟨rfl, rfl, rfl⟩
  | cons i r ih => exact ih (setFrt t c f s i)

theorem foldl_setFrt_frt (t c : Nat) (f : Nat → Nat) (s : State) (n j : Nat) :
    ((List.range n).foldl (setFrt t c f) s).frt t (c + j) = if j < n then f j else s.frt t (c + j) := by
  induction n with
  | zero => rfl
  | succ n ih =>
    rw [List.range_succ, List.foldl_append, List.foldl_cons, List.foldl_nil, setFrt_frt, ih]
    obtain h | rfl | h := Nat.lt_trichotomy j n
    · rw [if_neg (by omega), if_pos h, if_pos (by omega)]
    · rw [if_pos rfl, if_pos (by omega)]
    · rw [if_neg (by omega), if_neg (by omega), if_neg (by omega)]

/-! ### The clauses of a register write -/

theorem hubWrites (s : State) (v : Word) :
    let n := v.toNat
    let writes (a : Nat) (P : State → Prop) : Prop := ∃ u, exec (.registerWrite a v) s = .next u ∧ Quiet s u ∧ P u
    writes 0x10 (fun u => u = s) ∧
    writes 0x18 (fun u => ∀ i, i < 8 → bitN u.hub.seen i = (bitN s.hub.seen i && !bitN n i)) ∧
    writes 0x10008 (fun u => u.hub.mbaddr = n % 2 ^ 46) ∧ writes 0x10010 (fun u => u.hub.mblen = n % 2 ^ 32) := by
  refine ⟨?_, ?_, ?_, ?_⟩
  · exact registerWrite_quiet (r := .almcfg) (by omega) rfl rfl rfl rfl rfl rfl rfl
  · refine registerWrite_quiet (r := .almstat) (by omega) rfl rfl rfl rfl rfl rfl fun i hi => ?_
    simpa [State.writeReg, bits] using bitN_cleared (n := v.toNat) hi
  · refine registerWrite_quiet (r := .mbaddr) (by omega) rfl rfl rfl rfl rfl rfl ?_
    simp [State.writeReg, bits]
  · refine registerWrite_quiet (r := .mblen) (by omega) rfl rfl rfl rfl rfl rfl ?_
    simp [State.writeReg, bits]

/-- A mailbox command: BUSY, and its turn at the end of the schedule. -/
theorem mbcmd_writes {s : State} {v : Word} (hb : s.hub.busy = false) :
    ∃ u, exec (.registerWrite 0x10000 v) s = .next u ∧ Quiet s u ∧ u.hub.busy = true ∧
      u.turns = s.turns ++ [.due (.mailbox (v.toNat % 256))] := by
  have hw : s.writeReg .mbcmd v = { s with hub := { s.hub with busy := true } }.later (.mailbox (bits v 0 8)) :=
    if_neg (by simp [hb])
  refine registerWrite_quiet (r := .mbcmd) (by omega) rfl rfl rfl ?_ ?_ ?_ ?_
  all_goals rw [hw]
  · rfl
  · rfl
  · rfl
  · simp [State.later, bits]

theorem mbcmd_busy {s : State} {v : Word} (hb : s.hub.busy = true) :
    exec (.registerWrite 0x10000 v) s = .next s := by
  rw [registerWrite_listed (r := .mbcmd) (by omega) rfl rfl rfl]
  exact congrArg _ (if_pos hb)

section
variable {s : State} {v : Word} {t : Nat} (ht : t < 16)
include ht

theorem ptroot_writes : ∃ u, exec (.registerWrite (0x200000 + 0x1000 * t) v) s = .next u ∧ Quiet s u ∧
    (u.tile t).ptroot = BitVec.ofNat 64 (v.toNat / 2 ^ 13 % 2 ^ 39 * 2 ^ 13 + v.toNat % 2) ∧
    (u.tile t).tcache = [] := by
  obtain ⟨hc, hst, hm, hr, htc⟩ := invalidateAll_fields (s.setTile t { s.tile t with ptroot := rootBits v }) t
  refine tileWrite_quiet (o := 0) (r := .ptroot t) ht (by omega) rfl rfl rfl hc hst hm ⟨hr.trans ?_, htc⟩
  rw [State.tile_setTile_same, rootBits_eq]

theorem ecccnt_writes : ∃ u, exec (.registerWrite (0x200000 + 0x1000 * t + 0x20) v) s = .next u ∧ Quiet s u ∧
    (u.tile t).unc = BitVec.ofNat 32 (v.toNat / 2 ^ 32) ∧ (u.tile t).cor = BitVec.ofNat 32 v.toNat := by
  refine tileWrite_quiet (r := .ecccnt t) ht (by omega) rfl rfl rfl rfl rfl rfl ?_
  simp only [State.writeReg, State.tile_setTile_same, bits, Nat.pow_zero, Nat.div_one]
  exact ⟨BitVec.eq_of_toNat_eq (by simp), BitVec.eq_of_toNat_eq (by simp)⟩

theorem wgbase_writes : ∃ u, exec (.registerWrite (0x200000 + 0x1000 * t + 0x100) v) s = .next u ∧ Quiet s u ∧
    (u.tile t).walker.base = BitVec.ofNat 64 (v.toNat / 2 ^ 8 % 2 ^ 48 * 2 ^ 8) := by
  refine tileWrite_quiet (r := .wgbase t) ht (by omega) rfl rfl rfl rfl rfl rfl ?_
  simp only [State.writeReg, State.tile_setTile_same, bits, Nat.reducePow]

theorem wgcnt_writes : ∃ u, exec (.registerWrite (0x200000 + 0x1000 * t + 0x108) v) s = .next u ∧ Quiet s u ∧
    (u.tile t).walker.cnt = v.toNat % 2 ^ 16 := by
  refine tileWrite_quiet (r := .wgcnt t) ht (by omega) rfl rfl rfl rfl rfl rfl ?_
  simp only [State.writeReg, State.tile_setTile_same, bits, Nat.pow_zero, Nat.div_one]

theorem supslot_writes : ∃ u, exec (.registerWrite (0x200000 + 0x1000 * t + 0x120) v) s = .next u ∧ Quiet s u ∧
    (u.tile t).supV = bitN v.toNat 7 ∧ (u.tile t).supCore = v.toNat % 8 ∧
    (u.tile t).supSlot = v.toNat / 8 % 4 := by
  refine tileWrite_quiet (r := .supslot t) ht (by omega) rfl rfl rfl rfl rfl rfl ?_
  simp only [State.writeReg, State.tile_setTile_same, bits, Nat.pow_zero, Nat.div_one]
  exact ⟨getLsbD_eq_bitN v 7, rfl, rfl⟩

theorem rdrop_writes : ∃ u, exec (.registerWrite (0x200000 + 0x1000 * t + 0x128) v) s = .next u ∧ Quiet s u ∧
    (u.tile t).rdrop = BitVec.ofNat 32 v.toNat := by
  refine tileWrite_quiet (r := .rdrop t) ht (by omega) rfl rfl rfl rfl rfl rfl ?_
  simp only [State.writeReg, State.tile_setTile_same, bits, Nat.pow_zero, Nat.div_one]
  exact BitVec.eq_of_toNat_eq (by simp)

theorem frt_writes {c : Nat} (hc : c < 64) :
    ∃ u, exec (.registerWrite (0x200000 + 0x1000 * t + 0x200 + c / 8 * 8) v) s = .next u ∧ Quiet s u ∧
      u.frt t c = v.toNat / 256 ^ (c % 8) % 16 := by
  obtain ⟨h1, h2, h3⟩ := foldl_setFrt_kept t (c / 8 * 8) (fun i => bits v (8 * i) 4) (List.range 8) s
  have hr : tileReg t (0x200 + c / 8 * 8) = some (.frt t (c / 8 * 8)) :=
    (tileReg_frt (by omega)).trans (by simp)
  rw [Nat.add_assoc]
  refine tileWrite_quiet ht (by omega) (by omega) hr rfl h1 h2 h3 ?_
  have hf := foldl_setFrt_frt t (c / 8 * 8) (fun i => bits v (8 * i) 4) s 8 (c % 8)
  rw [if_pos (by omega), Nat.div_add_mod'] at hf
  refine hf.trans ?_
  simp only [bits, Nat.pow_mul, Nat.reducePow]

/-- A walker command is kept in WCMD until its turn, which comes first (log 70). -/
theorem wcmd_writes (hf : (s.tile t).walker.cmd = none) (h1 : 1 ≤ v.toNat % 8) (h6 : v.toNat % 8 ≤ 6) :
    ∃ u, exec (.registerWrite (0x200000 + 0x1000 * t + 0x110) v) s = .next u ∧ Quiet s u ∧
      (u.tile t).walker = { (s.tile t).walker with cmd := some v } ∧
      u.turns = .due (.walkerCommand t) :: s.turns := by
  have hb : bits v 0 3 = v.toNat % 8 := by simp [bits]
  have hw : s.writeReg (.wcmd t) v =
      (s.setTile t { s.tile t with walker := { (s.tile t).walker with cmd := some v } }).soon (.walkerCommand t) :=
    if_neg (by omega)
  refine tileWrite_quiet (r := .wcmd t) ht (by omega) rfl rfl ?_ ?_ ?_ ?_ ?_
  · simp [State.devStalls, hf]
  all_goals rw [hw]
  · rfl
  · rfl
  · rfl
  · exact ⟨congrArg Tile.walker (State.tile_setTile_same s t _), rfl⟩

/-- The command kept in WCMD, carried out: what its own row does (R352). -/
theorem walkerCommand_does (hcmd : (s.tile t).walker.cmd = some v) :
    let n := v.toNat
    let s0 := s.setTile t { s.tile t with walker := { (s.tile t).walker with cmd := none } }
    let core := n / 2 ^ 8 % 8
    let slot := n / 2 ^ 11 % 4
    let arg := n / 2 ^ 16 % 2 ^ 44
    let does (i : Instr) : Prop := ∃ u, exec i s0 = .next u ∧ runDue (.walkerCommand t) s = .next u
    (n % 8 = 1 → does (.wStart t)) ∧ (n % 8 = 2 → does (.wStop t)) ∧
      (n % 8 = 3 → does (.wPreempt t core slot arg)) ∧ (n % 8 = 4 → does (.wResume t core slot arg)) ∧
      (n % 8 = 5 → does (.wEnter t core slot)) ∧ (n % 8 = 6 → does (.wKill t core slot)) := by
  intro n s0 core slot arg does
  have hrun : runDue (.walkerCommand t) s = .next (s0.walkerCmd t v) := by
    simp only [runDue, State.walkerCommand, hcmd]
    rfl
  have hop : bits v 0 3 = n % 8 := by simp [bits, n]
  have hk : slotKey t (bits v 8 3) (bits v 11 2) = slotKey t core slot := rfl
  have ha : bits v 16 44 = arg := rfl
  have hcmds (i : Instr) (u : State) (hi : exec i s0 = .next (if t < 16 then u else s0))
      (hu : s0.walkerCmd t v = u) : does i := ⟨u, by rw [hi, if_pos ht], by rw [hrun, hu]⟩
  refine ⟨fun h => hcmds _ _ rfl ?_, fun h => hcmds _ _ rfl ?_, fun h => hcmds _ _ rfl ?_,
    fun h => hcmds _ _ rfl ?_, fun h => hcmds _ _ rfl ?_, fun h => hcmds _ _ rfl ?_⟩
  all_goals
    simp only [State.walkerCmd, hop, h, hk, ha]

end
/-! ### The thimble core's accesses in space 9 -/

/-- Taking a token touches the slot table alone. -/
theorem popped_eq (s : State) (t : Tack) : s.popped t = { s with slots := (s.popped t).slots } := by
  unfold State.popped
  split_ifs <;> rfl

theorem h_popped (s : State) (t : Tack) (r : Reg) : (s.popped t).h r = s.h r := by
  unfold State.popped
  split_ifs
  · simp [State.h, State.mySlot, State.setMySlot, Slot.takeTack]
  · rfl

theorem offM_popped (s : State) (t : Tack) (m : MemOp) : (s.popped t).offM m = s.offM m := by
  simp [State.offM, State.immM]

theorem preCheck_popped (s : State) (t : Tack) (h : Handle) (idx : Nat) (off : Int) (w : Want) :
    (s.popped t).preCheck h idx off w = s.preCheck h idx off w := by
  rw [popped_eq]
  rfl

theorem postCheck_popped {s u : State} {t : Tack} {h : Handle} {idx : Nat} {off : Int} {w : Want} {segs leaf}
    (h9 : h.space = 9) (hp : s.postCheck h idx off w = .ok segs leaf u) :
    (s.popped t).postCheck h idx off w = .ok segs leaf (s.popped t) := by
  have hdie (k : Nat) : (s.popped t).dieOn k = s.dieOn k := by rw [popped_eq]; rfl
  have hpoison : poisonIn (s.popped t) = poisonIn s := by rw [popped_eq]; rfl
  simp only [State.postCheck, h9, direct, decide_true, Bool.or_true, if_true, hdie, hpoison,
    State.cur_popped] at hp ⊢
  split_ifs at hp with hoff hbad
  cases hp
  rw [if_neg hoff, if_neg hbad]

/-- An access of space 9 that passes: its checks change nothing, with the W token taken or not. -/
theorem checkMem_dev {s : State} {h : Handle} {idx : Nat} {off : Int} {w : Want} (t : Tack) (h9 : h.space = 9)
    (hacc : (access s h idx off w).isSome = true) :
    s.preCheck h idx off w = none ∧
      ∃ segs leaf, (s.popped t).checkMem h idx off w = .ok segs leaf (s.popped t) := by
  unfold access State.checkMem at hacc
  cases hpre : s.preCheck h idx off w with
  | some e => simp [hpre] at hacc
  | none =>
    rw [hpre] at hacc
    dsimp only at hacc
    refine ⟨rfl, ?_⟩
    unfold State.checkMem
    rw [preCheck_popped, hpre]
    cases hp : s.postCheck h idx off w with
    | ok segs leaf u => exact ⟨segs, leaf, postCheck_popped h9 hp⟩
    | bad e u => simp [hp] at hacc
    | hold u => simp [hp] at hacc

/-- What R200's bound and alignment checks say of a scalar access that passes them. -/
theorem preCheck_scalar {s : State} {h : Handle} {idx : Nat} {off : Int} {bytes : Nat} {store dev thimble : Bool}
    (he : elemUnit h.type = false)
    (hpre : s.preCheck h idx off (h.scalarWant off bytes store dev thimble) = none) :
    0 ≤ off ∧ max 1 (bytes : Int) ∣ h.base + (h.wstart + off) := by
  have hpb : isPB h.type = false := by
    simp only [elemUnit, Bool.or_eq_false_iff] at he
    exact he.2
  have hall := List.findSome?_eq_none_iff.1 hpre
  simp [State.preChecks, Handle.scalarWant, Handle.unitByte, he, hpb] at hall
  obtain ⟨-, -, -, -, halign, ⟨hoff, -⟩, -⟩ := hall
  exact ⟨hoff, halign⟩

/-- The byte of space 9 that a scalar access of `bytes` bytes names (R168). -/
def devByte (s : State) (m : MemOp) (bytes : Nat) : Nat :=
  (s.h m.h).base + ((s.h m.h).scalarBits (s.offM m) bytes).1 / 8

theorem scalarBits_width {h : Handle} {off : Int} {bytes : Nat} (he : elemUnit h.type = false) :
    (h.scalarBits off bytes).2 = 8 * bytes := by
  simp [Handle.scalarBits, he]

/-- A doubleword access that passes its checks names the start of a register. -/
theorem devByte_aligned {s : State} {m : MemOp} {idx : Nat} {store dev thimble : Bool}
    (he : elemUnit (s.h m.h).type = false)
    (hpre : s.preCheck (s.h m.h) idx (s.offM m) ((s.h m.h).scalarWant (s.offM m) 8 store dev thimble) = none) :
    devByte s m 8 % 8 = 0 := by
  obtain ⟨hoff, halign⟩ := preCheck_scalar he hpre
  have h8 : (8 : Int) ∣ (s.h m.h).base + ((s.h m.h).wstart + s.offM m) := halign
  simp only [devByte, Handle.scalarBits, he, Bool.false_eq_true, if_false]
  omega

/-! ### Loads -/

theorem readReg_popped (s : State) (t : Tack) (r : DevReg) : (s.popped t).readReg r = s.readReg r := by
  have hslot (k : Nat) : ((s.popped t).slot k).mode = (s.slot k).mode ∧
      ((s.popped t).slot k).psave = (s.slot k).psave := by
    unfold State.popped State.setMySlot
    split_ifs
    · rw [State.slot_setSlot]
      split_ifs with hk
      · subst hk; exact ⟨rfl, rfl⟩
      · exact ⟨rfl, rfl⟩
    · exact ⟨rfl, rfl⟩
  cases r
  case wstat k =>
    have htile : (s.popped t).tile k = s.tile k := by rw [popped_eq]; rfl
    simp only [State.readReg, State.wstat, htile, hslot]
  all_goals
    rw [popped_eq]
    rfl

theorem loadBody_dev {s : State} {t : Tack} {d : Reg} {m : MemOp} {f : BitVec 3} {bytes : Nat} {r : DevReg}
    (h9 : (s.h m.h).space = 9)
    (hacc : (access s (s.h m.h) m.h.toNat (s.offM m)
      ((s.h m.h).scalarWant (s.offM m) bytes false true s.cur.thimble)).isSome = true)
    (he : elemUnit (s.h m.h).type = false) (hr : devReg (devByte s m bytes / 8 * 8) = some r) :
    loadBody d m f bytes false true (s.popped t) = .done ((s.popped t).setX d (BitVec.ofNat 64
      (s.readReg r % 2 ^ 64 / 2 ^ (8 * (devByte s m bytes % 8)) % 2 ^ (8 * bytes)))) := by
  obtain ⟨-, segs, leaf, hchk⟩ := checkMem_dev t h9 hacc
  unfold loadBody
  simp only [h_popped, offM_popped, State.cur_popped, hchk, Chk.andThen, h9, if_true]
  unfold devByte at hr ⊢
  simp only [State.devRead, hr, readReg_popped, BitVec.toNat_ofNat, scalarBits_width he]

/-- A word whose body writes one register of its own stream. -/
theorem issueX_setX {s : State} {t : Tack} {d : Reg} {v : Word} {body : State → Eff} (hready : Ready s t)
    (hb : body (s.popped t) = .done ((s.popped t).setX d v)) :
    ∃ u, issueX 4 t body s = .next u ∧ OnlyStream s u ∧ Sequential s u 4 (s.wrote d v) 0 := by
  refine ⟨_, issueX_done hready hb, ?_, ?_⟩
  · have hset := OnlyStream.setMe (s.popped t) ((s.popped t).me.setX d v)
    have hret := State.retire_frame ((s.popped t).setX d v) 4 t
    rw [State.setX, State.cur_setMe, State.cur_popped] at hret
    exact ((OnlyStream.popped s t).trans hset).trans hret
  · refine Sequential.of_retire 4 t (by simp [State.setX]) ?_ ?_ ?_ ?_ ?_ ?_
    · intro r
      rw [State.x_setX, State.x_popped]
      rfl
    all_goals
      simp only [State.setX, State.me_setMe, State.me_popped, Stream.setX]
      split_ifs <;> simp

/-! ### Stores -/

/-- What a write merged from part of a register holds: the part stored, the bits below it and those above (R168). -/
theorem merged_eq (old x lo w : Nat) :
    old - old / lo % w * lo + x % w * lo = old % lo + x % w * lo + old / (lo * w) * (lo * w) := by
  have h1 : old = lo * (old / lo) + old % lo := (Nat.div_add_mod old lo).symm
  have h2 : old / lo = w * (old / lo / w) + old / lo % w := (Nat.div_add_mod (old / lo) w).symm
  have h3 : old / (lo * w) * (lo * w) = lo * (w * (old / lo / w)) := by rw [← Nat.div_div_eq_div_mul]; ring
  have h4 : old = lo * (w * (old / lo / w)) + old / lo % w * lo + old % lo := by
    conv_lhs => rw [h1, h2]
    ring
  omega

/-- MBADDR after `bytes` bytes of `x` are stored at its byte `lo`. -/
def mbaddrStored (old x lo bytes : Nat) : Nat :=
  (old % 2 ^ (8 * lo) + x % 2 ^ (8 * bytes) * 2 ^ (8 * lo) +
    (if bytes = 8 then 0 else
      old / (2 ^ (8 * lo) * 2 ^ (8 * bytes)) * (2 ^ (8 * lo) * 2 ^ (8 * bytes)))) % 2 ^ 46

theorem devStore_mbaddr {s : State} {off lo bytes x : Nat} (hr : devReg off = some .mbaddr)
    (h8 : bytes = 8 → lo = 0) :
    s.devStore off lo bytes (x % 2 ^ (8 * bytes)) =
      some { s with hub := { s.hub with mbaddr := mbaddrStored s.hub.mbaddr x lo bytes } } := by
  have hbits (k : Nat) : bits (BitVec.ofNat 64 k) 0 46 = k % 2 ^ 46 := by
    simp only [bits, BitVec.toNat_ofNat, Nat.pow_zero, Nat.div_one]
    exact Nat.mod_mod_of_dvd k ⟨2 ^ 18, by norm_num⟩
  have hval : s.devStore off lo bytes (x % 2 ^ (8 * bytes)) = some (s.writeReg .mbaddr (BitVec.ofNat 64
      (if bytes = 8 then x % 2 ^ (8 * bytes) else s.hub.mbaddr -
        s.hub.mbaddr / 2 ^ (8 * lo) % 2 ^ (8 * bytes) * 2 ^ (8 * lo) +
        x % 2 ^ (8 * bytes) % 2 ^ (8 * bytes) * 2 ^ (8 * lo)))) := by
    simp only [State.devStore, hr, State.devStalls, Bool.false_eq_true, if_false]
    split_ifs <;> rfl
  rw [hval, State.writeReg, hbits, mbaddrStored]
  split_ifs with hb
  · simp [h8 hb, Nat.mod_one]
  · rw [Nat.mod_mod, merged_eq]

theorem storeBody_dev {s s2 : State} {t : Tack} {d : Reg} {m : MemOp} {f : BitVec 3} {bytes : Nat}
    (h9 : (s.h m.h).space = 9)
    (hacc : (access s (s.h m.h) m.h.toNat (s.offM m)
      ((s.h m.h).scalarWant (s.offM m) bytes true true s.cur.thimble)).isSome = true)
    (he : elemUnit (s.h m.h).type = false)
    (hst : (s.popped t).devStore (devByte s m bytes / 8 * 8) (devByte s m bytes % 8) bytes
      ((s.x d).toNat % 2 ^ (8 * bytes)) = some s2) :
    storeBody d m f bytes true (s.popped t) = .done s2 := by
  obtain ⟨-, segs, leaf, hchk⟩ := checkMem_dev t h9 hacc
  unfold storeBody
  simp only [h_popped, offM_popped, State.cur_popped, hchk, Chk.andThen, h9, if_true, State.x_popped,
    scalarBits_width he]
  unfold devByte at hst
  rw [hst]

/-- A word whose body sets nothing but fields of the hub. -/
theorem issueX_setHub {s : State} {t : Tack} {body : State → Eff} {hub : Hub} (hready : Ready s t)
    (hb : body (s.popped t) = .done { s.popped t with hub := hub }) :
    ∃ u, issueX 4 t body s = .next u ∧ Sequential s u 4 s.x 0 ∧ u.hub = hub := by
  have hme : ({ s.popped t with hub := hub } : State).me = s.me := State.me_popped s t
  refine ⟨_, issueX_done hready hb, ?_, ?_⟩
  · refine Sequential.of_retire 4 t (State.cur_popped s t) (fun r => State.x_popped s t r) ?_ ?_ ?_ ?_ ?_
    · rw [hme]; simp
    all_goals rw [hme]
  · have hframe := State.retire_frame { s.popped t with hub := hub } 4 t
    rw [show ({ s.popped t with hub := hub } : State).cur = s.cur from State.cur_popped s t] at hframe
    exact congrArg State.hub hframe.outside

/-! ### The statement -/

section
variable {s : State} {t : Tack} {d : Reg} {m : MemOp} {f : BitVec 3} {bytes : Nat} (hready : Ready s t)
  (h9 : (s.h m.h).space = 9) (he : elemUnit (s.h m.h).type = false)
include hready h9 he

theorem load_dev {r : DevReg} (hacc : (access s (s.h m.h) m.h.toNat (s.offM m)
      ((s.h m.h).scalarWant (s.offM m) bytes false true s.cur.thimble)).isSome = true)
    (hr : devReg (devByte s m bytes / 8 * 8) = some r) :
    ∃ u, issueX 4 t (loadBody d m f bytes false true) s = .next u ∧ OnlyStream s u ∧
      Sequential s u 4 (s.wrote d (BitVec.ofNat 64
        (s.readReg r % 2 ^ 64 / 2 ^ (8 * (devByte s m bytes % 8)) % 2 ^ (8 * bytes)))) 0 :=
  issueX_setX hready (loadBody_dev h9 hacc he hr)

theorem store_mbaddr (hacc : (access s (s.h m.h) m.h.toNat (s.offM m)
      ((s.h m.h).scalarWant (s.offM m) bytes true true s.cur.thimble)).isSome = true)
    (hr : devReg (devByte s m bytes / 8 * 8) = some .mbaddr) :
    ∃ u, issueX 4 t (storeBody d m f bytes true) s = .next u ∧ Sequential s u 4 s.x 0 ∧
      u.hub.mbaddr = mbaddrStored s.hub.mbaddr (s.x d).toNat (devByte s m bytes % 8) bytes ∧
      { u.hub with mbaddr := 0 } = { s.hub with mbaddr := 0 } := by
  have h8 : bytes = 8 → devByte s m bytes % 8 = 0 := by
    rintro rfl
    exact devByte_aligned he (checkMem_dev t h9 hacc).1
  obtain ⟨u, hu, hseq, hhub⟩ := issueX_setHub hready
    (storeBody_dev (d := d) (f := f) h9 hacc he (devStore_mbaddr hr h8))
  have hh : (s.popped t).hub = s.hub := by rw [popped_eq]
  rw [hh] at hhub
  exact ⟨u, hu, hseq, by rw [hhub], by rw [hhub]⟩

end

/-- Settles O54: each clause is the write or the access of the register it names. -/
theorem deviceRegisters : Obligations.DeviceRegisters := by
  unfold Obligations.DeviceRegisters
  intro s v n writes
  obtain ⟨halmcfg, halmstat, hmbaddr, hmblen⟩ := hubWrites s v
  refine ⟨halmcfg, halmstat, hmbaddr, hmblen, mbcmd_writes, mbcmd_busy, fun t ht => ?_,
    fun a ha hn => registerWrite_unlisted ha hn, fun t d m f hready h9 => ?_⟩
  · exact ⟨ptroot_writes ht, ecccnt_writes ht, wgbase_writes ht, wgcnt_writes ht, supslot_writes ht,
      rdrop_writes ht, fun c hc => frt_writes ht hc, wcmd_writes ht, walkerCommand_does ht⟩
  · exact ⟨fun r hacc he hr => load_dev hready h9 he hacc hr,
      fun r hacc he hr => load_dev hready h9 he hacc hr,
      fun hacc he hr => store_mbaddr hready h9 he hacc hr,
      fun hacc he hr => store_mbaddr hready h9 he hacc hr⟩

end Sys2Proof.Claims
end

section
/-!
Taking an exception: what the fetch of the handler's first word, the stop of a slot's streams and the entry of the
handler each leave (R55, R362 to R364).

`Stops` is the state after steps 1 to 3 of R362 and `Enters` the one after step 4, both seen from the state before the
event; `Enters.entersHandler` reads the claim's `EntersHandler` off. A synchronous fault (`syncFault_enters`) and a
waiting event (`deliverAsync_enters`) both end in it.
-/
namespace Sys2Proof.Claims
open Sys2Proof.Machine

/-! ### A fetch changes translation caches alone -/

/-- The state after reads of code: it differs in what translation caches hold and in nothing else. -/
def Fetches (s u : State) : Prop :=
  (∃ ts, u = { s with tiles := ts }) ∧ ∀ k, { u.tile k with tcache := [] } = { s.tile k with tcache := [] }

theorem Fetches.refl (s : State) : Fetches s s := ⟨⟨s.tiles, rfl⟩, fun _ => rfl⟩

theorem Fetches.trans {s u v : State} (h : Fetches s u) (g : Fetches u v) : Fetches s v := by
  obtain ⟨⟨a, hu⟩, htiles⟩ := h
  obtain ⟨⟨b, hv⟩, gtiles⟩ := g
  exact ⟨⟨b, by rw [hv, hu]⟩, fun k => (gtiles k).trans (htiles k)⟩

theorem Fetches.setTcache (s : State) (t : Nat) (l : List TcEntry) :
    Fetches s (s.setTile t { s.tile t with tcache := l }) := by
  refine ⟨⟨_, rfl⟩, fun k => ?_⟩
  rw [State.tile_setTile]
  split_ifs with h
  · rw [h]
  · rfl

theorem translate_fetches (s : State) (t key va : Nat) : Fetches s (s.translate t key va).2 := by
  unfold State.translate
  dsimp only
  split
  · exact .refl s
  · split_ifs
    · exact .refl s
    · split
      · exact .refl s
      · exact .setTcache s t _

theorem fetchBytes_fetches (s : State) (t cls va n : Nat) : Fetches s (s.fetchBytes t cls va n).2 := by
  induction n generalizing s va with
  | zero => exact .refl s
  | succ n ih =>
    have hfirst := translate_fetches s t (2 ^ 20 + cls) va
    unfold State.fetchBytes
    generalize s.translate t (2 ^ 20 + cls) va = r at hfirst ⊢
    obtain ⟨_ | ⟨e, sh⟩, v⟩ := r
    · exact hfirst
    · have hrest := hfirst.trans (ih v ((va + 1) % 2 ^ 56))
      dsimp only
      split_ifs
      · exact hfirst
      · exact hfirst
      · generalize v.fetchBytes t cls ((va + 1) % 2 ^ 56) n = r at hrest ⊢
        obtain ⟨_ | _, w⟩ := r <;> exact hrest

theorem fetchWord_fetches (s : State) (t cls va : Nat) : Fetches s (s.fetchWord t cls va).2 := by
  have hlow := fetchBytes_fetches s t cls va 2
  unfold State.fetchWord
  split
  · rename_i b0 b1 v hr
    rw [hr] at hlow
    have hhigh := hlow.trans (fetchBytes_fetches v t cls ((va + 2) % 2 ^ 56) 2)
    split_ifs
    · split
      · rename_i hw
        rw [hw] at hhigh
        exact hhigh
      · exact hhigh
    · exact hlow
  · exact hlow

/-! ### A fetch reads the translation tables, memory and poison marks alone -/

/-- What a fetch reads of the state. -/
def codeOf (s : State) : Tab Tile × Memory × List Nat := (s.tiles, s.mem, s.poison)

theorem translate_congr {s u : State} (h : codeOf u = codeOf s) (t key va : Nat) :
    (u.translate t key va).1 = (s.translate t key va).1 ∧
      codeOf (u.translate t key va).2 = codeOf (s.translate t key va).2 := by
  obtain ⟨ht, hm, hp⟩ : u.tiles = s.tiles ∧ u.mem = s.mem ∧ u.poison = s.poison := by simpa [codeOf] using h
  have htile : u.tile t = s.tile t := congrArg (Tab.get ({} : Tile) t) ht
  unfold State.translate
  rw [htile, hm]
  dsimp only
  split
  · exact ⟨rfl, h⟩
  · split_ifs
    · exact ⟨rfl, h⟩
    · split
      · exact ⟨rfl, h⟩
      · exact ⟨rfl, by simp only [codeOf, State.setTile, ht, hm, hp]⟩

theorem fetchBytes_congr {s u : State} (h : codeOf u = codeOf s) (t cls va n : Nat) :
    (u.fetchBytes t cls va n).1 = (s.fetchBytes t cls va n).1 ∧
      codeOf (u.fetchBytes t cls va n).2 = codeOf (s.fetchBytes t cls va n).2 := by
  induction n generalizing s u va with
  | zero => exact ⟨rfl, h⟩
  | succ n ih =>
    have hfirst := translate_congr h t (2 ^ 20 + cls) va
    unfold State.fetchBytes
    generalize s.translate t (2 ^ 20 + cls) va = r at hfirst ⊢
    generalize u.translate t (2 ^ 20 + cls) va = q at hfirst ⊢
    obtain ⟨o, v⟩ := r
    obtain ⟨o', w⟩ := q
    obtain ⟨rfl, hc⟩ : o' = o ∧ codeOf w = codeOf v := hfirst
    obtain ⟨ht, hm, hp⟩ : w.tiles = v.tiles ∧ w.mem = v.mem ∧ w.poison = v.poison := by simpa [codeOf] using hc
    rcases o' with _ | ⟨e, sh⟩
    · exact ⟨rfl, hc⟩
    · have hrest := ih hc ((va + 1) % 2 ^ 56)
      dsimp only
      rw [hm, hp]
      split_ifs
      · exact ⟨rfl, hc⟩
      · exact ⟨rfl, hc⟩
      · generalize v.fetchBytes t cls ((va + 1) % 2 ^ 56) n = r at hrest ⊢
        generalize w.fetchBytes t cls ((va + 1) % 2 ^ 56) n = q at hrest ⊢
        obtain ⟨b, v'⟩ := r
        obtain ⟨b', w'⟩ := q
        obtain ⟨rfl, hc'⟩ : b' = b ∧ codeOf w' = codeOf v' := hrest
        cases b' <;> exact ⟨rfl, hc'⟩

theorem fetchWord_congr {s u : State} (h : codeOf u = codeOf s) (t cls va : Nat) :
    (u.fetchWord t cls va).1 = (s.fetchWord t cls va).1 := by
  have hlow := fetchBytes_congr h t cls va 2
  unfold State.fetchWord
  generalize s.fetchBytes t cls va 2 = r at hlow ⊢
  generalize u.fetchBytes t cls va 2 = q at hlow ⊢
  obtain ⟨b, v⟩ := r
  obtain ⟨b', w⟩ := q
  obtain ⟨rfl, hc⟩ : b' = b ∧ codeOf w = codeOf v := hlow
  have hhigh := (fetchBytes_congr hc t cls ((va + 2) % 2 ^ 56) 2).1
  rcases b' with ⟨_ | ⟨b0, _ | ⟨b1, _ | _⟩⟩⟩ | c
  case ok.cons.cons.nil =>
    dsimp only
    split_ifs
    · generalize v.fetchBytes t cls ((va + 2) % 2 ^ 56) 2 = r at hhigh ⊢
      generalize w.fetchBytes t cls ((va + 2) % 2 ^ 56) 2 = q at hhigh ⊢
      obtain ⟨b, v'⟩ := r
      obtain ⟨b', w'⟩ := q
      obtain rfl : b' = b := hhigh
      cases b' <;> rfl
    · rfl
  all_goals rfl

theorem outside_setSlot (s : State) (k : Nat) (v : Slot) : (s.setSlot k v).outside = s.outside := rfl

/-! ### Lending changes SPRIO.EFF alone (R361) -/

/-- A slot with another effective priority. -/
def lent (k : Slot) (n : Nat) : Slot := { k with regs := { k.regs with eff := n } }

/-- Slots differ in their effective priorities alone, and nothing else has changed. -/
def Lends (s u : State) : Prop :=
  (∃ sls, u = { s with slots := sls }) ∧ ∀ k, ∃ n, u.slot k = lent (s.slot k) n

theorem Lends.refl (s : State) : Lends s s := ⟨⟨s.slots, rfl⟩, fun k => ⟨(s.slot k).regs.eff, rfl⟩⟩

theorem Lends.trans {s u v : State} (h : Lends s u) (g : Lends u v) : Lends s v := by
  obtain ⟨⟨a, hu⟩, hslot⟩ := h
  obtain ⟨⟨b, hv⟩, gslot⟩ := g
  refine ⟨⟨b, by rw [hv, hu]⟩, fun k => ?_⟩
  obtain ⟨n, hn⟩ := hslot k
  obtain ⟨m, hm⟩ := gslot k
  exact ⟨m, by rw [hm, hn]; rfl⟩

theorem Lends.setSlot (s : State) (k n : Nat) : Lends s (s.setSlot k (lent (s.slot k) n)) := by
  refine ⟨⟨_, rfl⟩, fun j => ?_⟩
  rw [State.slot_setSlot]
  split_ifs with h
  · exact ⟨n, by rw [h]⟩
  · exact ⟨(s.slot j).regs.eff, rfl⟩

theorem Lends.outside {s u : State} (h : Lends s u) : u.outside = s.outside := by
  obtain ⟨⟨sls, rfl⟩, -⟩ := h
  rfl

theorem Lends.stream {s u : State} (h : Lends s u) (j : Nat) : u.stream j = s.stream j := by
  obtain ⟨⟨sls, rfl⟩, -⟩ := h
  rfl

theorem foldl_lends (eff : Nat → Nat) (ks : List Nat) (s : State) :
    Lends s (ks.foldl (fun s k => s.setSlot k (lent (s.slot k) (eff k))) s) := by
  induction ks generalizing s with
  | nil => exact .refl s
  | cons k ks ih => exact (Lends.setSlot s k (eff k)).trans (ih _)

theorem relend_lends (s : State) (tile : Nat) : Lends s (s.relend tile) := foldl_lends _ _ s

/-! ### The streams of a slot changed one after another -/

/-- The streams of slot `k`, each changed by `g`. -/
def mapStreams (k : Nat) (g : Stream → Stream) (s : State) : State :=
  (List.range 5).foldl (fun s f => s.setStream (5 * k + f) (g (s.stream (5 * k + f)))) s

theorem foldl_setStream_stream (k : Nat) (g : Stream → Stream) (fs : List Nat) (hfs : fs.Nodup) (s : State) (j : Nat) :
    (fs.foldl (fun s f => s.setStream (5 * k + f) (g (s.stream (5 * k + f)))) s).stream j =
      if ∃ f ∈ fs, j = 5 * k + f then g (s.stream j) else s.stream j := by
  induction fs generalizing s with
  | nil => simp
  | cons f fs ih =>
    obtain ⟨hf, hfs⟩ := List.nodup_cons.1 hfs
    rw [List.foldl_cons, ih hfs, State.stream_setStream]
    by_cases hj : j = 5 * k + f
    · subst hj
      simp [hf]
    · simp [hj]

theorem mapStreams_stream (k : Nat) (g : Stream → Stream) (s : State) (j : Nat) :
    (mapStreams k g s).stream j = if j / 5 = k then g (s.stream j) else s.stream j := by
  rw [mapStreams, foldl_setStream_stream k g _ List.nodup_range]
  refine if_congr ⟨?_, fun h => ⟨j % 5, List.mem_range.2 (by omega), by omega⟩⟩ rfl rfl
  rintro ⟨f, hf, rfl⟩
  have := List.mem_range.1 hf
  omega

theorem foldl_setStream_frame (k : Nat) (g : Stream → Stream) (fs : List Nat) (s : State) :
    ∃ sts, fs.foldl (fun s f => s.setStream (5 * k + f) (g (s.stream (5 * k + f)))) s = { s with streams := sts } := by
  induction fs generalizing s with
  | nil => exact ⟨s.streams, rfl⟩
  | cons f fs ih =>
    obtain ⟨sts, h⟩ := ih (s.setStream (5 * k + f) (g (s.stream (5 * k + f))))
    exact ⟨sts, h⟩

theorem mapStreams_frame (k : Nat) (g : Stream → Stream) (s : State) :
    ∃ sts, mapStreams k g s = { s with streams := sts } := foldl_setStream_frame k g _ s

theorem mapStreams_slot (k : Nat) (g : Stream → Stream) (s : State) (j : Nat) : (mapStreams k g s).slot j = s.slot j := by
  obtain ⟨sts, h⟩ := mapStreams_frame k g s
  rw [h]
  rfl

theorem mapStreams_outside (k : Nat) (g : Stream → Stream) (s : State) : (mapStreams k g s).outside = s.outside := by
  obtain ⟨sts, h⟩ := mapStreams_frame k g s
  rw [h]
  rfl

/-! ### The stop of a slot's streams (steps 1 to 3 of R362) -/

theorem interruptPass_noPass {s : State} {p : Place} (h : NoPass s p) : s.interruptPass p.slotK = s := by
  unfold State.interruptPass
  dsimp only
  split
  · rfl
  · rename_i ps start hr
    rw [if_pos (h ps start hr)]

/-- A stream stopped at its boundary by a trap. -/
def stopped (st : Stream) : Stream := { st.halt with moved := false }

/-- A slot stopped for an event, its trap registers loaded, seen from the state before. -/
structure Stops (s u : State) (p : Place) (async : Bool) (e : Event) : Prop where
  stream : ∀ j, u.stream j = if j / 5 = p.slotK then stopped (s.stream j) else s.stream j
  self : ∃ n, u.slot p.slotK =
    { s.slot p.slotK with mode := .trapped, regs := { (s.slot p.slotK).regs.load async p.stream e with eff := n } }
  other : ∀ k, k ≠ p.slotK → ∃ n, u.slot k = lent (s.slot k) n
  outside : u.outside = s.outside

theorem pcBack_four (pc : Word) : pcBack pc 4 = addr56 (pc - 4) := rfl

theorem load_lent (k : Slot) (n : Nat) (async : Bool) (f : Nat) (e : Event) :
    { lent k n with mode := .trapped, regs := (lent k n).regs.load async f e } =
      { k with mode := .trapped, regs := { k.regs.load async f e with eff := n } } := rfl

section
variable {s : State} {p : Place} {async : Bool} {e : Event} (hpass : NoPass s p)
include hpass

/-- The stop in its parts: the streams halt, priorities are lent anew, the handler's moves are forgotten, and the trap
registers are loaded. -/
theorem stopForTrap_eq : ∃ u, Lends (mapStreams p.slotK Stream.halt s) u ∧
    s.stopForTrap p async e = (mapStreams p.slotK (fun st => { st with moved := false }) u).setSlot p.slotK
      { u.slot p.slotK with mode := .trapped, regs := (u.slot p.slotK).regs.load async p.stream e } := by
  refine ⟨_, relend_lends _ (p.slotK / 32), ?_⟩
  rw [← mapStreams_slot p.slotK fun st => { st with moved := false }]
  unfold State.stopForTrap
  rw [interruptPass_noPass hpass]
  rfl

theorem stopForTrap_stream (j : Nat) : (s.stopForTrap p async e).stream j =
    if j / 5 = p.slotK then stopped (s.stream j) else s.stream j := by
  obtain ⟨u, hu, he⟩ := stopForTrap_eq (async := async) (e := e) hpass
  rw [he, State.stream_setSlot, mapStreams_stream, hu.stream, mapStreams_stream]
  split_ifs <;> rfl

theorem stopForTrap_slot_self : ∃ n, (s.stopForTrap p async e).slot p.slotK =
    { s.slot p.slotK with mode := .trapped, regs := { (s.slot p.slotK).regs.load async p.stream e with eff := n } } := by
  obtain ⟨u, ⟨-, hu⟩, he⟩ := stopForTrap_eq (async := async) (e := e) hpass
  obtain ⟨n, hn⟩ := hu p.slotK
  exact ⟨n, by rw [he, State.slot_setSlot_same, hn, mapStreams_slot, load_lent]⟩

theorem stopForTrap_slot_other {k : Nat} (hk : k ≠ p.slotK) :
    ∃ n, (s.stopForTrap p async e).slot k = lent (s.slot k) n := by
  obtain ⟨u, ⟨-, hu⟩, he⟩ := stopForTrap_eq (async := async) (e := e) hpass
  obtain ⟨n, hn⟩ := hu k
  exact ⟨n, by rw [he, State.slot_setSlot_other _ hk, mapStreams_slot, hn, mapStreams_slot]⟩

theorem stopForTrap_outside : (s.stopForTrap p async e).outside = s.outside := by
  obtain ⟨u, hu, he⟩ := stopForTrap_eq (async := async) (e := e) hpass
  rw [he, outside_setSlot, mapStreams_outside, hu.outside, mapStreams_outside]

theorem stopForTrap_stops : Stops s (s.stopForTrap p async e) p async e :=
  ⟨stopForTrap_stream hpass, stopForTrap_slot_self hpass, fun _ hk => stopForTrap_slot_other hpass hk,
    stopForTrap_outside hpass⟩

end

/-! ### The handler (step 4 of R362) -/

/-- A slot whose C stream has entered its handler at TVEC. -/
def inHandler (k : Slot) : Slot :=
  { k with
    mode := .trapped, frozen := false, regs := { k.regs with super := true }
    sup := { k.sup with pc := k.regs.tvec, block := none, ext := none, wait := none, push := [], ended := false
                        moved := false, stalled := none, ready := none, blocked := false } }

theorem enterHandler_lands {s : State} {p : Place} (h : HandlerLands s p) : ∃ v, Fetches s v ∧
    s.enterHandler p = v.setSlot p.slotK (inHandler (s.slot p.slotK)) := by
  obtain ⟨bs, v, hfetch, hheader⟩ := h
  have hv : Fetches s v := by
    have := fetchWord_fetches s p.tile 0 (s.slot p.slotK).regs.tvec.toNat
    rwa [hfetch] at this
  have hslot : v.slot p.slotK = s.slot p.slotK := by
    obtain ⟨⟨ts, h⟩, -⟩ := hv
    rw [h]
    rfl
  refine ⟨v, hv, ?_⟩
  unfold State.enterHandler
  dsimp only
  rw [hfetch]
  simp only [hheader, Bool.not_true, Bool.false_eq_true, if_false, hslot]
  rfl

/-- Whether a handler lands is the same where the same code stands at the same TVEC. -/
theorem HandlerLands.congr {s u : State} {p : Place} (h : HandlerLands s p) (hcode : codeOf u = codeOf s)
    (htvec : (u.slot p.slotK).regs.tvec = (s.slot p.slotK).regs.tvec) : HandlerLands u p := by
  obtain ⟨bs, v, hfetch, hheader⟩ := h
  have hsame := fetchWord_congr hcode p.tile 0 (s.slot p.slotK).regs.tvec.toNat
  rw [hfetch] at hsame
  refine ⟨bs, (u.fetchWord p.tile 0 (s.slot p.slotK).regs.tvec.toNat).2, ?_, hheader⟩
  rw [htvec]
  exact Prod.ext hsame rfl

/-- What a trap leaves of the units of the module: everything but the hub's log and the tiles' caches. -/
def unitsOf (s : State) : State := { s.outside with hub := {}, tiles := [] }

/-- A slot stopped for an event and its C stream in the handler, seen from the state before. -/
structure Enters (s u : State) (p : Place) (async : Bool) (e : Event) : Prop where
  stream : ∀ j, u.stream j = if j / 5 = p.slotK then stopped (s.stream j) else s.stream j
  self : ∃ n, u.slot p.slotK = inHandler
    { s.slot p.slotK with regs := { (s.slot p.slotK).regs.load async p.stream e with eff := n } }
  other : ∀ k, k ≠ p.slotK → ∃ n, u.slot k = lent (s.slot k) n
  units : unitsOf u = unitsOf s
  tiles : ∀ k, { u.tile k with tcache := [] } = { s.tile k with tcache := [] }

theorem Enters.streamsStop {s u : State} {p : Place} {async : Bool} {e : Event} (h : Enters s u p async e) :
    StreamsStop s u p.slotK := by
  intro f hf
  dsimp only
  rw [h.stream, if_pos (by omega), ← pcBack_four]
  exact ⟨rfl, rfl, rfl, rfl, rfl, rfl, rfl, rfl, rfl⟩

theorem Enters.trapTaken {s u : State} {p : Place} {async : Bool} {e : Event} (h : Enters s u p async e) :
    TrapTaken s u p async e := by
  have hstop := h.streamsStop
  obtain ⟨n, hself⟩ := h.self
  unfold TrapTaken
  dsimp only
  rw [hself]
  generalize s.slot p.slotK = k
  exact ⟨rfl, rfl, rfl, rfl, rfl, rfl, rfl, rfl, rfl, rfl, rfl, rfl, rfl, rfl, rfl, fun c => rfl, rfl, rfl, hstop⟩

theorem Enters.trapFrame {s u : State} {p : Place} {async : Bool} {e : Event} (h : Enters s u p async e) :
    TrapFrame s u p := by
  have hcur := congrArg State.cur h.units
  have hmem := congrArg State.mem h.units
  refine ⟨hcur, fun j hj => by rw [h.stream, if_neg hj], fun k hk => ?_,
    congrArg (fun v : State => { v with reports := [] }) h.units, h.tiles, fun a => congrArg (Memory.readByte · a) hmem⟩
  obtain ⟨n, hn⟩ := h.other k hk
  rw [hn]
  rfl

theorem Enters.entersHandler {s u : State} {p : Place} {async : Bool} {e : Event} (h : Enters s u p async e) :
    EntersHandler s u p async e := by
  have hreports := congrArg State.reports h.units
  refine ⟨h.trapTaken, h.trapFrame, hreports, ?_⟩
  obtain ⟨n, hself⟩ := h.self
  dsimp only
  rw [hself]
  exact ⟨rfl, rfl, rfl, rfl, rfl, rfl⟩

/-- The handler entered from a stopped slot, with what routing may have logged in between. -/
theorem Stops.enters {s v : State} {p : Place} {async : Bool} {e : Event} (h : Stops s v p async e)
    (hlands : HandlerLands s p) (hub : Hub) : Enters s ({ v with hub := hub }.enterHandler p) p async e := by
  obtain ⟨hstream, ⟨n, hself⟩, hother, hout⟩ := h
  have hcode : codeOf v = codeOf s := (congrArg codeOf hout :)
  have htile (k : Nat) : v.tile k = s.tile k := (congrArg (State.tile · k) hout :)
  have hlands' : HandlerLands { v with hub := hub } p := hlands.congr hcode (by
    change (v.slot p.slotK).regs.tvec = _
    rw [hself]; rfl)
  obtain ⟨w, ⟨⟨ts, hw⟩, htiles⟩, hu⟩ := enterHandler_lands hlands'
  have hwstream (j : Nat) : w.stream j = v.stream j := by rw [hw]; rfl
  have hwslot (j : Nat) : w.slot j = v.slot j := by rw [hw]; rfl
  rw [hu]
  refine ⟨fun j => ?_, ⟨n, ?_⟩, fun k hk => ?_, ?_, fun k => ?_⟩
  · rw [State.stream_setSlot, hwstream, hstream]
  · rw [State.slot_setSlot_same]
    change inHandler (v.slot p.slotK) = _
    rw [hself]
    rfl
  · rw [State.slot_setSlot_other _ hk, hwslot]
    exact hother k hk
  · have hunits : unitsOf v = unitsOf s := (congrArg unitsOf hout :)
    rw [← hunits, hw]
    rfl
  · exact (htiles k).trans (congrArg (fun x : Tile => { x with tcache := [] }) (htile k))

/-! ### A synchronous fault and a waiting event at DEST SLOT -/

theorem Stops.enters_unlogged {s v : State} {p : Place} {async : Bool} {e : Event} (h : Stops s v p async e)
    (hlands : HandlerLands s p) : Enters s (v.enterHandler p) p async e := h.enters hlands v.hub

theorem codeOf_setSlot (s : State) (k : Nat) (v : Slot) : codeOf (s.setSlot k v) = codeOf s := rfl

theorem NoPass.setSlot {s : State} {p : Place} (h : NoPass s p) (k : Nat) (v : Slot) : NoPass (s.setSlot k v) p := h

theorem logRouted_eq (s : State) (tile : Nat) (e : Event) : ∃ hub, s.logRouted tile e = { s with hub := hub } := by
  unfold State.logRouted
  split_ifs
  · exact ⟨_, rfl⟩
  · exact ⟨s.hub, rfl⟩

theorem frtDest_congr {s u : State} (h : u.outside = s.outside) (tile code : Nat) :
    u.frtDest tile code = s.frtDest tile code := (congrArg (State.frtDest · tile code) h :)

/-- R55, R362: a fault of user mode that FRT sends to the slot enters its handler. -/
theorem syncFault_enters {s : State} {p : Place} {e : Event} (h : UserRuns s p) (hlands : HandlerLands s p)
    (hdest : s.frtDest p.tile e.code = 0) : Enters s (s.syncFault p e) p false e := by
  obtain ⟨-, htile, -, -, huser, -, -, hpass⟩ := h
  have hstop := stopForTrap_stops (async := false) (e := e) hpass
  have hthimble : p.thimble = false := decide_eq_false (by omega)
  have hsuper : s.superAt p = false := by rw [State.superAt, huser, Bool.false_and]
  unfold State.syncFault
  rw [hthimble, hsuper]
  simp only [Bool.false_eq_true, if_false, frtDest_congr hstop.outside, hdest, if_true]
  obtain ⟨hub, hlog⟩ := logRouted_eq (s.stopForTrap p false e) p.tile { e with stream := p.stream }
  rw [hlog]
  exact hstop.enters hlands hub

theorem bounds_of_wf {p : Place} (hwf : p.wf = true) (ht : p.tile < 16) : p.core < 8 ∧ p.slot < 4 ∧ p.stream < 5 := by
  have h16 : p ≠ ⟨16, 0, 0, 0⟩ := by rintro rfl; exact absurd ht (by decide)
  obtain ⟨-, h⟩ : p.tile < 16 ∧ p.core < 8 ∧ p.slot < 4 ∧ p.stream < 5 := by
    simpa [Place.wf, h16, and_assoc] using hwf
  exact h

theorem placeOfSlot_slotK {p : Place} (hwf : p.wf = true) (ht : p.tile < 16) : placeOfSlot p.slotK p.stream = p := by
  obtain ⟨hc, hk, -⟩ := bounds_of_wf hwf ht
  obtain ⟨t, c, k, f⟩ := p
  simp only [placeOfSlot, Place.slotK, slotKey, coreKey, Place.mk.injEq]
  dsimp only at ht hc hk
  exact ⟨by omega, by omega, by omega, trivial⟩

/-- R364: the oldest event of a running user-mode slot enters its handler, in the stream it names or in C. -/
theorem deliverAsync_enters {s : State} {p : Place} {e : Event} {rest : List Event} (hwf : p.wf = true)
    (ht : p.tile < 16) (hf : p.stream = if e.stream < 5 then e.stream else 0)
    (hmode : (s.slot p.slotK).mode = .running) (hfrozen : (s.slot p.slotK).frozen = false)
    (huser : (s.slot p.slotK).regs.super = false) (hdie : s.dieOn p.tile = true)
    (hfifo : (s.slot p.slotK).fifo = e :: rest) (hpass : NoPass s p) (hlands : HandlerLands s p) :
    Enters (s.setSlot p.slotK { s.slot p.slotK with fifo := rest }) (s.deliverAsync p.slotK) p true e := by
  have hplace := placeOfSlot_slotK hwf ht
  have htile : p.slotK / 32 = p.tile := congrArg Place.tile hplace
  have hthimble : p.slotK ≠ 512 := by omega
  have hstop := stopForTrap_stops (async := true) (e := e) (hpass.setSlot p.slotK { s.slot p.slotK with fifo := rest })
  have hlands' : HandlerLands (s.setSlot p.slotK { s.slot p.slotK with fifo := rest }) p :=
    hlands.congr (codeOf_setSlot ..) (by rw [State.slot_setSlot_same])
  have heq : s.deliverAsync p.slotK =
      ((s.setSlot p.slotK { s.slot p.slotK with fifo := rest }).stopForTrap p true e).enterHandler p := by
    unfold State.deliverAsync
    dsimp only
    rw [hfifo]
    simp only [huser, hfrozen, hmode, htile, hdie, ← hf, hplace, hthimble, decide_true, Bool.not_true, Bool.or_false,
      Bool.false_eq_true, if_false]
  rw [heq]
  exact hstop.enters_unlogged hlands'

/-- Two states that a trap of the slot of `p` takes for one: they differ at most in how that slot's tack counts are
listed, in the hub and in the schedule. -/
structure Alike (s v : State) (p : Place) : Prop where
  stream : ∀ j, v.stream j = s.stream j
  other : ∀ k, k ≠ p.slotK → v.slot k = s.slot k
  self : { v.slot p.slotK with tack := [] } = { s.slot p.slotK with tack := [] }
  tack : ∀ c, (v.slot p.slotK).tackCount c = (s.slot p.slotK).tackCount c
  outside : { v.outside with hub := {} } = { s.outside with hub := {} }

section
variable {s v : State} {p : Place} (h : Alike s v p)
include h

theorem Alike.regs : (v.slot p.slotK).regs = (s.slot p.slotK).regs := (congrArg Slot.regs h.self :)

theorem Alike.tile (k : Nat) : v.tile k = s.tile k := (congrArg (State.tile · k) h.outside :)

theorem Alike.handlerLands (hl : HandlerLands s p) : HandlerLands v p :=
  hl.congr (congrArg codeOf h.outside :) (congrArg TrapRegs.tvec h.regs)

theorem Alike.noPass (hp : NoPass s p) : NoPass v p := by
  have hcore : v.core (p.slotK / 4) = s.core (p.slotK / 4) := (congrArg (State.core · (p.slotK / 4)) h.outside :)
  intro ps n hr
  rw [hcore] at hr
  exact hp ps n hr

theorem Alike.userRuns (hr : UserRuns s p) : UserRuns v p := by
  obtain ⟨hwf, ht, hmode, hfrozen, huser, hended, hdie, hpass⟩ := hr
  refine ⟨hwf, ht, ?_, ?_, ?_, ?_, ?_, h.noPass hpass⟩
  · exact (congrArg Slot.mode h.self :).trans hmode
  · exact (congrArg Slot.frozen h.self :).trans hfrozen
  · rw [h.regs, huser]
  · rw [h.stream, hended]
  · rw [State.dieOn, h.tile]
    exact hdie

theorem Alike.entersHandler {u : State} {async : Bool} {e : Event} (hu : EntersHandler v u p async e) :
    EntersHandler s u p async e := by
  have hsup : (v.slot p.slotK).sup = (s.slot p.slotK).sup := (congrArg Slot.sup h.self :)
  have hhandles : (v.slot p.slotK).handles = (s.slot p.slotK).handles := (congrArg Slot.handles h.self :)
  have htask : (v.slot p.slotK).task = (s.slot p.slotK).task := (congrArg Slot.task h.self :)
  have hfifo : (v.slot p.slotK).fifo = (s.slot p.slotK).fifo := (congrArg Slot.fifo h.self :)
  have hcur : v.cur = s.cur := (congrArg State.cur h.outside :)
  have hmem : v.mem = s.mem := (congrArg State.mem h.outside :)
  have hreports : v.reports = s.reports := (congrArg State.reports h.outside :)
  have hunits : ({ v.outside with hub := {}, tiles := [], reports := [] } : State) =
      { s.outside with hub := {}, tiles := [], reports := [] } :=
    (congrArg (fun w : State => { w with tiles := [], reports := [] }) h.outside :)
  obtain ⟨htaken, ⟨hc, hst, hsl, hun, hti, hme⟩, hre, hin⟩ := hu
  unfold TrapTaken StreamsStop at htaken
  dsimp only at htaken hin
  simp only [h.regs, hhandles, h.tack, htask, hfifo, h.stream] at htaken
  simp only [h.regs, hsup] at hin
  refine ⟨htaken, ⟨hc.trans hcur, fun j hj => (hst j hj).trans (h.stream j), fun k hk => ?_, hun.trans hunits,
    fun k => (hti k).trans (by rw [h.tile]), fun a => (hme a).trans (by rw [hmem])⟩, hre.trans hreports, hin⟩
  rw [← h.other k hk]
  exact hsl k hk

end

end Sys2Proof.Claims
end

section
/-!
O33: the instructions that trap.

A word that faults gives its W token back and takes the fault (`issueX_trap_enters`); TRAP and SYSC complete first and
then deliver an event of their own (`softTrap_enters`). What lies between the state the claim names and the one the trap
meets is `Alike`: the slot's tack counts are listed otherwise, and nothing else that a trap reads has changed.
-/
namespace Sys2Proof.Claims
open Sys2Proof.Machine

/-! ### The supervisor's instructions in user mode (R54) -/

theorem super_popped (s : State) (t : Tack) : (s.popped t).super = s.super :=
  State.super_of_own (State.cur_popped s t) (OnlyStream.popped s t).own

theorem UserRuns.super {s : State} (h : UserRuns s s.cur) : s.super = false := by
  obtain ⟨-, -, -, -, huser, -⟩ := h
  rw [State.super, State.superAt, huser, Bool.false_and]

/-- A W token taken and put back leaves every count as it was. -/
theorem tackCount_takeTack_addTack {k : Slot} {c : Nat} (h : 0 < k.tackCount c) (d : Nat) :
    ((k.takeTack c 1).addTack c 1).tackCount d = k.tackCount d := by
  by_cases hd : d = c
  · subst hd
    simp only [Slot.tackCount, Slot.addTack, Slot.takeTack, Tab.get_set_same] at *
    omega
  · simp only [Slot.tackCount, Slot.addTack, Slot.takeTack, Tab.get_set_other _ hd]

/-- The state of a word that faults: its W token is back in its channel (R121). -/
def returned (s : State) (t : Tack) : State :=
  if t.w then (s.popped t).setSlot s.cur.slotK (((s.popped t).slot s.cur.slotK).addTack (wChannel s.cur.stream s.me) 1)
  else s.popped t

theorem returned_alike {s : State} {t : Tack} (h : Ready s t) : Alike s (returned s t) s.cur := by
  unfold returned State.popped
  split_ifs with hw
  · have hslot : (s.setMySlot (s.mySlot.takeTack (wChannel s.cur.stream s.me) 1)).slot s.cur.slotK =
        s.mySlot.takeTack (wChannel s.cur.stream s.me) 1 := State.slot_setSlot_same ..
    rw [hslot]
    refine ⟨fun _ => rfl, fun k hk => ?_, ?_, fun c => ?_, rfl⟩
    · rw [State.slot_setSlot_other _ hk]
      exact State.slot_setSlot_other _ hk _
    · rw [State.slot_setSlot_same]
      rfl
    · rw [State.slot_setSlot_same]
      exact tackCount_takeTack_addTack (h.2 hw) c
  · exact ⟨fun _ => rfl, fun _ _ => rfl, rfl, fun _ => rfl, rfl⟩

/-- A word of a running user-mode stream that faults, at DEST SLOT. -/
theorem issueX_trap_enters {s : State} {t : Tack} {size : Nat} {body : State → Eff} {e : Event} (hready : Ready s t)
    (hruns : UserRuns s s.cur) (hlands : HandlerLands s s.cur) (hdest : s.frtDest s.cur.tile e.code = 0)
    (hb : body (s.popped t) = .trap e (s.popped t)) :
    ∃ u, issueX size t body s = .next u ∧ EntersHandler s u s.cur false e := by
  have hback := returned_alike hready
  have hdest' : (returned s t).frtDest s.cur.tile e.code = 0 := by
    have : (returned s t).frtDest s.cur.tile e.code = s.frtDest s.cur.tile e.code :=
      (congrArg (State.frtDest · s.cur.tile e.code) hback.outside :)
    rw [this, hdest]
  exact ⟨_, issueX_trap hready hb, hback.entersHandler
    (syncFault_enters (hback.userRuns hruns) (hback.handlerLands hlands) hdest').entersHandler⟩

/-- Dropping an EXT where there is none changes nothing of the stream. -/
theorem dropExt_alike {s : State} (hruns : UserRuns s s.cur) (hext : s.me.ext = none) :
    Alike s (s.setMe { s.me with ext := none }) s.cur := by
  have hsuper : s.superAt s.cur = false := hruns.super
  have hme : s.me = s.stream s.cur.streamK := by rw [State.me, State.at, hsuper, if_neg Bool.false_ne_true]
  have hset (v : Stream) : s.setMe v = s.setStream s.cur.streamK v := by
    rw [State.setMe, State.setAt, hsuper, if_neg Bool.false_ne_true]
  rw [hset]
  refine ⟨fun j => ?_, fun _ _ => rfl, rfl, fun _ => rfl, rfl⟩
  rw [State.stream_setStream]
  split_ifs with hj
  · rw [hj, ← hme, ← hext]
  · rfl

theorem issue_trap_enters {s : State} {t : Tack} {size : Nat} {body : State → Eff} {e : Event} (hready : Ready s t)
    (hruns : UserRuns s s.cur) (hext : s.me.ext = none) (hlands : HandlerLands s s.cur)
    (hdest : s.frtDest s.cur.tile e.code = 0) (hb : ∀ v : State, v.super = false → body v = .trap e v) :
    ∃ u, issue size t body s = .next u ∧ EntersHandler s u s.cur false e := by
  have hdrop := dropExt_alike hruns hext
  have hme : (s.setMe { s.me with ext := none }).me = s.me := by rw [State.me_setMe, ← hext]
  have hcur : (s.setMe { s.me with ext := none }).cur = s.cur := State.cur_setMe s _
  unfold issue
  generalize s.setMe { s.me with ext := none } = v at hdrop hme hcur ⊢
  have hready' : Ready v t := by
    refine ⟨by rw [hme]; exact hready.1, fun hw => ?_⟩
    rw [hme, State.mySlot, hcur, hdrop.tack]
    exact hready.2 hw
  have hvruns : UserRuns v v.cur := by rw [hcur]; exact hdrop.userRuns hruns
  have hvdest : v.frtDest v.cur.tile e.code = 0 := by
    rw [hcur, ← hdest]
    exact (congrArg (State.frtDest · s.cur.tile e.code) hdrop.outside :)
  obtain ⟨u, hu, henters⟩ := issueX_trap_enters hready' hvruns (by rw [hcur]; exact hdrop.handlerLands hlands) hvdest
    (hb _ (by rw [super_popped, hvruns.super]))
  rw [hcur] at henters
  exact ⟨u, hu, hdrop.entersHandler henters⟩

theorem sysPrivileged_of_supervisorOnly {i : Nat} (h : SupervisorOnly i) : sysPrivileged i = true := by
  simp only [SupervisorOnly, List.mem_cons, List.not_mem_nil, or_false] at h
  simp only [sysPrivileged, Bool.or_eq_true, Bool.and_eq_true, decide_eq_true_eq]
  tauto

/-! ### TRAP and SYSC (R143) -/

theorem immU_eq_immOfU (s : State) (imm : BitVec 15) : s.immU imm = immOfU s 15 imm := by
  unfold State.immU immOfU
  cases s.me.ext with
  | none => rfl
  | some e => exact (Laws.toNat_joined e imm).symm

theorem pushTack_blocked (s : State) (p : Place) (c : Nat) : ((s.pushTack p c).at p).blocked = (s.at p).blocked := by
  unfold State.pushTack
  dsimp only
  split_ifs
  · simp only [State.at, State.superAt, State.slot_setSlot_same, State.stream_setSlot, Slot.addTack]
    rfl
  · exact (congrArg Stream.blocked (State.at_setAt s p _) :)

theorem complete_blocked (s : State) (p : Place) (t : Tack) (c : Nat) : ((s.complete p t c).at p).blocked = false := by
  unfold State.complete
  dsimp only
  split_ifs
  · rw [pushTack_blocked, State.at_setAt]
  · rw [State.at_setAt]

theorem retireAt_blocked (s : State) (p : Place) (size : Nat) (t : Tack) : ((s.retireAt p size t).at p).blocked = false :=
  complete_blocked ..

theorem UserRuns.me {s : State} (h : UserRuns s s.cur) : s.me = s.stream s.cur.streamK := by
  rw [State.me, State.at, show s.superAt s.cur = false from h.super, if_neg Bool.false_ne_true]

section
variable {s v : State} (hv : OnlyStream s v)
include hv

/-- What OnlyStream leaves of the executing slot beside its tack counts and its bank. -/
theorem onlyStream_slot_rest : (v.slot s.cur.slotK).rest = (s.slot s.cur.slotK).rest := by
  have hown := hv.own
  rwa [State.mySlot, hv.cur] at hown

theorem onlyStream_handlerLands (h : HandlerLands s s.cur) : HandlerLands v s.cur :=
  h.congr (congrArg codeOf hv.outside :) (congrArg (fun k : Slot => k.regs.tvec) (onlyStream_slot_rest hv) :)

/-- A word that completes in sequence leaves its stream running. -/
theorem onlyStream_userRuns (hended : v.me.ended = s.me.ended) (h : UserRuns s s.cur) : UserRuns v s.cur := by
  have hsuper : v.super = false := (State.super_of_own hv.cur hv.own).trans h.super
  have hvme : v.me = v.stream s.cur.streamK := by
    rw [State.me, State.at, show v.superAt v.cur = false from hsuper, if_neg Bool.false_ne_true, hv.cur]
  have hcore : v.core (s.cur.slotK / 4) = s.core (s.cur.slotK / 4) := (congrArg (State.core · (s.cur.slotK / 4)) hv.outside :)
  rw [h.me, hvme] at hended
  obtain ⟨hwf, ht, hmode, hfrozen, huser, hend, hdie, hpass⟩ := h
  refine ⟨hwf, ht, (congrArg Slot.mode (onlyStream_slot_rest hv) :).trans hmode, (congrArg Slot.frozen (onlyStream_slot_rest hv) :).trans hfrozen,
    (congrArg (fun k : Slot => k.regs.super) (onlyStream_slot_rest hv) :).trans huser, hended.trans hend,
    (congrArg (State.dieOn · s.cur.tile) hv.outside :).trans hdie, fun ps n hr => ?_⟩
  rw [hcore] at hr
  exact hpass ps n hr

end

/-- A word without effect of its own completes. -/
theorem popped_retire {s : State} (t : Tack) :
    let v := (s.popped t).retireAt s.cur 4 t
    OnlyStream s v ∧ Sequential s v 4 s.x 0 := by
  have hframe := State.retire_frame (s.popped t) 4 t
  rw [State.cur_popped] at hframe
  refine ⟨(OnlyStream.popped s t).trans hframe, Sequential.of_retire 4 t (State.cur_popped s t) (State.x_popped s t) ?_ ?_ ?_ ?_ ?_⟩
  all_goals rw [State.me_popped]
  exact (BitVec.or_zero).symm

/-- An event at the end of a slot's queue, with what routing may have logged. -/
def queued (v : State) (hub : Hub) (k : Nat) (e : Event) : State :=
  { ({ v with hub := hub } : State).setSlot k { v.slot k with fifo := (v.slot k).fifo ++ [e] } with turns := v.turns }

theorem queued_slot (v : State) (hub : Hub) (k : Nat) (e : Event) :
    (queued v hub k e).slot k = { v.slot k with fifo := (v.slot k).fifo ++ [e] } :=
  State.slot_setSlot_same ({ v with hub := hub } : State) k _

theorem queued_slot_other (v : State) (hub : Hub) {k j : Nat} (e : Event) (h : j ≠ k) :
    (queued v hub k e).slot j = v.slot j :=
  State.slot_setSlot_other ({ v with hub := hub } : State) h _

/-- An event put into an empty queue is delivered at once. -/
theorem queued_delivered {v : State} {p : Place} {e : Event} (hub : Hub) (hruns : UserRuns v p) (hlands : HandlerLands v p)
    (hfifo : (v.slot p.slotK).fifo = []) (hstream : e.stream = p.stream) (h5 : p.stream < 5) :
    EntersHandler v ((queued v hub p.slotK e).deliverAsync p.slotK) p true e := by
  obtain ⟨hwf, ht, hmode, hfrozen, huser, -, hdie, hpass⟩ := hruns
  have hself := queued_slot v hub p.slotK e
  have hpass' : NoPass (queued v hub p.slotK e) p := hpass
  have hdie' : (queued v hub p.slotK e).dieOn p.tile = true := hdie
  have hlands' : HandlerLands (queued v hub p.slotK e) p := hlands.congr rfl (by rw [hself])
  have hstreams (j : Nat) : (queued v hub p.slotK e).stream j = v.stream j := rfl
  have hout : ({ (queued v hub p.slotK e).outside with hub := {} } : State) = { v.outside with hub := {} } := rfl
  have hother (j : Nat) (h : j ≠ p.slotK) := queued_slot_other v hub e h
  generalize queued v hub p.slotK e = w at hself hpass' hdie' hlands' hstreams hout hother ⊢
  rw [hfifo, List.nil_append] at hself
  have henters := deliverAsync_enters (rest := []) hwf ht (by rw [hstream, if_pos h5]) (by rw [hself, hmode])
    (by rw [hself, hfrozen]) (by rw [hself, huser]) hdie' (by rw [hself]) hpass' hlands'
  have halike : Alike v (w.setSlot p.slotK { w.slot p.slotK with fifo := [] }) p := by
    refine ⟨hstreams, fun k hk => ?_, ?_, fun c => ?_, hout⟩
    · rw [State.slot_setSlot_other _ hk, hother k hk]
    · rw [State.slot_setSlot_same, hself, ← hfifo]
    · rw [State.slot_setSlot_same, hself]
      rfl
  exact halike.entersHandler henters.entersHandler

/-- TRAP and SYSC of a running user-mode slot with an empty queue, at DEST SLOT: the word completes, and its event enters
the handler. -/
theorem softTrap_enters {s : State} {t : Tack} (code : Nat) (d : Reg) (imm : BitVec 15) (hready : Ready s t)
    (hruns : UserRuns s s.cur) (hfifo : s.mySlot.fifo = []) (hlands : HandlerLands s s.cur)
    (hdest : s.frtDest s.cur.tile code = 0) :
    ∃ v u, OnlyStream s v ∧ Sequential s v 4 s.x 0 ∧ softTrap code d imm t s = .next u ∧
      EntersHandler v u s.cur true (softEvent code (s.immU imm) (s.x d) s.cur.stream) := by
  obtain ⟨hv, hseq⟩ := popped_retire (s := s) t
  have hissue : issueX 4 t (fun s => .done s) s = .next ((s.popped t).retireAt s.cur 4 t) := issueX_done hready rfl
  have hblocked := retireAt_blocked (s.popped t) s.cur 4 t
  generalize (s.popped t).retireAt s.cur 4 t = v at hv hseq hissue hblocked
  have hvdest : v.frtDest s.cur.tile code = 0 := (frtDest_congr hv.outside ..).trans hdest
  have hvfifo : (v.slot s.cur.slotK).fifo = [] := (congrArg Slot.fifo (onlyStream_slot_rest hv) :).trans hfifo
  obtain ⟨hthimble, h5⟩ : s.cur.thimble = false ∧ s.cur.stream < 5 := by
    obtain ⟨hwf, ht, -⟩ := hruns
    exact ⟨decide_eq_false (by omega), (bounds_of_wf hwf ht).2.2⟩
  obtain ⟨hub, hlog⟩ := logRouted_eq v s.cur.tile (softEvent code (s.immU imm) (s.x d) s.cur.stream)
  refine ⟨v, _, hv, hseq, ?_, queued_delivered hub (onlyStream_userRuns hv hseq.ended hruns)
    (onlyStream_handlerLands hv hlands) hvfifo rfl h5⟩
  unfold softTrap
  simp only [hruns.super, hthimble, hissue, hblocked, hvdest, hlog, Bool.or_self, Bool.false_eq_true, if_false, if_true]
  rfl

theorem softEvent_eq (code n : Nat) (v : Word) (f : Nat) : softEvent code n v f =
    { code := code, stream := f, info1 := BitVec.ofNat 64 (n % 2 ^ 32 * 2 ^ 32), info2 := v } := by
  simp [softEvent, tinfo1]

/-! ### The statement -/

section
variable {s : State} {t : Tack} (hready : Ready s t) (hruns : UserRuns s s.cur) (hlands : HandlerLands s s.cur)
  (hdest : s.frtDest s.cur.tile 0x0D = 0)
include hready hruns hlands hdest

theorem eret_faults (hext : s.me.ext = none) : ∃ u, execEret t s = .next u ∧ EntersHandler s u s.cur false privFault :=
  issue_trap_enters hready hruns hext hlands hdest fun v hv => by simp [hv]

theorem wfi_faults (d : Reg) (hext : s.me.ext = none) :
    ∃ u, execWfi d t s = .next u ∧ EntersHandler s u s.cur false privFault :=
  issue_trap_enters hready hruns hext hlands hdest fun v hv => by simp [hv]

theorem mfs_faults (d : Reg) {idx : BitVec 12} (hidx : SupervisorOnly idx.toNat) :
    ∃ u, execMfs d idx t s = .next u ∧ EntersHandler s u s.cur false privFault :=
  issueX_trap_enters hready hruns hlands hdest (by
    simp [super_popped, hruns.super, sysPrivileged_of_supervisorOnly hidx])

theorem mts_faults (d : Reg) {idx : BitVec 12} (hidx : SupervisorOnly idx.toNat) :
    ∃ u, execMts d idx t s = .next u ∧ EntersHandler s u s.cur false privFault :=
  issueX_trap_enters hready hruns hlands hdest (by
    simp [super_popped, hruns.super, sysPrivileged_of_supervisorOnly hidx])

end

/-- Settles O33: TRAP and SYSC are `softTrap`; the other four answer the privilege fault, whose handler entry is that of
any fault. -/
theorem softwareTrapsAndPrivilege : Obligations.SoftwareTrapsAndPrivilege := by
  unfold Obligations.SoftwareTrapsAndPrivilege
  refine ⟨fun s t d imm hready hruns hfifo hlands => ?soft, fun s t d idx hready hruns hext hlands hdest => ?privileged⟩
  case soft =>
    have hsoft (code : Nat) := softTrap_enters code d imm hready hruns hfifo hlands
    simp only [softEvent_eq, immU_eq_immOfU] at hsoft
    exact ⟨hsoft 0x12, hsoft 0x13⟩
  case privileged =>
    exact ⟨eret_faults hready hruns hlands hdest hext, wfi_faults hready hruns hlands hdest d hext,
      fun hidx => ⟨mfs_faults hready hruns hlands hdest d hidx, mts_faults hready hruns hlands hdest d hidx⟩⟩

end Sys2Proof.Claims
end

section
/-!
O32: a trap of the thimble core's own handler.

The clause on supervisor mode asks that the user stream has not ended. What runs in supervisor mode is the supervisor's
bank (R53), of which the clause says nothing: a bank that has ended takes no fault, and the trap changes nothing.
-/
namespace Sys2Proof.Claims
open Sys2Proof.Machine

/-- The thimble core's slot as a handler whose supervisor bank has ended, while its user stream has not. -/
def endedHandler : State :=
  { slots := [(512, { mode := .running, regs := { super := true }, sup := { ended := true } })]
    streams := [(2560, { ended := false })] }

theorem mayFault_endedHandler : endedHandler.mayFault ⟨16, 0, 0, 0⟩ = false := rfl

theorem thimbleTrap_of_mayFault_false {s : State} {c : Cause} (h : s.mayFault ⟨16, 0, 0, 0⟩ = false) :
    exec (.thimbleTrap c) s = .next s := by
  change Host.Outcome.next (if s.mayFault ⟨16, 0, 0, 0⟩ then _ else s) = _
  rw [h, if_neg Bool.false_ne_true]

/-- Refutes O32: in `endedHandler` a THIMBLE_TRAP adds nothing to the runtime log. -/
theorem not_takingAnException : ¬ Obligations.TakingAnException := by
  unfold Obligations.TakingAnException
  rintro ⟨-, -, hthimble, -⟩
  obtain ⟨-, hsuper⟩ := hthimble endedHandler ⟨1, 0, 0, 0, 0⟩ rfl rfl rfl
  obtain ⟨u, hu, hlog, -⟩ := hsuper rfl
  rw [thimbleTrap_of_mayFault_false mayFault_endedHandler] at hu
  cases hu
  exact absurd hlog (List.cons_ne_nil _ _).symm

end Sys2Proof.Claims
end

section
/-!
O60: the values reset leaves.

Every table of `State.reset` is empty, so each object reads as its type's default, and each value is a field of a
default.
-/
namespace Sys2Proof.Claims
open Sys2Proof.Machine

theorem core_reset (k : Nat) : State.reset.core k = {} := rfl
theorem slot_reset (k : Nat) : State.reset.slot k = {} := rfl
theorem stream_reset (k : Nat) : State.reset.stream k = {} := rfl
theorem tile_reset (t : Nat) : State.reset.tile t = {} := rfl
theorem readByte_reset (a : Nat) : State.reset.mem.readByte a = 0 := rfl
theorem frt_reset (t code : Nat) : State.reset.frt t code = frtReset code := rfl

/-- Settles O60: each value is the default of its field. -/
theorem resetValues : Obligations.ResetValues := by
  unfold Obligations.ResetValues
  refine ⟨fun k => ⟨fun a row i _ _ _ => readByte_reset _, fun a => ?accum, ?matrix, fun b => ?bobbin, ?core⟩,
    fun k => ?regs, fun k => ?stream, rfl, rfl, fun t => ⟨?bsp, ?frt⟩⟩
  case accum =>
    rw [core_reset]
    exact ⟨rfl, rfl, fun row => ⟨rfl, rfl, rfl⟩⟩
  case matrix =>
    rw [core_reset]
    exact ⟨rfl, rfl, rfl, rfl, rfl, rfl, rfl, fun r => ⟨rfl, rfl, rfl⟩⟩
  case bobbin =>
    rw [core_reset]
    exact ⟨rfl, rfl, rfl, rfl, rfl, rfl, rfl⟩
  case core => simp [core_reset]
  case regs => simp [slot_reset]
  case stream => simp [stream_reset]
  case bsp => rw [tile_reset]
  case frt => simp [frt_reset, frtReset]

end Sys2Proof.Claims
end

section
/-!
O50: lining points.

Each clause is one event of the lining: the timer, the capture, the writer's progress and the commit. What each leaves
alone is said by writing the state it answers as the one it met with some fields replaced (`once_turns`, `nudge_turns`,
`drainCore_eq`, `performCore_eq`); what it does to the linings is a read of the table just written.
-/
namespace Sys2Proof.Claims
open Sys2Proof.Machine

/-! ### The schedule (log 4) -/

theorem once_turns (s : State) (d : Due) : ∃ ts, s.once d = { s with turns := ts } := by
  rcases once_cases s d with h | h
  · exact ⟨s.turns, h⟩
  · exact ⟨_, h⟩

theorem onceIf_turns (c : Bool) (s : State) (d : Due) : ∃ ts, (if c then s.once d else s) = { s with turns := ts } := by
  cases c
  · exact ⟨s.turns, rfl⟩
  · exact once_turns s d

theorem nudge_turns (s : State) (tile : Nat) : ∃ ts, s.nudge tile = { s with turns := ts } := by
  unfold State.nudge
  dsimp only
  obtain ⟨t0, h0⟩ := onceIf_turns (s.tile tile).xfm0.idle s (.xfmRecordStart tile 0)
  rw [h0]
  obtain ⟨t1, h1⟩ := onceIf_turns (s.tile tile).xfm1.idle { s with turns := t0 } (.xfmRecordStart tile 1)
  rw [h1]
  exact onceIf_turns (s.tile tile).walker.run { s with turns := t1 } (.walkerIterationStart tile)

/-! ### Linings read after a write -/

theorem lining_setLining (s : State) (k j : Nat) (v : Lining) :
    (s.setLining k v).lining j = if j = k then v else s.lining j := Tab.get_set ..

theorem tileLining_setTileLining (s : State) (t j : Nat) (v : TileLining) :
    (s.setTileLining t v).tileLining j = if j = t then v else s.tileLining j := Tab.get_set ..

/-! ### Commit records (R377, R378) -/

/-- A later sequence number passes against an earlier one, and not the other way round (R148). -/
theorem semPasses_of_newer {n m : BitVec 32} (h : 0 < (n - m).toInt) : semPasses n m = true ∧ semPasses m n = false := by
  have hforth : (n - m).msb = false := by
    rw [BitVec.msb_eq_toInt, decide_eq_false_iff_not]
    omega
  have hback : (m - n).msb = true := by
    rw [BitVec.toInt_eq_toNat_cond] at h
    rw [BitVec.msb_eq_decide, decide_eq_true_iff]
    have hn := n.isLt
    have hm := m.isLt
    rw [BitVec.toNat_sub] at h ⊢
    split_ifs at h <;> omega
  exact ⟨by rw [semPasses, hforth]; rfl, by rw [semPasses, hback]; rfl⟩

theorem validCommit_of_good {α : Type} {c : Commit α} (h : c.record.good = true) : validCommit (some c) = some c := by
  simp [validCommit, Option.filter, h]

/-- A good record newer than those in the places becomes the current one. -/
theorem current_put {α : Type} {p : Places α} {c : Commit α} (hgood : c.record.good = true)
    (hnew : NewerThan c.record.seq p) : (p.put c).current = some c := by
  have hc := validCommit_of_good hgood
  have hnewer {o : Option (Commit α)} {x : Commit α} (hx : validCommit o = some x)
      (ho : p.first = o ∨ p.second = o) : 0 < (c.record.seq - x.record.seq).toInt := by
    obtain ⟨rfl, hg⟩ := Option.filter_eq_some_iff.1 hx
    exact hnew x ho hg
  unfold Places.put
  split_ifs with hfirst
  · have hsecond : ({ p with second := some c } : Places α).firstCurrent = false := by
      unfold Places.firstCurrent at hfirst ⊢
      dsimp only
      rw [hc]
      cases hf : validCommit p.first with
      | none => rfl
      | some x => simp [(semPasses_of_newer (hnewer hf (.inl rfl))).1]
    rw [Places.current, hsecond, if_neg Bool.false_ne_true]
    exact hc
  · have hput : ({ p with first := some c } : Places α).firstCurrent = true := by
      unfold Places.firstCurrent
      dsimp only
      rw [hc]
      cases hs : validCommit p.second with
      | none => rfl
      | some x => simp [(semPasses_of_newer (hnewer hs (.inr rfl))).2]
    rw [Places.current, hput, if_pos rfl]

theorem committed_commit {l : Lining} {k : Nat} {p : CoreSnap} (h : NewerThan p.seq l.places) :
    (l.commit k p).committed = some p := by
  unfold Lining.committed Lining.commit
  dsimp only
  rw [current_put]
  · rfl
  · rfl
  · exact h

theorem tile_committed_commit {l : TileLining} {t : Nat} {n : BitVec 32} {p : TileSnap} (h : NewerThan n l.places) :
    (l.commit t n p).committed = some p := by
  unfold TileLining.committed TileLining.commit
  dsimp only
  rw [current_put]
  · rfl
  · rfl
  · exact h

/-! ### The timer (R44) -/

section
variable {s : State} {tile core : Nat}

theorem askLining_asks (s : State) (tile core : Nat) : Quiet s (s.askLining tile core).2 ∧
    (s.askLining tile core).2.auxOf (coreKey tile core) = { s.auxOf (coreKey tile core) with liningAsked := true } ∧
    (s.askLining tile core).2.linings = s.linings := by
  unfold State.askLining
  dsimp only
  by_cases h : (s.auxOf (coreKey tile core)).liningAsked = true
  · rw [if_pos h]
    exact ⟨.of_eq rfl rfl rfl, by rw [← h], rfl⟩
  · rw [if_neg h]
    exact ⟨.of_eq rfl rfl rfl, by rw [State.auxOf_later, State.auxOf_setAux_same], rfl⟩

theorem linePeriod_fires (hperiod : (s.core (8 * tile + core)).lpcfg.toNat % 65536 ≠ 0) (hdie : s.dieOn tile = true)
    (hfresh : s.hub.fresh = false)
    (htime : (s.auxOf (8 * tile + core)).timer + 2000 * ((s.core (8 * tile + core)).lpcfg.toNat % 65536) ≤ s.clock) :
    ∃ u, execPeriodicLiningTimer tile core s = .next u ∧ Quiet s u ∧ (u.auxOf (8 * tile + core)).liningAsked = true ∧
      (u.auxOf (8 * tile + core)).timer = s.clock ∧ u.linings = s.linings := by
  obtain ⟨hquiet, haux, hlinings⟩ := askLining_asks
    (s.setAux (8 * tile + core) { s.auxOf (8 * tile + core) with timer := s.clock }) tile core
  have hu : s.linePeriod tile core =
      ((s.setAux (8 * tile + core) { s.auxOf (8 * tile + core) with timer := s.clock }).askLining tile core).2 := by
    unfold State.linePeriod coreKey
    dsimp only
    rw [hdie, hfresh, if_neg]
    simp only [hperiod, Bool.not_true, Bool.false_eq_true, false_or]
    omega
  refine ⟨_, congrArg Host.Outcome.next hu, hquiet, ?_, ?_, hlinings⟩
  all_goals
    rw [coreKey, State.auxOf_setAux_same] at haux
    rw [haux]

theorem linePeriod_idle (h : (s.core (8 * tile + core)).lpcfg.toNat % 65536 = 0 ∨ s.hub.fresh = true ∨
    s.clock < (s.auxOf (8 * tile + core)).timer + 2000 * ((s.core (8 * tile + core)).lpcfg.toNat % 65536)) :
    s.linePeriod tile core = s := by
  unfold State.linePeriod coreKey
  dsimp only
  rw [if_pos]
  tauto

/-! ### The capture (R380) -/

theorem capture_fresh (h : s.hub.fresh = true) : s.capture tile core = s := by
  unfold State.capture
  simp [h]

theorem foldl_performEntry (es : List StoreEntry) (s : State) :
    ∃ m, es.foldl State.performEntry s = { s with mem := m } := by
  induction es generalizing s with
  | nil => exact ⟨s.mem, rfl⟩
  | cons e es ih =>
    obtain ⟨m, h⟩ := ih (s.performEntry e)
    exact ⟨m, h⟩

theorem drainCore_eq (s : State) (k : Nat) : ∃ m ax, s.drainCore k = { s with mem := m, aux := ax } ∧
    ((s.drainCore k).auxOf k).stores = [] := by
  unfold State.drainCore
  dsimp only
  obtain ⟨m, h⟩ := foldl_performEntry (s.auxOf k).stores s
  rw [h, State.auxOf_setAux_same]
  exact ⟨m, _, rfl, rfl⟩

/-- With no reduction of the core on its way, performing its accesses leaves every tile as it is. -/
theorem performCore_eq {k : Nat} (hred : ∀ t, ∀ r ∈ (s.tile t).reds, r.source / 20 ≠ k) :
    ∃ ts, s.performCore k = { s with tiles := ts } := by
  unfold State.performCore
  generalize s.tiles.map (·.1) = keys
  induction keys generalizing s with
  | nil => exact ⟨s.tiles, rfl⟩
  | cons t keys ih =>
    have hone : State.performWhere (fun r => decide (r.source / 20 = k)) s t = s.setTile t (s.tile t) := by
      have hmine : (s.tile t).reds.filter (fun r => decide (r.source / 20 = k)) = [] := by
        simpa using hred t
      have hrest : (s.tile t).reds.filter (fun r => !decide (r.source / 20 = k)) = (s.tile t).reds := by
        simpa using hred t
      unfold State.performWhere
      dsimp only
      rw [hmine, hrest]
      rfl
    have htile (j : Nat) : (s.setTile t (s.tile t)).tile j = s.tile j := by
      rw [State.tile_setTile]
      split_ifs with hj
      · rw [hj]
      · rfl
    obtain ⟨ts, h⟩ := ih (s := s.setTile t (s.tile t)) (fun j r hr => hred j r (htile j ▸ hr))
    rw [List.foldl_cons, hone]
    exact ⟨ts, h⟩

theorem settleCore_eq {k : Nat} (hred : ∀ e ∈ s.tiles, ∀ r ∈ e.2.reds, r.source / 20 ≠ k) :
    ∃ ax ts, s.settleCore k = { s with mem := (s.drainCore k).mem, aux := ax, tiles := ts } ∧
      ((s.settleCore k).auxOf k).stores = [] := by
  obtain ⟨m, ax, hdrain, hstores⟩ := drainCore_eq s k
  have hreds : ∀ t, ∀ r ∈ ((s.drainCore k).tile t).reds, r.source / 20 ≠ k := by
    rw [hdrain]
    exact fun t => Tab.forall_get (P := fun x : Tile => ∀ r ∈ x.reds, r.source / 20 ≠ k) (by simp) hred
  obtain ⟨ts, hperform⟩ := performCore_eq hreds
  unfold State.settleCore
  rw [hperform]
  refine ⟨ax, ts, ?_, hstores⟩
  rw [hdrain]

theorem outside_setAt (s : State) (p : Place) (v : Stream) : (s.setAt p v).outside = s.outside := by
  unfold State.setAt
  split_ifs <;> rfl

theorem outside_retireAt (s : State) (p : Place) (n : Nat) (t : Tack) : (s.retireAt p n t).outside = s.outside := by
  have hpush (u : State) (c : Nat) : (u.pushTack p c).outside = u.outside := by
    unfold State.pushTack
    dsimp only
    split_ifs
    · rfl
    · exact outside_setAt u p _
  unfold State.retireAt State.complete
  dsimp only
  split_ifs
  · rw [hpush, outside_setAt, outside_setAt]
  · rw [outside_setAt, outside_setAt]

theorem outside_pastFence (n : BitVec 32) (s : State) (q : Place) : (State.pastFence n s q).outside = s.outside := by
  unfold State.pastFence
  split
  · dsimp only
    split_ifs
    · rw [outside_retireAt]
      rfl
    · exact outside_retireAt ..
    · rfl
  · rfl

theorem outside_foldl {α : Type} {f : State → α → State} (hf : ∀ s a, (f s a).outside = s.outside) (as : List α) (s : State) :
    (as.foldl f s).outside = s.outside := by
  induction as generalizing s with
  | nil => rfl
  | cons a as ih => rw [List.foldl_cons, ih, hf]

theorem snapCore_takes (s : State) (tile core : Nat) (n : BitVec 32) :
    (s.snapCore tile core n).seq = n ∧ (s.snapCore tile core n).stitch = stitchOf s ∧
      (s.snapCore tile core n).core = s.core (8 * tile + core) ∧
      (s.snapCore tile core n).mem = s.mem.within (coreWindows (8 * tile + core)) := by
  have hhalt (u : State) (p : Place) : (u.setStream p.streamK (u.stream p.streamK).halt).outside = u.outside := rfl
  have hout (ps : List Place) : (ps.foldl (fun s p => s.setStream p.streamK (s.stream p.streamK).halt)
      (ps.foldl (State.pastFence n) s)).outside = s.outside :=
    (outside_foldl hhalt ps _).trans (outside_foldl (outside_pastFence n) ps s)
  unfold State.snapCore
  dsimp only
  generalize (List.range 4).flatMap _ = ps
  refine ⟨rfl, rfl, ?_, ?_⟩
  · exact (congrArg (State.core · (8 * tile + core)) (hout ps) :)
  · exact (congrArg (fun u : State => u.mem.within (coreWindows (8 * tile + core))) (hout ps) :)

/-- A point captured from a settled core: the state after the capture, but for the schedule. -/
def capturedState (s : State) (tile core : Nat) : State :=
  let k := coreKey tile core
  let snap := s.snapCore tile core ((s.core k).lpseq + 1)
  let s2 := s.setTile tile { s.tile tile with captures := (s.tile tile).captures + 1 }
  let s3 := s2.setAux k { s2.auxOf k with liningAsked := false }
  s3.setLining k { s3.lining k with
    drain := some snap, shared := some (s2.snapTile tile), left := s3.dirtyCore k ++ s3.dirtyTile tile }

theorem capturedState_lining (s : State) (tile core : Nat) : ∃ sh,
    (capturedState s tile core).lining (8 * tile + core) = { liningOf s tile core with
      drain := some (s.snapCore tile core ((s.core (8 * tile + core)).lpseq + 1)), shared := some sh
      left := s.dirtyCore (8 * tile + core) ++ s.dirtyTile tile } :=
  ⟨_, Tab.get_set_same ..⟩

theorem capturedState_aux (s : State) (tile core : Nat) :
    (capturedState s tile core).auxOf (8 * tile + core) = { s.auxOf (8 * tile + core) with liningAsked := false } :=
  State.auxOf_setAux_same (s.setTile tile _) ..

theorem capturedState_dirty (s : State) (tile core : Nat) :
    (capturedState s tile core).dirtyCore (8 * tile + core) = s.dirtyCore (8 * tile + core) ∧
      (capturedState s tile core).dirtyTile tile = s.dirtyTile tile := by
  obtain ⟨sh, hlining⟩ := capturedState_lining s tile core
  refine ⟨?_, rfl⟩
  unfold State.dirtyCore
  rw [hlining]
  rfl

theorem capture_captures (hasked : (s.auxOf (8 * tile + core)).liningAsked = true)
    (hdrain : (liningOf s tile core).drain = none) (hdie : s.dieOn tile = true) (hfresh : s.hub.fresh = false)
    (hpass : (s.core (8 * tile + core)).matrix.running = none)
    (hred : ∀ e ∈ s.tiles, ∀ r ∈ e.2.reds, r.source / 20 ≠ 8 * tile + core) :
    ∃ ts, s.capture tile core = { capturedState (s.settleCore (8 * tile + core)) tile core with turns := ts } := by
  have hstop : (s.settleCore (8 * tile + core)).stopPass (8 * tile + core) = s.settleCore (8 * tile + core) := by
    obtain ⟨ax, ts, h, -⟩ := settleCore_eq hred
    have hrun : ((s.settleCore (8 * tile + core)).core (8 * tile + core)).matrix.running = none := by rw [h]; exact hpass
    unfold State.stopPass
    rw [hrun]
  have hgo : (!(s.auxOf (8 * tile + core)).liningAsked || (s.lining (8 * tile + core)).drain.isSome || !s.dieOn tile ||
      s.hub.fresh) = false := by
    rw [hasked, show (s.lining (8 * tile + core)).drain = none from hdrain, hdie, hfresh]
    rfl
  have heq : s.capture tile core =
      ((capturedState (s.settleCore (8 * tile + core)) tile core).nudge tile).later (.liningCommit tile core) := by
    unfold State.capture coreKey
    dsimp only
    rw [hgo, hstop]
    rfl
  obtain ⟨ts, hts⟩ := nudge_turns (capturedState (s.settleCore (8 * tile + core)) tile core) tile
  exact ⟨_, by rw [heq, hts]; rfl⟩

theorem capture_point (hasked : (s.auxOf (8 * tile + core)).liningAsked = true)
    (hdrain : (liningOf s tile core).drain = none) (hdie : s.dieOn tile = true) (hfresh : s.hub.fresh = false)
    (hpass : (s.core (8 * tile + core)).matrix.running = none)
    (hred : ∀ e ∈ s.tiles, ∀ r ∈ e.2.reds, r.source / 20 ≠ 8 * tile + core) :
    ∃ u p, execLiningCapture tile core s = .next u ∧ StreamsUntouched s u ∧ u.mem = (s.drainCore (8 * tile + core)).mem ∧
      (u.auxOf (8 * tile + core)).liningAsked = false ∧ (u.auxOf (8 * tile + core)).stores = [] ∧
      (liningOf u tile core).drain = some p ∧ p.seq = (s.core (8 * tile + core)).lpseq + 1 ∧ p.stitch = stitchOf s ∧
      p.core = s.core (8 * tile + core) ∧ p.mem = u.mem.within (coreWindows (8 * tile + core)) ∧
      (liningOf u tile core).shared.isSome = true ∧
      (liningOf u tile core).left = u.dirtyCore (8 * tile + core) ++ u.dirtyTile tile ∧
      (liningOf u tile core).places = (liningOf s tile core).places ∧ u.cores = s.cores := by
  obtain ⟨turns, hcapture⟩ := capture_captures hasked hdrain hdie hfresh hpass hred
  obtain ⟨ax, ts, hsettle, hstores⟩ := settleCore_eq hred
  generalize s.settleCore (8 * tile + core) = w at hcapture hsettle hstores
  have hcore : w.core (8 * tile + core) = s.core (8 * tile + core) := by rw [hsettle]; rfl
  obtain ⟨hseq, hstitch, hsnap, hmem⟩ := snapCore_takes w tile core ((w.core (8 * tile + core)).lpseq + 1)
  obtain ⟨sh, hlining⟩ := capturedState_lining w tile core
  have haux := capturedState_aux w tile core
  obtain ⟨hdirtyCore, hdirtyTile⟩ := capturedState_dirty w tile core
  have hframe : (capturedState w tile core).cur = w.cur ∧ (capturedState w tile core).streams = w.streams ∧
      (capturedState w tile core).mem = w.mem ∧ (capturedState w tile core).cores = w.cores := ⟨rfl, rfl, rfl, rfl⟩
  have hsame : w.cur = s.cur ∧ w.streams = s.streams ∧ w.mem = (s.drainCore (8 * tile + core)).mem ∧ w.cores = s.cores ∧
      stitchOf w = stitchOf s ∧ liningOf w tile core = liningOf s tile core := by
    rw [hsettle]
    exact ⟨rfl, rfl, rfl, rfl, rfl, rfl⟩
  generalize capturedState w tile core = c at hcapture hlining haux hdirtyCore hdirtyTile hframe
  generalize w.snapCore tile core ((w.core (8 * tile + core)).lpseq + 1) = p at hseq hstitch hsnap hmem hlining
  obtain ⟨hcur, hstreams, hcmem, hcores⟩ := hframe
  obtain ⟨hwcur, hwstreams, hwmem, hwcores, hwstitch, hwlining⟩ := hsame
  have hquiet : Quiet { s with mem := c.mem } { c with turns := turns } :=
    .of_eq (hcur.trans hwcur) (hstreams.trans hwstreams) rfl
  refine ⟨{ c with turns := turns }, p, congrArg Host.Outcome.next hcapture, hquiet.1, hcmem.trans hwmem,
    (congrArg CoreAux.liningAsked haux :), (congrArg CoreAux.stores haux).trans hstores, (congrArg Lining.drain hlining :),
    hseq.trans (congrArg (·.lpseq + 1) hcore), hstitch.trans hwstitch, hsnap.trans hcore,
    hmem.trans (congrArg (·.within (coreWindows (8 * tile + core))) hcmem.symm), ?_, ?_, ?_, hcores.trans hwcores⟩
  · exact (congrArg (·.shared.isSome) hlining :)
  · exact (congrArg Lining.left hlining).trans (congrArg₂ (· ++ ·) hdirtyCore hdirtyTile).symm
  · rw [← hwlining]
    exact (congrArg Lining.places hlining :)

/-! ### The commit (R378, R380) -/

theorem commit_waits (h : (liningOf s tile core).left ≠ []) : s.commit tile core = s := by
  have hleft : (s.lining (coreKey tile core)).left ≠ [] := h
  unfold State.commit
  dsimp only
  split
  · rfl
  · rw [if_pos (.inl hleft)]

/-- The state after the commit of a drained point, but for the schedule. -/
def committedState (s : State) (tile core : Nat) (p : CoreSnap) : State :=
  let k := coreKey tile core
  let x := s.tileLining tile
  let tseq := (s.tile tile).tseq + 1
  let s1 := (s.setTileLining tile (x.commit tile tseq (x.newest (s.lining k).shared))).setLining k
    { (s.lining k).commit k p with drain := none, shared := none }
  let s2 := s1.setTile tile { s1.tile tile with tseq := tseq }
  s2.setCore k { s2.core k with lpseq := p.seq }

theorem committedState_lining (s : State) (tile core : Nat) (p : CoreSnap) :
    (committedState s tile core p).lining (8 * tile + core) =
      { (liningOf s tile core).commit (8 * tile + core) p with drain := none, shared := none } :=
  Tab.get_set_same ..

theorem committedState_tileLining (s : State) (tile core : Nat) (p : CoreSnap) :
    (committedState s tile core p).tileLining tile = (sharedOf s tile).commit tile ((s.tile tile).tseq + 1)
      ((sharedOf s tile).newest (liningOf s tile core).shared) :=
  Tab.get_set_same ..

theorem committedState_core (s : State) (tile core : Nat) (p : CoreSnap) :
    (committedState s tile core p).core (8 * tile + core) = { s.core (8 * tile + core) with lpseq := p.seq } :=
  State.core_setCore_same ..

theorem committedState_tseq (s : State) (tile core : Nat) (p : CoreSnap) :
    ((committedState s tile core p).tile tile).tseq = (s.tile tile).tseq + 1 :=
  congrArg Tile.tseq (State.tile_setTile_same _ tile _)

theorem commit_commits {p : CoreSnap} (hdrain : (liningOf s tile core).drain = some p) (hleft : (liningOf s tile core).left = [])
    (hdie : s.dieOn tile = true) (hcore : NewerThan p.seq (liningOf s tile core).places)
    (htile : NewerThan ((s.tile tile).tseq + 1) (sharedOf s tile).places) :
    ∃ u, execLiningCommit tile core s = .next u ∧ Quiet s u ∧ (liningOf u tile core).committed = some p ∧
      (sharedOf u tile).committed = some ((sharedOf s tile).newest (liningOf s tile core).shared) ∧
      (liningOf u tile core).drain = none ∧ (u.core (8 * tile + core)).lpseq = p.seq ∧
      (u.tile tile).tseq = (s.tile tile).tseq + 1 ∧
      { u.core (8 * tile + core) with lpseq := 0 } = { s.core (8 * tile + core) with lpseq := 0 } := by
  have hcommit : s.commit tile core = if ((committedState s tile core p).auxOf (coreKey tile core)).liningAsked
      then (committedState s tile core p).once (.liningCapture tile core) else committedState s tile core p := by
    unfold State.commit
    dsimp only
    rw [show (s.lining (coreKey tile core)).drain = some p from hdrain]
    dsimp only
    rw [if_neg (by simp only [show (s.lining (coreKey tile core)).left = [] from hleft, hdie]; simp)]
    rfl
  have hquiet : Quiet s (committedState s tile core p) := .of_eq rfl rfl rfl
  have hlining := committedState_lining s tile core p
  have hshared := committedState_tileLining s tile core p
  have hcorek := committedState_core s tile core p
  have htseq := committedState_tseq s tile core p
  generalize committedState s tile core p = c at *
  obtain ⟨ts, hts⟩ := onceIf_turns (c.auxOf (coreKey tile core)).liningAsked c (.liningCapture tile core)
  refine ⟨{ c with turns := ts }, congrArg Host.Outcome.next (hcommit.trans hts), hquiet, ?_, ?_, ?_, ?_, htseq, ?_⟩
  · exact (congrArg Lining.committed hlining).trans (committed_commit hcore)
  · exact (congrArg TileLining.committed hshared).trans (tile_committed_commit htile)
  · exact congrArg Lining.drain hlining
  · exact congrArg Core.lpseq hcorek
  · exact congrArg (fun x : Core => { x with lpseq := 0 }) hcorek

/-! ### The writer (R379) -/

/-- A lining whose writer has written some of the blocks of the point being drained; the contents of a tile's shared
memory go to the tile's lining. -/
def written (l : Lining) (bs : List Nat) : Lining :=
  { l with
    left := l.left.filter (fun b => !bs.contains b)
    work := (bs.filter (fun b => !blockShared b)).foldl (spliceBlock ((l.drain.map (fun p => p.mem)).getD [])) l.work }

theorem written_cons (l : Lining) (b : Nat) (bs : List Nat) : written (written l [b]) bs = written l (b :: bs) := by
  have hleft : (l.left.filter (fun x => !([b].contains x))).filter (fun x => !bs.contains x) =
      l.left.filter (fun x => !(b :: bs).contains x) := by
    rw [List.filter_filter]
    refine List.filter_congr fun x _ => ?_
    simp [Bool.and_comm]
  unfold written
  dsimp only
  rw [hleft, ← List.foldl_append, ← List.filter_append, List.singleton_append]

theorem writeCaptured_lining (s : State) (k b j : Nat) :
    (s.writeCaptured k b).lining j = if j = k then written (s.lining k) [b] else s.lining j := by
  have hlining : (s.writeCaptured k b).lining j = (s.setLining k (written (s.lining k) [b])).lining j := by
    have hone : written (s.lining k) [b] = { s.lining k with
        left := (s.lining k).left.filter (· ≠ b)
        work := if blockShared b then (s.lining k).work
          else spliceBlock (((s.lining k).drain.map (·.mem)).getD []) (s.lining k).work b } := by
      unfold written
      by_cases hb : blockShared b = true <;> simp [hb]
    rw [hone]
    unfold State.writeCaptured
    dsimp only
    split_ifs <;> rfl
  rw [hlining, lining_setLining]

theorem writeCaptured_quiet (s : State) (k b : Nat) : Quiet s (s.writeCaptured k b) := by
  unfold State.writeCaptured
  dsimp only
  split_ifs <;> exact .of_eq rfl rfl rfl

theorem Quiet.trans {s u v : State} (h : Quiet s u) (g : Quiet u v) : Quiet s v := by
  obtain ⟨⟨hc, hst⟩, hm⟩ := h
  obtain ⟨⟨gc, gst⟩, gm⟩ := g
  refine ⟨⟨gc.trans hc, fun k => ?_⟩, fun a => (gm a).trans (hm a)⟩
  obtain ⟨hx, hpc, hf⟩ := hst k
  obtain ⟨gx, gpc, gf⟩ := gst k
  exact ⟨gx.trans hx, gpc.trans hpc, gf.trans hf⟩

theorem foldl_writeCaptured (k : Nat) (bs : List Nat) (s : State) :
    Quiet s (bs.foldl (fun s b => s.writeCaptured k b) s) ∧
      ∀ j, (bs.foldl (fun s b => s.writeCaptured k b) s).lining j = if j = k then written (s.lining k) bs else s.lining j := by
  induction bs generalizing s with
  | nil =>
    refine ⟨.of_eq rfl rfl rfl, fun j => ?_⟩
    split_ifs with h
    · subst h
      simp [written]
    · rfl
  | cons b bs ih =>
    obtain ⟨hquiet, hlining⟩ := ih (s.writeCaptured k b)
    refine ⟨(writeCaptured_quiet s k b).trans hquiet, fun j => ?_⟩
    rw [List.foldl_cons, hlining, writeCaptured_lining, if_pos rfl, written_cons]
    split_ifs
    · rfl
    · rw [writeCaptured_lining, if_neg ‹_›]

theorem writerDrain_between (n : Nat) (hdrain : (liningOf s tile core).drain = none) (hpower : (s.tile tile).powered = true) :
    Quiet s (s.writerDrain tile core n) ∧ ∀ j, (s.writerDrain tile core n).lining j =
      if j = 8 * tile + core then { liningOf s tile core with
        work := ((s.dirtyCore (8 * tile + core)).take n).foldl
          (spliceBlock (s.mem.within (coreWindows (8 * tile + core)))) (liningOf s tile core).work }
      else s.lining j := by
  have hnone : (s.lining (8 * tile + core)).drain.isSome = false := by
    rw [show (s.lining (8 * tile + core)).drain = none from hdrain]
    rfl
  unfold State.writerDrain
  simp only [hpower, hnone, Bool.not_true, Bool.false_eq_true, if_false]
  split_ifs
  all_goals exact ⟨.of_eq rfl rfl rfl, fun j => lining_setLining s _ j _⟩

theorem writerDrain_draining (n : Nat) (hdrain : (liningOf s tile core).drain.isSome = true)
    (hpower : (s.tile tile).powered = true) :
    Quiet s (s.writerDrain tile core n) ∧ ∀ j, (s.writerDrain tile core n).lining j =
      if j = 8 * tile + core then written (liningOf s tile core) ((liningOf s tile core).left.take n) else s.lining j := by
  unfold State.writerDrain
  simp only [hpower, show (s.lining (8 * tile + core)).drain.isSome = true from hdrain, Bool.not_true, Bool.false_eq_true,
    if_false, if_true]
  exact foldl_writeCaptured _ _ s

theorem writer_writes (n : Nat) (hpower : (s.tile tile).powered = true) :
    ∃ u, execLiningWriterDrain tile core n s = .next u ∧ Quiet s u ∧
      liningOf u tile core = (if (liningOf s tile core).drain.isSome
        then written (liningOf s tile core) ((liningOf s tile core).left.take n)
        else { liningOf s tile core with
          work := ((s.dirtyCore (8 * tile + core)).take n).foldl
            (spliceBlock (s.mem.within (coreWindows (8 * tile + core)))) (liningOf s tile core).work }) ∧
      ∀ c, c ≠ core → c < 8 → core < 8 → liningOf u tile c = liningOf s tile c := by
  have hother {c : Nat} (hc : c ≠ core) : 8 * tile + c ≠ 8 * tile + core := by omega
  by_cases hdrain : (liningOf s tile core).drain.isSome = true
  · obtain ⟨hquiet, hlining⟩ := writerDrain_draining n hdrain hpower
    refine ⟨_, rfl, hquiet, ?_, fun c hc _ _ => (hlining _).trans (if_neg (hother hc))⟩
    rw [if_pos hdrain]
    exact (hlining _).trans (if_pos rfl)
  · obtain ⟨hquiet, hlining⟩ := writerDrain_between n (Option.not_isSome_iff_eq_none.1 hdrain) hpower
    refine ⟨_, rfl, hquiet, ?_, fun c hc _ _ => (hlining _).trans (if_neg (hother hc))⟩
    rw [if_neg hdrain]
    exact (hlining _).trans (if_pos rfl)

end

/-- Settles O50: each clause is the event it names. -/
theorem liningPoints : Obligations.LiningPoints := by
  unfold Obligations.LiningPoints
  intro s tile core
  refine ⟨fun hperiod hdie hfresh htime => linePeriod_fires hperiod hdie hfresh htime,
    fun hidle => congrArg Host.Outcome.next (linePeriod_idle hidle),
    fun hfresh => congrArg Host.Outcome.next (capture_fresh hfresh),
    fun hasked hdrain hdie hfresh hpass hred => capture_point hasked hdrain hdie hfresh hpass hred,
    fun n hpower => writer_writes n hpower,
    fun p hdrain hleft hdie hcore htile => commit_commits hdrain hleft hdie hcore htile,
    fun hleft => congrArg Host.Outcome.next (commit_waits hleft)⟩

end Sys2Proof.Claims
end

section
/-!
How a word of a stream completes or waits, said once for every family of instructions.

`issueX_completes` is a body that completes; `issueX_waits` one that waits, with its W token back in its channel;
`issueX_writes` and `issueX_writes_two` are bodies that write registers. A word that takes no EXT drops one before it
(`withoutExt`), and what it leaves is seen from the state before that by `sequential_of_withoutExt`.
-/
namespace Sys2Proof.Claims
open Sys2Proof.Machine

/-! ### A stream's control state -/

/-- Two states of a stream with the same program counter, block, FPFLAGS, VLEN and ended bit. -/
structure SameControl (a b : Stream) : Prop where
  fpflags : b.fpflags = a.fpflags
  vlen : b.vlen = a.vlen
  ended : b.ended = a.ended
  pc : b.pc = a.pc
  block : b.block = a.block

theorem SameControl.refl (a : Stream) : SameControl a a := ⟨rfl, rfl, rfl, rfl, rfl⟩

theorem SameControl.of_eq {a b : Stream} (h : b = a) : SameControl a b := h ▸ .refl a

theorem SameControl.trans {a b c : Stream} (h : SameControl a b) (g : SameControl b c) : SameControl a c :=
  ⟨g.fpflags.trans h.fpflags, g.vlen.trans h.vlen, g.ended.trans h.ended, g.pc.trans h.pc, g.block.trans h.block⟩

theorem SameControl.setX (a : Stream) (d : Reg) (v : Word) : SameControl a (a.setX d v) := by
  unfold Stream.setX
  split_ifs
  · exact .refl a
  · exact ⟨rfl, rfl, rfl, rfl, rfl⟩

theorem SameControl.advance {a b : Stream} (h : SameControl a b) (n : Nat) :
    (b.advance n).pc = (a.advance n).pc ∧ (b.advance n).block = (a.advance n).block := by
  unfold Stream.advance
  simp only [h.pc, h.block]
  split
  · split_ifs <;> exact ⟨rfl, rfl⟩
  · exact ⟨rfl, rfl⟩

/-! ### A word that completes -/

theorem me_setX (s : State) (d : Reg) (v : Word) : (s.setX d v).me = s.me.setX d v := State.me_setMe s _

section
variable {size : Nat} {t : Tack} {body : State → Eff} {s s2 : State} {x : Reg → Word} (h : Ready s t)
  (hb : body (s.popped t) = .done s2)
include h hb

/-- A body that completes with the stream's control state kept: the word's next state is one retirement away. -/
theorem issueX_retires (hcur : s2.cur = s.cur) (hx : ∀ r, s2.x r = x r) (hctl : SameControl s.me s2.me) :
    ∃ u, issueX size t body s = .next u ∧ OnlyStream s2 u ∧ Sequential s u size x 0 := by
  have hframe := State.retire_frame s2 size t
  rw [hcur] at hframe
  exact ⟨_, issueX_done h hb, hframe, Sequential.of_retire size t hcur hx (by rw [hctl.fpflags]; simp) hctl.vlen hctl.ended
    hctl.pc hctl.block⟩

theorem issueX_completes (hframe : OnlyStream (s.popped t) s2) (hx : ∀ r, s2.x r = x r) (hctl : SameControl s.me s2.me) :
    ∃ u, issueX size t body s = .next u ∧ OnlyStream s u ∧ Sequential s u size x 0 := by
  obtain ⟨u, hu, hu2, hseq⟩ := issueX_retires (size := size) h hb (hframe.cur.trans (State.cur_popped s t)) hx hctl
  exact ⟨u, hu, ((OnlyStream.popped s t).trans hframe).trans hu2, hseq⟩

end

section
variable {size : Nat} {t : Tack} {body : State → Eff} {s : State} (h : Ready s t)
include h

/-- A word without effect of its own. -/
theorem issueX_advances (hb : body (s.popped t) = .done (s.popped t)) :
    ∃ u, issueX size t body s = .next u ∧ OnlyStream s u ∧ Sequential s u size s.x 0 :=
  issueX_completes h hb (.refl _) (State.x_popped s t) (.of_eq (State.me_popped s t))

/-- A word that writes one register. -/
theorem issueX_writes {d : Reg} {v : Word} (hb : body (s.popped t) = .done ((s.popped t).setX d v)) :
    ∃ u, issueX size t body s = .next u ∧ OnlyStream s u ∧ Sequential s u size (s.wrote d v) 0 := by
  refine issueX_completes h hb (.setMe ..) (fun r => ?_) ?_
  · rw [State.x_setX, State.x_popped]
    rfl
  · rw [me_setX, State.me_popped]
    exact .setX ..

/-- A word that writes two registers, the second one last. -/
theorem issueX_writes_two {d e : Reg} {v w : Word} (hb : body (s.popped t) = .done (((s.popped t).setX d v).setX e w)) :
    ∃ u, issueX size t body s = .next u ∧ OnlyStream s u ∧
      Sequential s u size (fun r => if r = 0#6 then 0 else if r = e then w else if r = d then v else s.x r) 0 := by
  refine issueX_completes h hb ((OnlyStream.setMe ..).trans (.setMe ..)) (fun r => ?_) ?_
  · simp only [State.x_setX, State.x_popped]
    split_ifs <;> rfl
  · rw [me_setX, me_setX, State.me_popped]
    exact (SameControl.setX ..).trans (.setX ..)

end

/-! ### A word that waits -/

/-- The state of a word that waits: the W token it took is back in its channel (R121). -/
def tokenBack (s s2 : State) (t : Tack) : State :=
  if t.w then s2.setSlot s.cur.slotK ((s2.slot s.cur.slotK).addTack (wChannel s.cur.stream s.me) 1) else s2

theorem issueX_wait {size : Nat} {t : Tack} {body : State → Eff} {s s2 : State} {stall : Bool} (h : Ready s t)
    (hb : body (s.popped t) = .wait stall s2) :
    issueX size t body s = .next ((tokenBack s s2 t).blocked s.cur stall) := by
  obtain ⟨hpush, htoken⟩ := h
  have hpush' : (s.at s.cur).push = [] := hpush
  unfold issueX tokenBack
  simp only [hpush, hpush', ne_eq, not_true_eq_false, if_false]
  by_cases hw : t.w = true
  · have h0 : ¬ (s.slot s.cur.slotK).tackCount (wChannel s.cur.stream s.me) = 0 := Nat.pos_iff_ne_zero.1 (htoken hw)
    simp only [State.popped, hw, if_true, State.setMySlot, State.mySlot] at hb
    simp only [hw, h0, Bool.true_and, decide_false, Bool.false_eq_true, if_false, if_true, hb]
  · simp only [Bool.not_eq_true] at hw
    simp only [State.popped, hw, Bool.false_eq_true, if_false] at hb
    simp only [hw, Bool.false_and, Bool.false_eq_true, if_false, hb]

theorem tokenBack_frame {s s2 : State} {t : Tack} (hcur : s2.cur = s.cur) : OnlyStream s2 (tokenBack s s2 t) := by
  unfold tokenBack
  split_ifs
  · have := OnlyStream.setTack s2 (s2.mySlot.addTack (wChannel s.cur.stream s.me) 1).tack
    rw [State.setMySlot, State.mySlot, hcur] at this
    exact this
  · exact .refl s2

theorem tokenBack_me {s s2 : State} {t : Tack} (hcur : s2.cur = s.cur) : (tokenBack s s2 t).me = s2.me := by
  unfold tokenBack
  split_ifs
  · have := State.me_setTack s2 (s2.mySlot.addTack (wChannel s.cur.stream s.me) 1).tack
    rw [State.setMySlot, State.mySlot, hcur] at this
    exact this
  · rfl

/-- A slot's tacks after a write of its executing stream or bank. -/
theorem tack_setMe (s : State) (v : Stream) : (s.setMe v).mySlot.tack = s.mySlot.tack := by
  rw [State.mySlot, State.cur_setMe, State.setMe, State.setAt]
  split_ifs
  · rw [State.slot_setSlot_same]
    rfl
  · rfl

/-- A body that leaves its slot's tacks alone: the token taken for it is back. -/
theorem tokenBack_tack {s s2 : State} {t : Tack} (h : Ready s t) (hcur : s2.cur = s.cur)
    (htack : s2.mySlot.tack = (s.popped t).mySlot.tack) (c : Nat) :
    (tokenBack s s2 t).mySlot.tackCount c = s.mySlot.tackCount c := by
  rw [State.mySlot, (tokenBack_frame hcur).cur, hcur]
  rw [State.mySlot, State.mySlot, hcur, State.cur_popped] at htack
  unfold tokenBack
  split_ifs with hw
  · rw [State.slot_setSlot_same, ← tackCount_takeTack_addTack (h.2 hw) c]
    have hpop : ((s.popped t).slot s.cur.slotK).tack = (s.mySlot.takeTack (wChannel s.cur.stream s.me) 1).tack := by
      rw [State.popped, if_pos hw]
      exact congrArg Slot.tack (State.slot_setSlot_same ..)
    simp only [Slot.tackCount, Slot.addTack, htack, hpop]
  · simp only [Slot.tackCount, htack, State.popped, hw, Bool.false_eq_true, if_false]
    rfl

/-- A word that waits: what its body armed stands, and its stream is where it was. -/
theorem issueX_waits {size : Nat} {t : Tack} {body : State → Eff} {s s2 : State} {stall : Bool} (h : Ready s t)
    (hb : body (s.popped t) = .wait stall s2) (hcur : s2.cur = s.cur) :
    ∃ u, issueX size t body s = .next u ∧ OnlyStream s2 u ∧ (∀ r, u.x r = s2.x r) ∧ u.me.pc = s2.me.pc ∧
      u.me.wait = s2.me.wait ∧ ∀ c, u.mySlot.tackCount c = (tokenBack s s2 t).mySlot.tackCount c := by
  have hframe := tokenBack_frame (t := t) hcur
  have hme := tokenBack_me (t := t) hcur
  refine ⟨_, issueX_wait h hb, ?_⟩
  generalize tokenBack s s2 t = v at hframe hme ⊢
  rw [← hcur, ← hframe.cur]
  refine ⟨hframe.trans (.setMe v _), fun r => ?_, ?_, ?_, fun c => ?_⟩
  · change (v.setMe _).me.getX r = _
    rw [State.me_setMe, State.x, ← hme]
    rfl
  · change (v.setMe _).me.pc = _
    rw [State.me_setMe, ← hme]
    rfl
  · change (v.setMe _).me.wait = _
    rw [State.me_setMe, ← hme]
    rfl
  · change (v.setMe _).mySlot.tackCount c = _
    rw [Slot.tackCount, tack_setMe, Slot.tackCount]

/-- A word that waits and arms nothing but a wait of its own: no token is taken. -/
theorem issueX_arms {size : Nat} {t : Tack} {body : State → Eff} {s : State} {stall : Bool} {w : Option Wait} (h : Ready s t)
    (hb : body (s.popped t) = .wait stall ((s.popped t).setMe { (s.popped t).me with wait := w })) :
    ∃ u, issueX size t body s = .next u ∧ OnlyStream s u ∧ (∀ r, u.x r = s.x r) ∧ u.me.pc = s.me.pc ∧
      u.me.wait = w ∧ ∀ c, u.mySlot.tackCount c = s.mySlot.tackCount c := by
  have hcur : ((s.popped t).setMe { (s.popped t).me with wait := w }).cur = s.cur := by rw [State.cur_setMe, State.cur_popped]
  obtain ⟨u, hu, hframe, hx, hpc, hwait, htack⟩ := issueX_waits (size := size) h hb hcur
  rw [State.me_setMe, State.me_popped] at hpc hwait
  refine ⟨u, hu, ((OnlyStream.popped s t).trans (.setMe ..)).trans hframe, fun r => ?_, hpc, hwait, fun c => ?_⟩
  · rw [hx, State.x, State.me_setMe, ← State.x_popped s t]
    rfl
  · rw [htack, tokenBack_tack h hcur (tack_setMe ..)]

/-! ### A word that takes no EXT (R105) -/

/-- The state in which a word that takes no EXT issues: one before it is dropped. -/
def withoutExt (s : State) : State := s.setMe { s.me with ext := none }

theorem withoutExt_frame (s : State) : OnlyStream s (withoutExt s) := .setMe s _

@[simp] theorem cur_withoutExt (s : State) : (withoutExt s).cur = s.cur := State.cur_setMe s _

theorem me_withoutExt (s : State) : (withoutExt s).me = { s.me with ext := none } := State.me_setMe s _

@[simp] theorem x_withoutExt (s : State) (r : Reg) : (withoutExt s).x r = s.x r := by
  rw [State.x, me_withoutExt]
  rfl

theorem withoutExt_control (s : State) : SameControl s.me (withoutExt s).me := by
  rw [me_withoutExt]
  exact ⟨rfl, rfl, rfl, rfl, rfl⟩

theorem withoutExt_tackCount (s : State) (c : Nat) : (withoutExt s).mySlot.tackCount c = s.mySlot.tackCount c := by
  rw [Slot.tackCount, withoutExt, tack_setMe, Slot.tackCount]

theorem wrote_withoutExt (s : State) (d : Reg) (v : Word) : (withoutExt s).wrote d v = s.wrote d v := by
  funext r
  simp [State.wrote]

theorem ready_withoutExt {s : State} {t : Tack} (h : Ready s t) : Ready (withoutExt s) t := by
  obtain ⟨hpush, htoken⟩ := h
  refine ⟨?_, fun hw => ?_⟩
  · rw [me_withoutExt]
    exact hpush
  · rw [withoutExt_tackCount, cur_withoutExt, me_withoutExt]
    exact htoken hw

/-- A completion seen from the state before its EXT was dropped. -/
theorem sequential_of_withoutExt {s u : State} {n : Nat} {x : Reg → Word} {fl : BitVec 32}
    (h : Sequential (withoutExt s) u n x fl) : Sequential s u n x fl := by
  have hctl := withoutExt_control s
  obtain ⟨hpc, hblock⟩ := hctl.advance n
  exact ⟨h.x, by rw [h.fpflags, hctl.fpflags], h.vlen.trans hctl.vlen, h.ended.trans hctl.ended, h.ext, h.wait,
    h.pc.trans hpc, h.block.trans hblock⟩

section
variable {size : Nat} {t : Tack} {body : State → Eff} {s : State} (h : Ready s t)
include h

theorem issue_advances (hb : body ((withoutExt s).popped t) = .done ((withoutExt s).popped t)) :
    ∃ u, issue size t body s = .next u ∧ OnlyStream s u ∧ Sequential s u size s.x 0 := by
  obtain ⟨u, hu, hframe, hseq⟩ := issueX_advances (size := size) (ready_withoutExt h) hb
  refine ⟨u, hu, (withoutExt_frame s).trans hframe, ?_⟩
  rw [funext (x_withoutExt s)] at hseq
  exact sequential_of_withoutExt hseq

theorem issue_writes {d : Reg} {v : Word}
    (hb : body ((withoutExt s).popped t) = .done (((withoutExt s).popped t).setX d v)) :
    ∃ u, issue size t body s = .next u ∧ OnlyStream s u ∧ Sequential s u size (s.wrote d v) 0 := by
  obtain ⟨u, hu, hframe, hseq⟩ := issueX_writes (size := size) (ready_withoutExt h) hb
  rw [wrote_withoutExt] at hseq
  exact ⟨u, hu, (withoutExt_frame s).trans hframe, sequential_of_withoutExt hseq⟩

end

end Sys2Proof.Claims
end

section
/-!
O1: the integer and bit register instructions (R156, R159) and RNDC (R160).

Each of the model's results is first said in the terms of the rules, as an equation between words; `writesReg_aluR` and its
like carry such an equation to the instruction that writes it.
-/
namespace Sys2Proof.Claims
open Sys2Proof.Machine

/-! ### Instructions that write a value of their register operands -/

section
variable {i : Instr} {s : State} {t : Tack} {d a b : Reg} {v : Word} (h : Ready s t)
include h

/-- A result of the destination and two operands, all read before the write. -/
theorem writesReg_of_three (g : Word → Word → Word → Word)
    (hi : exec i s = aluR t d (fun s => g (s.x d) (s.x a) (s.x b)) s) (hv : g (s.x d) (s.x a) (s.x b) = v) :
    WritesReg i s 4 d v := by
  obtain ⟨u, hu, hframe, hseq⟩ :=
    aluR_writes (d := d) (f := fun s => g (s.x d) (s.x a) (s.x b)) h (fun p q hx => by simp only [hx])
  exact ⟨u, hi.trans hu, hframe, hv ▸ hseq⟩

theorem writesReg_of_two (g : Word → Word → Word) (hi : exec i s = aluR t d (fun s => g (s.x a) (s.x b)) s)
    (hv : g (s.x a) (s.x b) = v) : WritesReg i s 4 d v :=
  writesReg_of_three h (fun _ => g) hi hv

end

/-! ### The integer results (R156) -/

theorem toInt_eq_zero {n : Nat} (b : BitVec n) : b.toInt = 0 ↔ b = 0 := by
  rw [← BitVec.toInt_inj, BitVec.ofNat_eq_ofNat, BitVec.toInt_zero]

theorem aluDiv_eq (a b : Word) :
    aluDiv a b = if b = 0 then BitVec.allOnes 64 else BitVec.ofInt 64 (a.toInt.tdiv b.toInt) := by
  unfold aluDiv divT
  simp only [toInt_eq_zero, Bool.true_and, Bool.and_eq_true, decide_eq_true_eq]
  split_ifs with hb hcorner
  · decide
  · obtain ⟨ha, hb⟩ := hcorner
    rw [ha, hb]
    decide
  · rfl

theorem aluRem_eq (a b : Word) : aluRem a b = if b = 0 then a else BitVec.ofInt 64 (a.toInt.tmod b.toInt) := by
  unfold aluRem remT
  simp only [toInt_eq_zero, Bool.true_and, Bool.and_eq_true, decide_eq_true_eq]
  split_ifs with hb hcorner
  · exact BitVec.ofInt_toInt
  · obtain ⟨ha, hb⟩ := hcorner
    rw [ha, hb]
    decide
  · rfl

theorem aluDivu_eq (a b : Word) :
    aluDivu a b = if b = 0 then BitVec.allOnes 64 else BitVec.ofNat 64 (a.toNat / b.toNat) := by
  have hzero : ((b.toNat : Int) = 0) ↔ b = 0 := by rw [← BitVec.toNat_inj]; simp
  unfold aluDivu divT
  simp only [hzero, Bool.false_and, Bool.false_eq_true, if_false]
  split_ifs with hb
  · decide
  · rw [← Int.ofNat_tdiv, BitVec.ofInt_natCast]

theorem aluRemu_eq (a b : Word) : aluRemu a b = if b = 0 then a else BitVec.ofNat 64 (a.toNat % b.toNat) := by
  have hzero : ((b.toNat : Int) = 0) ↔ b = 0 := by rw [← BitVec.toNat_inj]; simp
  unfold aluRemu remT
  simp only [hzero, Bool.false_and, Bool.false_eq_true, if_false]
  split_ifs with hb
  · rw [BitVec.ofInt_natCast, BitVec.ofNat_toNat, BitVec.setWidth_eq]
  · rw [← Int.ofNat_tmod, BitVec.ofInt_natCast]

theorem aluShl_eq (a : Word) (n : Nat) : aluShl a n = BitVec.ofNat 64 (a.toNat * 2 ^ (n % 64)) := by
  apply BitVec.eq_of_toNat_eq
  rw [aluShl, BitVec.toNat_shiftLeft, Nat.shiftLeft_eq, BitVec.toNat_ofNat]

theorem aluShrl_eq (a : Word) (n : Nat) : aluShrl a n = BitVec.ofNat 64 (a.toNat / 2 ^ (n % 64)) := by
  apply BitVec.eq_of_toNat_eq
  have hlt := Nat.lt_of_le_of_lt (Nat.div_le_self a.toNat (2 ^ (n % 64))) a.isLt
  rw [aluShrl, BitVec.toNat_ushiftRight, Nat.shiftRight_eq_div_pow, BitVec.toNat_ofNat, Nat.mod_eq_of_lt hlt]

theorem aluShra_eq (a : Word) (n : Nat) : aluShra a n = BitVec.ofInt 64 (a.toInt / 2 ^ (n % 64)) := by
  rw [aluShra, ← BitVec.ofInt_toInt (x := a.sshiftRight (n % 64)), BitVec.toInt_sshiftRight, Int.shiftRight_eq_div_pow]
  norm_cast

theorem aluMin_eq (a b : Word) : aluMin a b = BitVec.ofInt 64 (min a.toInt b.toInt) := by
  rw [aluMin, min_def]
  split_ifs <;> rw [BitVec.ofInt_toInt]

theorem aluMax_eq (a b : Word) : aluMax a b = BitVec.ofInt 64 (max a.toInt b.toInt) := by
  rw [aluMax, max_def]
  split_ifs <;> rw [BitVec.ofInt_toInt]

theorem aluMinu_eq (a b : Word) : aluMinu a b = BitVec.ofNat 64 (min a.toNat b.toNat) := by
  rw [aluMinu, min_def]
  split_ifs <;> rw [BitVec.ofNat_toNat, BitVec.setWidth_eq]

theorem aluMaxu_eq (a b : Word) : aluMaxu a b = BitVec.ofNat 64 (max a.toNat b.toNat) := by
  rw [aluMaxu, max_def]
  split_ifs <;> rw [BitVec.ofNat_toNat, BitVec.setWidth_eq]

theorem aluBool_decide (p : Prop) [Decidable p] : aluBool (decide p) = oneIf p := by
  simp only [aluBool, oneIf, decide_eq_true_eq]

theorem integerResults {s : State} {t : Tack} (d a b : Reg) (h : Ready s t) : IntegerResults s t d a b :=
  ⟨writesReg_of_two h (· + ·) rfl rfl, writesReg_of_two h (· - ·) rfl rfl, writesReg_of_two h (· * ·) rfl rfl,
    writesReg_of_two h aluMulh rfl rfl, writesReg_of_two h aluMulhu rfl rfl,
    writesReg_of_two h aluDiv rfl (aluDiv_eq ..), writesReg_of_two h aluDivu rfl (aluDivu_eq ..),
    writesReg_of_two h aluRem rfl (aluRem_eq ..), writesReg_of_two h aluRemu rfl (aluRemu_eq ..),
    writesReg_of_two h (· &&& ·) rfl rfl, writesReg_of_two h (· ||| ·) rfl rfl, writesReg_of_two h (· ^^^ ·) rfl rfl,
    writesReg_of_two h (fun x y => aluShl x y.toNat) rfl (aluShl_eq ..),
    writesReg_of_two h (fun x y => aluShrl x y.toNat) rfl (aluShrl_eq ..),
    writesReg_of_two h (fun x y => aluShra x y.toNat) rfl (aluShra_eq ..),
    writesReg_of_two h aluMin rfl (aluMin_eq ..), writesReg_of_two h aluMax rfl (aluMax_eq ..),
    writesReg_of_two h aluMinu rfl (aluMinu_eq ..), writesReg_of_two h aluMaxu rfl (aluMaxu_eq ..),
    writesReg_of_two h (fun x y => aluBool (x == y)) rfl (aluBool_decide _),
    writesReg_of_two h (fun x y => aluBool (decide (x.toInt < y.toInt))) rfl (aluBool_decide _),
    writesReg_of_two h (fun x y => aluBool (decide (x.toNat < y.toNat))) rfl (aluBool_decide _),
    writesReg_of_three h (fun z x y => if z ≠ 0 then x else y) rfl rfl⟩

/-! ### The bit results (R156, R159) -/

/-- Of the first `n` numbers, those before the first that fails. -/
theorem length_takeWhile_range {n k : Nat} {p : Nat → Bool} (hk : k < n) (hp : ∀ i, i < k → p i = true) (hfail : p k = false) :
    ((List.range n).takeWhile p).length = k := by
  obtain ⟨m, rfl⟩ : ∃ m, n = k + (m + 1) := ⟨n - k - 1, by omega⟩
  rw [List.range_add, List.takeWhile_append_of_pos (fun i hi => hp i (List.mem_range.1 hi)), List.range_succ_eq_map]
  simp [hfail]

theorem aluClz_eq (a : Word) : aluClz a = BitVec.ofNat 64 (leadingZeros a) := by
  unfold aluClz leadingZeros
  split_ifs with ha
  · subst ha
    decide
  · have hne : a.toNat ≠ 0 := fun h => ha (BitVec.eq_of_toNat_eq h)
    have hlog : a.toNat.log2 < 64 := (Nat.log2_lt hne).2 a.isLt
    rw [length_takeWhile_range (k := 63 - a.toNat.log2) (by omega)]
    · intro i hi
      have hlt : a.toNat < 2 ^ (63 - i) := (Nat.log2_lt hne).1 (by omega)
      rw [BitVec.getLsbD, Nat.testBit_lt_two_pow hlt]
      rfl
    · have hlast : 63 - (63 - a.toNat.log2) = a.toNat.log2 := by omega
      rw [BitVec.getLsbD, hlast, Nat.testBit_log2 hne]
      rfl

/-- A count kept while going through a list is a filter's length. -/
theorem foldl_count (p : Nat → Bool) (l : List Nat) (n : Nat) :
    l.foldl (fun n i => n + (if p i then 1 else 0)) n = n + (l.filter p).length := by
  induction l generalizing n with
  | nil => rfl
  | cons i l ih =>
    rw [List.foldl_cons, ih, List.filter_cons]
    split_ifs
    · rw [List.length_cons]
      omega
    · rfl

theorem aluPopc_eq (a : Word) : aluPopc a = BitVec.ofNat 64 ((List.range 64).filter (fun i => a.getLsbD i)).length := by
  rw [aluPopc, foldl_count, Nat.zero_add]

theorem fieldW_eq (b : Word) : fieldW b = if b.toNat / 256 % 64 = 0 then 64 else b.toNat / 256 % 64 := rfl

theorem bits_low (b : Word) : bits b 0 6 = b.toNat % 64 := by
  simp [bits]

theorem fieldW_pos (b : Word) : 0 < fieldW b := by
  rw [fieldW_eq]
  split_ifs <;> omega

theorem sext_field {w f : Nat} (hw : 0 < w) (hf : f < 2 ^ w) :
    sext w f = if 2 ^ (w - 1) ≤ f then (f : Int) - (2 ^ w : Nat) else f := by
  simp only [sext, Nat.mod_eq_of_lt hf, if_neg (Nat.pos_iff_ne_zero.1 hw)]
  split_ifs <;> omega

theorem aluBfi_eq (d a b : Word) :
    aluBfi d a b = BitVec.ofFnLE (fun i : Fin 64 =>
      if bits b 0 6 ≤ i.val ∧ i.val < min (bits b 0 6 + fieldW b) 64 then a.getLsbD (i.val - bits b 0 6) else d.getLsbD i.val) := by
  apply BitVec.eq_of_getLsbD_eq
  intro i hi
  rw [BitVec.getLsbD_ofFnLE, aluBfi]
  generalize bits b 0 6 = lsb
  generalize fieldW b = w
  have hbit (n : Nat) : (BitVec.ofNat 64 (2 ^ n - 1)).getLsbD (i - lsb) = decide (i - lsb < n) := by
    rw [BitVec.getLsbD_ofNat, Nat.testBit_two_pow_sub_one, decide_eq_true (show i - lsb < 64 by omega), Bool.true_and]
  simp only [BitVec.getLsbD_or, BitVec.getLsbD_and, BitVec.getLsbD_not, BitVec.getLsbD_shiftLeft, hbit, hi, decide_true,
    Bool.true_and, dite_true]
  by_cases hlo : i < lsb
  · simp [hlo, Nat.not_le.2 hlo]
  · by_cases hin : i < min (lsb + w) 64
    · have hmask : i - lsb < min (lsb + w) 64 - lsb := by omega
      simp only [hlo, hmask, Nat.le_of_not_lt hlo, hin, and_self, if_true, decide_true, decide_false, Bool.not_false,
        Bool.true_and, Bool.and_true, Bool.not_true, Bool.and_false, Bool.false_or]
    · have hmask : ¬ i - lsb < min (lsb + w) 64 - lsb := by omega
      simp only [hlo, hmask, hin, and_false, if_false, decide_false, Bool.not_false, Bool.and_true, Bool.and_false, Bool.or_false]

theorem aluClamp_signed (d a b : Word) :
    aluClamp d a b false = if d.toInt < a.toInt then a else if b.toInt < d.toInt then b else d := by
  simp only [aluClamp, sat, Bool.false_eq_true, if_false]
  split_ifs <;> exact BitVec.ofInt_toInt

theorem aluClamp_unsigned (d a b : Word) :
    aluClamp d a b true = if d.toNat < a.toNat then a else if b.toNat < d.toNat then b else d := by
  simp only [aluClamp, sat, if_true, Nat.cast_lt, gt_iff_lt]
  split_ifs <;> rw [BitVec.ofInt_natCast, BitVec.ofNat_toNat, BitVec.setWidth_eq]

/-! ### RNDC (R100, R160) -/

theorem rotl_toNat (v : BitVec 32) {n : Nat} (h : n < 32) : rotl v.toNat n = (v.rotateLeft n).toNat := by
  have hhigh : v.toNat <<< n % 2 ^ 32 = v.toNat % 2 ^ (32 - n) * 2 ^ n := by
    rw [Nat.shiftLeft_eq, ← Nat.mul_mod_mul_right, ← Nat.pow_add, Nat.sub_add_cancel h.le]
  have hlow : v.toNat >>> (32 - n) < 2 ^ n := by
    rw [Nat.shiftRight_eq_div_pow, Nat.div_lt_iff_lt_mul (Nat.two_pow_pos _), ← Nat.pow_add, Nat.add_sub_cancel' h.le]
    exact v.isLt
  rw [BitVec.toNat_rotateLeft, Nat.mod_eq_of_lt h, hhigh, ← Nat.shiftLeft_eq, ← Nat.shiftLeft_add_eq_or_of_lt hlow,
    Nat.shiftLeft_eq, ← hhigh, Nat.shiftRight_eq_div_pow, Nat.shiftLeft_eq, rotl]

/-- The six words of a round as numbers. -/
def roundNats (k0 k1 c0 c1 c2 c3 : BitVec 32) : Nat × Nat × Nat × Nat × Nat × Nat :=
  (k0.toNat, k1.toNat, c0.toNat, c1.toNat, c2.toNat, c3.toNat)

theorem cg8Round_roundNats (k0 k1 c0 c1 c2 c3 : BitVec 32) :
    cg8Round (roundNats k0 k1 c0 c1 c2 c3) =
      roundNats (k0 + 0xA3B195E7#32) (k1 + 0x4D2C6F83#32) (c2 + c1 + k1) (c3.rotateLeft 24 ^^^ (c2 + c1 + k1)) (c0 + c3 + k0)
        (c1.rotateLeft 13 ^^^ (c0 + c3 + k0)) := by
  have hsum (x y z : BitVec 32) : (x.toNat + y.toNat + z.toNat) % 2 ^ 32 = (x + y + z).toNat := by
    simp [BitVec.toNat_add]
  have hkey (x : BitVec 32) (c : Nat) : (x.toNat + c) % 2 ^ 32 = (x + BitVec.ofNat 32 c).toNat := by
    simp [BitVec.toNat_add]
  have hxor (x y : BitVec 32) : Nat.xor x.toNat y.toNat = (x ^^^ y).toNat := (BitVec.toNat_xor ..).symm
  simp only [cg8Round, roundNats, hsum, hkey, rotl_toNat _ (show 13 < 32 by decide), rotl_toNat _ (show 24 < 32 by decide), hxor]

/-- The counter words after `n` rounds. -/
theorem cg8Round_iterate (n : Nat) (k0 k1 c0 c1 c2 c3 : BitVec 32) :
    let y := counterRounds n k0 k1 (c0, c1, c2, c3)
    ∃ k0' k1', cg8Round^[n] (roundNats k0 k1 c0 c1 c2 c3) = roundNats k0' k1' y.1 y.2.1 y.2.2.1 y.2.2.2 := by
  induction n generalizing k0 k1 c0 c1 c2 c3 with
  | zero => exact ⟨k0, k1, rfl⟩
  | succ n ih =>
    rw [Function.iterate_succ_apply, cg8Round_roundNats]
    exact ih ..

theorem cg8_eq (k0 k1 c0 c1 c2 c3 : BitVec 32) :
    cg8 k0.toNat k1.toNat c0.toNat c1.toNat c2.toNat c3.toNat =
      let y := counterRounds 8 k0 k1 (c0, c1, c2, c3)
      (y.1.toNat, y.2.1.toNat, y.2.2.1.toNat, y.2.2.2.toNat) := by
  obtain ⟨k0', k1', h⟩ := cg8Round_iterate 8 k0 k1 c0 c1 c2 c3
  exact congrArg (fun r => (r.2.2.1, r.2.2.2.1, r.2.2.2.2.1, r.2.2.2.2.2)) h

theorem bits_lowWord (v : Word) : bits v 0 32 = (v.setWidth 32).toNat := by
  simp [bits]

theorem bits_highWord (v : Word) : bits v 32 32 = ((v >>> 32).setWidth 32).toNat := by
  simp [bits, Nat.shiftRight_eq_div_pow]

theorem joinedWord (x y : BitVec 32) : BitVec.ofNat 64 (x.toNat * 2 ^ 32 + y.toNat) = x ++ y := by
  rw [← Laws.toNat_joined]
  exact BitVec.ofNat_toNat (x := x ++ y) (m := 64)

theorem rndcWords_eq (a b e : Word) :
    rndcWords a b e =
      let low (v : Word) : BitVec 32 := v.setWidth 32
      let high (v : Word) : BitVec 32 := (v >>> 32).setWidth 32
      let y := counterRounds 8 (low a) (high a) (low b, high b, low e, high e)
      (y.2.1 ++ y.1, y.2.2.2 ++ y.2.2.1) := by
  simp only [rndcWords, bits_lowWord, bits_highWord, cg8_eq, joinedWord]

/-- An R-form that writes two registers. -/
theorem issue_writes_two {size : Nat} {t : Tack} {body : State → Eff} {s : State} {d e : Reg} {v w : Word} (h : Ready s t)
    (hb : body ((withoutExt s).popped t) = .done ((((withoutExt s).popped t).setX d v).setX e w)) :
    ∃ u, issue size t body s = .next u ∧ OnlyStream s u ∧
      Sequential s u size (fun r => if r = 0#6 then 0 else if r = e then w else if r = d then v else s.x r) 0 := by
  obtain ⟨u, hu, hframe, hseq⟩ := issueX_writes_two (size := size) (ready_withoutExt h) hb
  simp only [x_withoutExt] at hseq
  exact ⟨u, hu, (withoutExt_frame s).trans hframe, sequential_of_withoutExt hseq⟩

theorem rndc_writes {s : State} {t : Tack} (d a b : Reg) (h : Ready s t) :
    let y := rndcWords (s.x a) (s.x b) (s.x (b + 1))
    ∃ u, exec (.rndc d a b t) s = .next u ∧ OnlyStream s u ∧
      Sequential s u 4 (fun r => if r = 0#6 then 0 else if r = d + 1 then y.2 else if r = d then y.1 else s.x r) 0 := by
  refine issue_writes_two (size := 4)
    (body := fun s =>
      let y := rndcWords (s.x a) (s.x b) (s.x (b + 1))
      .done ((s.setX d y.1).setX (d + 1) y.2)) h ?_
  simp only [State.x_popped, x_withoutExt]

theorem bitResults {s : State} {t : Tack} (d a b : Reg) (h : Ready s t) : BitResults s t d a b := by
  refine ⟨writesReg_of_two h (b := b) (fun x _ => aluClz x) rfl (aluClz_eq _),
    writesReg_of_two h (b := b) (fun x _ => aluPopc x) rfl (aluPopc_eq _),
    writesReg_of_two h (fun x y => aluBfx x y false) rfl ?_, writesReg_of_two h (fun x y => aluBfx x y true) rfl ?_,
    writesReg_of_three h aluBfi rfl ?_, writesReg_of_three h (fun z x y => aluClamp z x y false) rfl (aluClamp_signed ..),
    writesReg_of_three h (fun z x y => aluClamp z x y true) rfl (aluClamp_unsigned ..), ?_⟩
  · rw [← bits_low, ← fieldW_eq]
    rfl
  · rw [← bits_low, ← fieldW_eq, ← sext_field (fieldW_pos _) (Nat.mod_lt _ (Nat.two_pow_pos _))]
    rfl
  · rw [← bits_low, ← fieldW_eq]
    exact aluBfi_eq ..
  · have hrndc := rndc_writes d a b h
    rw [rndcWords_eq] at hrndc
    exact hrndc

/-- Settles O1: each result of the model is the rule's (`integerResults`, `bitResults`), and RNDC's is eight of R100's rounds. -/
theorem integerRegisterInstructions : Obligations.IntegerRegisterInstructions :=
  ⟨fun _ _ d a b h => integerResults d a b h, fun _ _ d a b h => bitResults d a b h⟩

end Sys2Proof.Claims
end

section
/-!
O2: the immediate and compact forms (R110, R157, R158).

`sext` is the signed value of a bit vector (`sext_toNat`), so a form's immediate is the rules' (`immI_eq`, `immUS_eq`).
-/
namespace Sys2Proof.Claims
open Sys2Proof.Machine

/-! ### Immediates (R104, R105) -/

/-- SExt of a bit vector's number is its signed value. -/
theorem sext_toNat {w : Nat} (v : BitVec w) : sext w v.toNat = v.toInt := by
  rcases Nat.eq_zero_or_pos w with rfl | hw
  · rw [BitVec.eq_nil v]
    rfl
  · have hpow : 2 ^ w = 2 * 2 ^ (w - 1) := by rw [← Nat.pow_succ', Nat.succ_eq_add_one, Nat.sub_add_cancel hw]
    simp only [sext, Nat.mod_eq_of_lt v.isLt, if_neg (Nat.pos_iff_ne_zero.1 hw), BitVec.toInt_eq_toNat_cond]
    split_ifs <;> omega

theorem immI_eq (s : State) (imm : BitVec 9) : s.immI imm = immOf s 9 imm := by
  unfold State.immI immOf
  cases s.me.ext with
  | none => exact sext_toNat imm
  | some e => exact (congrArg (sext 32) (Laws.toNat_joined e imm).symm).trans (sext_toNat (e ++ imm))

theorem immUS_eq (s : State) (imm : BitVec 15) : s.immUS imm = immOf s 15 imm := by
  unfold State.immUS immOf
  cases s.me.ext with
  | none => exact sext_toNat imm
  | some e => exact (congrArg (sext 38) (Laws.toNat_joined e imm).symm).trans (sext_toNat (e ++ imm))

/-- A shift count: the low six bits of an immediate. -/
theorem word_mod_64 (n : Int) : (word n).toNat % 64 = (n % 64).toNat := by
  rw [word, BitVec.toNat_ofInt]
  omega

theorem mul_word (x : Word) (n : Int) : x * word n = BitVec.ofInt 64 (x.toInt * n) := by
  rw [word, BitVec.ofInt_mul, BitVec.ofInt_toInt]

/-! ### The instructions -/

section
variable {i : Instr} {s : State} {t : Tack} {d a : Reg} {v : Word} (h : Ready s t)
include h

/-- An I-form's result of a register and the immediate. -/
theorem writesReg_of_immI {imm : BitVec 9} (g : Word → Int → Word) (hi : exec i s = aluI t d (fun s => g (s.x a) (s.immI imm)) s)
    (hv : g (s.x a) (immOf s 9 imm) = v) : WritesReg i s 4 d v := by
  obtain ⟨u, hu, hframe, hseq⟩ := aluI_writes (d := d) (f := fun s => g (s.x a) (s.immI imm)) h
    (fun u hme => by simp only [State.x, State.immI, hme])
  rw [immI_eq, hv] at hseq
  exact ⟨u, hi.trans hu, hframe, hseq⟩

/-- A 16-bit form's result of two registers. -/
theorem writesReg_of_compact {d a : BitVec 5} (ht : t = noTack) (g : Word → Word → Word)
    (hi : exec i s = compact d (fun s => g (s.x (reg5 d)) (s.x (reg5 a))) s) (hv : g (s.x (reg5 d)) (s.x (reg5 a)) = v) :
    WritesReg i s 2 (reg5 d) v := by
  subst ht
  obtain ⟨u, hu, hframe, hseq⟩ := issue_writes (size := 2) (d := reg5 d) (v := v)
    (body := fun s => .done (s.setX (reg5 d) (g (s.x (reg5 d)) (s.x (reg5 a))))) h
    (by simp only [State.x_popped, x_withoutExt, hv])
  exact ⟨u, hi.trans hu, hframe, hseq⟩

end

theorem immediateResults {s : State} {t : Tack} (d a : Reg) (i : BitVec 9) (u : BitVec 15) (h : Ready s t) :
    ImmediateResults s t d a i u := by
  refine ⟨writesReg_of_immI h (fun x n => x + word n) rfl rfl, writesReg_of_immI h (fun x n => x &&& word n) rfl rfl,
    writesReg_of_immI h (fun x n => x ||| word n) rfl rfl, writesReg_of_immI h (fun x n => x ^^^ word n) rfl rfl,
    writesReg_of_immI h (fun x n => aluShl x (word n).toNat) rfl ?_,
    writesReg_of_immI h (fun x n => aluShrl x (word n).toNat) rfl ?_,
    writesReg_of_immI h (fun x n => aluShra x (word n).toNat) rfl ?_,
    writesReg_of_immI h (fun x n => aluBool (decide (x.toInt < n))) rfl (aluBool_decide _),
    writesReg_of_immI h (fun x n => x * word n) rfl (mul_word ..), ?_, ?_⟩
  · rw [aluShl_eq, word_mod_64]
  · rw [aluShrl_eq, word_mod_64]
  · rw [aluShra_eq, word_mod_64]
  · have hwrites := aluI_writes (d := d) (f := fun s => word (s.immUS u)) h (fun v hme => by simp only [State.immUS, hme])
    rw [immUS_eq] at hwrites
    exact hwrites
  · have hwrites := aluI_writes (d := d)
      (f := fun s => BitVec.ofNat 64 ((s.x d).toNat % 2 ^ 38 + s.immU u % 2 ^ 26 * 2 ^ 38)) h
      (fun v hme => by simp only [State.x, State.immU, hme])
    rw [immU_eq_immOfU] at hwrites
    exact hwrites

theorem compactResults {s : State} (d a i : BitVec 5) (h : Ready s ⟨false, false⟩) : CompactResults s d a i := by
  have himm : immS5 i = BitVec.ofInt 64 i.toInt := rfl
  have hshift : i.toNat % 64 = i.toNat := Nat.mod_eq_of_lt (Nat.lt_of_lt_of_le i.isLt (by decide))
  exact ⟨writesReg_of_compact h rfl (fun _ y => y ||| 0) rfl BitVec.or_zero, writesReg_of_compact h rfl (· + ·) rfl rfl,
    writesReg_of_compact h rfl (· - ·) rfl rfl, writesReg_of_compact h rfl (· &&& ·) rfl rfl,
    writesReg_of_compact h rfl (· ||| ·) rfl rfl, writesReg_of_compact h rfl (· ^^^ ·) rfl rfl,
    writesReg_of_compact (a := a) h rfl (fun x _ => x + immS5 i) rfl (by rw [himm]; rfl),
    writesReg_of_compact (a := a) h rfl (fun _ _ => immS5 i) rfl himm,
    writesReg_of_compact (a := a) h rfl (fun x _ => aluShl x i.toNat) rfl (by rw [aluShl_eq, hshift]; rfl),
    writesReg_of_compact (a := a) h rfl (fun x _ => aluShrl x i.toNat) rfl (by rw [aluShrl_eq, hshift]; rfl),
    issue_advances (size := 2) (body := fun s => .done s) h rfl⟩

/-- Settles O2: an I-form, a U-form and a 16-bit form each write the value of the rule's expression. -/
theorem immediateInstructions : Obligations.ImmediateInstructions :=
  ⟨fun _ _ d a i u h => immediateResults d a i u h, fun _ d a i h => compactResults d a i h⟩

end Sys2Proof.Claims
end

section
/-!
O3: NOP, the hints, YIELD, WAITC and the words that read the counters and SELFID (R109, R137, R141, R142, R155).

What a word that touches its own stream alone leaves as it was is read off `OnlyStream`: the counters, and every other
slot's standing in the rotation (R360).
-/
namespace Sys2Proof.Claims
open Sys2Proof.Machine

/-! ### What a word of one stream leaves -/

section
variable {s v : State} (hv : OnlyStream s v)
include hv

theorem onlyStream_clock : v.clock = s.clock := (congrArg State.clock hv.outside :)

theorem onlyStream_module : v.module = s.module := (congrArg State.module hv.outside :)

theorem onlyStream_waitCount (p : Place) (stitch : Bool) : v.waitCount p stitch = s.waitCount p stitch :=
  (congrArg (State.waitCount · p stitch) hv.outside :)

theorem onlyStream_eff : (v.slot s.cur.slotK).regs.eff = (s.slot s.cur.slotK).regs.eff :=
  (congrArg (fun k : Slot => k.regs.eff) (onlyStream_slot_rest hv) :)

/-- The stream of another slot. -/
theorem onlyStream_at {q : Place} (hslot : q.slotK ≠ s.cur.slotK) (hstream : q.streamK ≠ s.cur.streamK) : v.at q = s.at q := by
  unfold State.at State.superAt
  rw [hv.slots _ hslot, hv.streams _ hstream]

end

/-- What a word without EXT finds when its body begins. -/
theorem bodyStart_frame (s : State) (t : Tack) : OnlyStream s ((withoutExt s).popped t) :=
  (withoutExt_frame s).trans (.popped _ t)

/-! ### The place in the rotation (R141, R360) -/

theorem pushTack_issued (s : State) (p : Place) (c : Nat) : ((s.pushTack p c).at p).issued = (s.at p).issued := by
  unfold State.pushTack
  dsimp only
  split_ifs
  · simp only [State.at, State.superAt, State.slot_setSlot_same, State.stream_setSlot, Slot.addTack]
    rfl
  · exact (congrArg Stream.issued (State.at_setAt s p _) :)

theorem complete_issued (s : State) (p : Place) (t : Tack) (c : Nat) : ((s.complete p t c).at p).issued = s.clock := by
  unfold State.complete
  dsimp only
  split_ifs
  · rw [pushTack_issued, State.at_setAt]
  · rw [State.at_setAt]

/-- Of two slots of one priority the one that issued last is the worse, in whichever order they are compared. -/
theorem better_of_issued {s : State} {p q : Place} (hq : q = { p with slot := q.slot }) (hp : shareDue s p = false)
    (hq' : shareDue s q = false) (heff : (s.slot q.slotK).regs.eff = (s.slot p.slotK).regs.eff)
    (hissued : (s.at q).issued < (s.at p).issued) :
    better s p p.slot q.slot = q.slot ∧ better s p q.slot p.slot = q.slot := by
  unfold better
  simp only [← hq, hp, hq', heff, hissued, Bool.or_self, Bool.false_eq_true, lt_irrefl, if_false, if_true,
    Nat.lt_asymm hissued, and_self]

theorem slotK_other {p : Place} {k : Nat} (hp : p.slot ≠ k) : ({ p with slot := k } : Place).slotK ≠ p.slotK := by
  simp only [Place.slotK, slotKey]
  omega

/-- YIELD: its stream has now issued last, and the streams of the other slots are as they were. -/
theorem yield_issues {s : State} {t : Tack} (h : Ready s t) :
    ∃ u, exec (.yield t) s = .next u ∧ OnlyStream s u ∧ (u.at s.cur).issued = s.clock := by
  obtain ⟨u, hu, hframe, -⟩ := issue_advances (size := 4) (body := fun s => .done s) h rfl
  refine ⟨u, hu, hframe, ?_⟩
  have hdone := issueX_done (size := 4) (body := fun s => .done s) (ready_withoutExt h) rfl
  rw [cur_withoutExt] at hdone
  have hretire : u = ((withoutExt s).popped t).retireAt s.cur 4 t := Host.Outcome.next.inj (hu.symm.trans hdone)
  rw [hretire, State.retireAt, complete_issued]
  calc (((withoutExt s).popped t).setAt s.cur _).clock
    _ = ((withoutExt s).popped t).clock := (congrArg State.clock (outside_setAt _ _ _) :)
    _ = s.clock := onlyStream_clock (bodyStart_frame s t)

theorem yield_turns {s : State} {t : Tack} {q : Place} (h : Ready s t) (hq : q = { s.cur with slot := q.slot })
    (hne : q.slotK ≠ s.cur.slotK) (heff : (s.slot q.slotK).regs.eff = s.mySlot.regs.eff) (hissued : (s.at q).issued < s.clock) :
    ∃ u, exec (.yield t) s = .next u ∧ (shareDue u s.cur = false → shareDue u q = false →
      better u s.cur s.cur.slot q.slot = q.slot ∧ better u s.cur q.slot s.cur.slot = q.slot) := by
  obtain ⟨u, hu, hframe, hlast⟩ := yield_issues h
  have hstream : q.streamK ≠ s.cur.streamK := by
    have hf : q.stream = s.cur.stream := (congrArg Place.stream hq :)
    intro heq
    simp only [Place.streamK, hf] at heq
    exact hne (by simp only [Place.slotK]; omega)
  refine ⟨u, hu, fun hp hq' => better_of_issued hq hp hq' ?_ ?_⟩
  · rw [hframe.slots _ hne, heff, onlyStream_eff hframe, State.mySlot]
  · rwa [onlyStream_at hframe hne hstream, hlast]

/-! ### WAITC (R142) -/

section
variable {s : State} {t : Tack} {d : Reg} {n : BitVec 14} {stitch : Bool} (h : Ready s t)
include h

theorem waitcBody_reached (hreached : (s.x d + n.setWidth 64).toNat ≤ s.waitCount s.cur stitch) :
    ∃ u, issueX 4 t (waitcBody stitch d n t) s = .next u ∧ OnlyStream s u ∧ Sequential s u 4 s.x 0 := by
  refine issueX_advances h ?_
  simp only [waitcBody, State.x_popped, State.cur_popped, onlyStream_waitCount (.popped s t), if_pos hreached]

theorem waitcBody_ahead (hahead : s.waitCount s.cur stitch < (s.x d + n.setWidth 64).toNat) :
    ∃ u, issueX 4 t (waitcBody stitch d n t) s = .next u ∧ OnlyStream s u ∧ (∀ r, u.x r = s.x r) ∧ u.me.pc = s.me.pc ∧
      u.me.wait = some (.until stitch (s.x d + n.setWidth 64).toNat t) := by
  obtain ⟨u, hu, hframe, hx, hpc, hwait, -⟩ := issueX_arms (size := 4) (body := waitcBody stitch d n t) (stall := false)
    (w := some (.until stitch (s.x d + n.setWidth 64).toNat t)) h
    (by simp only [waitcBody, State.x_popped, State.cur_popped, onlyStream_waitCount (.popped s t), if_neg (Nat.not_le.2 hahead)])
  exact ⟨u, hu, hframe, hx, hpc, hwait⟩

end

/-- WAITC_TARGET_REACHED takes the word's token and retires it. -/
theorem waitcReached_retires {s : State} {t : Tack} {target : Nat} {stitch : Bool}
    (hwait : s.me.wait = some (.until stitch target t)) (hreached : target ≤ s.waitCount s.cur stitch) :
    s.waitcReached s.cur = (s.popped t).retireAt s.cur 4 t := by
  have hwait' : (s.at s.cur).wait = some (.until stitch target t) := hwait
  simp only [State.waitcReached, hwait', if_pos hreached]
  rfl

/-! ### The statement -/

theorem counterReads {s : State} {t : Tack} (d : Reg) (h : Ready s t) :
    WritesReg (.rdcyc d t) s 4 d (BitVec.ofNat 64 (s.clock - (s.auxOf s.cur.coreK).cycleBase)) ∧
      WritesReg (.rdcycS d t) s 4 d (BitVec.ofNat 64 (s.clock / 16 + s.jumped)) ∧
      WritesReg (.rdid d t) s 4 d (selfIdOf s.module s.cur) := by
  have hstart := bodyStart_frame s t
  refine ⟨issue_writes (size := 4) (body := fun s => .done (s.setX d (BitVec.ofNat 64 (s.cycle s.cur.coreK)))) h ?_,
    issue_writes (size := 4) (body := fun s => .done (s.setX d (BitVec.ofNat 64 s.stitch))) h ?_,
    issue_writes (size := 4) (body := fun s => .done (s.setX d (selfId s.module s.cur))) h ?_⟩
  · have hcount := onlyStream_waitCount hstart s.cur false
    rw [hstart.cur]
    exact congrArg (fun n => Eff.done (((withoutExt s).popped t).setX d (BitVec.ofNat 64 n))) hcount
  · have hcount := onlyStream_waitCount hstart s.cur true
    exact congrArg (fun n => Eff.done (((withoutExt s).popped t).setX d (BitVec.ofNat 64 n))) hcount
  · rw [hstart.cur, onlyStream_module hstart]
    rfl

/-- Settles O3: NOP, the hints and YIELD by `issue_advances`, WAITC by its count, and YIELD's place by the clock it issued at. -/
theorem timeAndIdentity : Obligations.TimeAndIdentity := by
  refine ⟨fun s t n imm h => ⟨?_, ?_⟩, fun s t d n h => ⟨?_, fun hreached => ?_, fun hreached => ?_, counterReads d h⟩,
    ⟨fun s t d n stitch h hahead => ?_, fun s t target stitch h hwait hreached => ?_⟩,
    fun s t k h hwf hthimble hk hne => ?_⟩
  · exact issue_advances (size := 4) (body := fun s => .done s) h rfl
  · exact issue_advances (size := 4) (body := fun s => .done s) h rfl
  · exact issue_advances (size := 4) (body := fun s => .done s) h rfl
  · exact waitcBody_reached (stitch := false) h hreached
  · exact waitcBody_reached (stitch := true) h hreached
  · cases stitch with
    | false => exact waitcBody_ahead (stitch := false) h hahead
    | true => exact waitcBody_ahead (stitch := true) h hahead
  · have hcount : target ≤ s.waitCount s.cur stitch := hreached
    exact ⟨_, congrArg Host.Outcome.next (waitcReached_retires hwait hcount), popped_retire t⟩
  · intro q heff hissued
    exact yield_turns (q := q) h rfl (slotK_other hne.symm) heff hissued

end Sys2Proof.Claims
end

section
/-!
O5: the transfers of control (R113, R115, R116, R138).

A transfer fetches its landing word before it goes there (`land`); the fetch fills translation caches and touches nothing else
(`Fetches`), so `jumps_of_land` says once what every taken transfer leaves, from what the state was when its landing was asked for.
-/
namespace Sys2Proof.Claims
open Sys2Proof.Machine

/-! ### A fetch's frame, in the terms of the statement -/

theorem sameButCaches_of_fetches {s u : State} (h : Fetches s u) : SameButCaches s u := by
  obtain ⟨⟨ts, rfl⟩, htiles⟩ := h
  exact ⟨rfl, htiles, fun _ => rfl⟩

theorem sameButCaches_of_onlyStream {s u : State} (h : OnlyStream s u) : SameButCaches s u :=
  ⟨(congrArg (fun v : State => { v with tiles := [] }) h.outside :),
    fun k => (congrArg (fun v : State => { v.tile k with tcache := [] }) h.outside :), h.memory⟩

theorem sameButCaches_trans {s u v : State} (h : SameButCaches s u) (g : SameButCaches u v) : SameButCaches s v :=
  ⟨g.outside.trans h.outside, fun k => (g.tiles k).trans (h.tiles k), fun a => (g.memory a).trans (h.memory a)⟩

theorem otherStreamsKept_of_fetches {s u : State} (h : Fetches s u) : OtherStreamsKept s u := by
  obtain ⟨⟨ts, rfl⟩, -⟩ := h
  exact ⟨rfl, fun _ _ => rfl, fun _ _ => rfl, rfl, by split_ifs <;> rfl⟩

theorem fetches_me {s u : State} (h : Fetches s u) : u.me = s.me := by
  obtain ⟨⟨ts, rfl⟩, -⟩ := h
  rfl

/-! ### A transfer whose landing word is a header -/

theorem land_goto {s v : State} {target : Word} (hland : s.lands target = true) (hcode : codeOf v = codeOf s) (hcur : v.cur = s.cur)
    (k : State → State) : ∃ w, land target k v = .goto target (k w) ∧ Fetches v w := by
  refine ⟨_, ?_, fetchWord_fetches v v.cur.tile v.cur.stream target.toNat⟩
  have hfetch := fetchWord_congr hcode v.cur.tile v.cur.stream target.toNat
  unfold State.lands at hland
  unfold land
  rw [← hcur] at hland
  generalize s.fetchWord v.cur.tile v.cur.stream target.toNat = r at hland hfetch
  generalize v.fetchWord v.cur.tile v.cur.stream target.toNat = q at hfetch ⊢
  obtain ⟨_ | c, r'⟩ := r <;> obtain ⟨f, q'⟩ := q
  · obtain rfl : f = _ := hfetch
    exact if_pos hland
  · exact absurd hland Bool.false_ne_true

section
variable {i : Instr} {r s : State} {size : Nat} {t : Tack} {body : State → Eff} {target : Word} {x : Reg → Word}
  (hi : exec i r = issueX size t body s) (h : Ready s t)
include hi h

/-- A word that goes to `target`, seen from a state `r` that differs from where it issued in its own stream alone. -/
theorem jumps_of_goto {s2 : State} (hb : body (s.popped t) = .goto target s2) (hcur : s.cur = r.cur) (hkept : OtherStreamsKept r s2)
    (hcaches : SameButCaches r s2) (hx : ∀ q, s2.x q = x q) (hctl : SameControl r.me s2.me) : Jumps i r target x := by
  have hcur2 : s2.cur = s.cur := hkept.cur.trans hcur.symm
  set v := s2.setMe { s2.me with pc := target, block := none } with hv
  have hvme : v.me = { s2.me with pc := target, block := none } := State.me_setMe ..
  have hvcur : v.cur = s.cur := (State.cur_setMe ..).trans hcur2
  have hframe : OnlyStream s2 (v.complete s.cur t (pChannel s.cur.stream (s2.at s.cur))) := by
    rw [← hvcur]
    exact (OnlyStream.setMe ..).trans (State.complete_frame ..)
  obtain ⟨hx', hfl, hvlen, hended, hext, -, hpc, hblock⟩ := State.complete_me v t (pChannel s.cur.stream (s2.at s.cur))
  rw [hvcur] at hx' hfl hvlen hended hext hpc hblock
  rw [hvme] at hx' hfl hvlen hended hpc hblock
  refine ⟨v.complete s.cur t (pChannel s.cur.stream (s2.at s.cur)), ?_, hkept.trans hframe.toOtherStreamsKept,
    sameButCaches_trans hcaches (sameButCaches_of_onlyStream hframe), fun q => ?_, hpc, hblock, hfl.trans hctl.fpflags, hvlen.trans hctl.vlen,
    hended.trans hctl.ended, hext⟩
  · rw [hi, issueX_goto h hb, hv, State.setMe, State.me, hcur2]
  · rw [← hx q]
    simp only [State.x, Stream.getX, hx']

/-- A word that transfers to a landing that is a header, `k` what it writes on the way. -/
theorem jumps_of_land {k : State → State} (hland : r.lands target = true) (hb : body (s.popped t) = land target k (s.popped t))
    (hcur : s.cur = r.cur) (hframe : OnlyStream r (s.popped t)) (hctl : SameControl r.me (s.popped t).me)
    (hk : ∀ w, w.me = (s.popped t).me → OnlyStream w (k w) ∧ (∀ q, (k w).x q = x q) ∧ SameControl w.me (k w).me) :
    Jumps i r target x := by
  have hcode : codeOf (s.popped t) = codeOf r := (congrArg codeOf hframe.outside :)
  obtain ⟨w, hgoto, hfetch⟩ := land_goto hland hcode hframe.cur k
  have hme := fetches_me hfetch
  obtain ⟨hkframe, hkx, hkctl⟩ := hk w hme
  rw [hme] at hkctl
  exact jumps_of_goto hi h (hb.trans hgoto) hcur
    ((hframe.toOtherStreamsKept.trans (otherStreamsKept_of_fetches hfetch)).trans hkframe.toOtherStreamsKept)
    (sameButCaches_trans (sameButCaches_trans (sameButCaches_of_onlyStream hframe) (sameButCaches_of_fetches hfetch))
      (sameButCaches_of_onlyStream hkframe)) hkx (hctl.trans hkctl)

end

section
variable {i : Instr} {s : State} {size : Nat} {t : Tack} {body : State → Eff} {target : Word} (h : Ready s t)
  (hland : s.lands target = true)
include h hland

/-- A transfer that takes an EXT and writes nothing. -/
theorem jumps_of_issueX (hi : exec i s = issueX size t body s) (hb : body (s.popped t) = land target id (s.popped t)) :
    Jumps i s target s.x :=
  jumps_of_land hi h hland hb rfl (.popped s t) (.of_eq (State.me_popped s t))
    fun w hw => ⟨.refl w, fun q => congrArg (Stream.getX · q) (hw.trans (State.me_popped s t)), .refl _⟩

/-- A transfer that takes no EXT and writes nothing. -/
theorem jumps_of_issue (hi : exec i s = issue size t body s)
    (hb : body ((withoutExt s).popped t) = land target id ((withoutExt s).popped t)) : Jumps i s target s.x := by
  refine jumps_of_land (s := withoutExt s) hi (ready_withoutExt h) hland hb (cur_withoutExt s) (bodyStart_frame s t) ?_
    fun w hw => ⟨.refl w, fun q => ?_, .refl _⟩
  · rw [State.me_popped]
    exact withoutExt_control s
  · rw [← x_withoutExt s q, ← State.x_popped (withoutExt s) t q]
    exact congrArg (Stream.getX · q) hw

end

/-! ### Targets (R18, R138) -/

theorem relTarget_popped (s : State) (t : Tack) (off : Int) : (s.popped t).relTarget off = s.relTarget off := by
  rw [State.relTarget, State.relTarget, State.me_popped]

theorem immJ_popped (s : State) (t : Tack) (off : BitVec 15) : (s.popped t).immJ off = immOf s 15 off := by
  rw [State.immJ, immUS_eq, immOf, immOf, State.me_popped]

theorem landReg_eq {target : Word} (heven : target.toNat % 2 = 0) (hlt : target.toNat < 2 ^ 56) (s : State) :
    landReg target s = land target id s := by
  have hbit : target.getLsbD 0 = false := by
    rw [BitVec.getLsbD, Nat.testBit_zero, heven]
    rfl
  have hhigh : target >>> 56 = 0 := by
    apply BitVec.eq_of_toNat_eq
    rw [BitVec.toNat_ushiftRight, Nat.shiftRight_eq_div_pow, Nat.div_eq_of_lt hlt]
    rfl
  simp only [landReg, hbit, hhigh, Bool.false_eq_true, if_false, ne_eq, not_true_eq_false]

/-! ### The instructions -/

section
variable {s : State} {t : Tack} {a : Reg} {off : BitVec 15} (h : Ready s t)
include h

theorem br_jumps (hland : s.lands (s.relTarget (immOf s 15 off)) = true) : Jumps (.br off t) s (s.relTarget (immOf s 15 off)) s.x :=
  jumps_of_issueX (size := 4) (body := fun s => land (s.relTarget (s.immJ off)) id s) h hland rfl
    (by simp only [immJ_popped, relTarget_popped])

/-- CALL writes x63 with the address after its body (R116). -/
theorem call_jumps (hland : s.lands (s.relTarget (immOf s 15 off)) = true) :
    Jumps (.call off t) s (s.relTarget (immOf s 15 off)) (s.wrote 63#6 s.me.bodyEnd) := by
  refine jumps_of_land (r := s) (s := s) (size := 4)
    (body := fun s => land (s.relTarget (s.immJ off)) (fun s => s.setX 63 s.me.bodyEnd) s) rfl h hland
    (k := fun s => s.setX 63 s.me.bodyEnd) (by simp only [immJ_popped, relTarget_popped]) rfl (.popped s t)
    (.of_eq (State.me_popped s t)) fun w hw => ⟨OnlyStream.setMe .., fun q => ?_, ?_⟩
  · have hx : w.x q = s.x q := congrArg (Stream.getX · q) (hw.trans (State.me_popped s t))
    rw [State.x_setX, hw, State.me_popped, hx]
    rfl
  · rw [me_setX]
    exact .setX ..

/-- A conditional branch: taken where `p` holds, `p` seen alike by the word's body. -/
theorem condition_jumps {i : Instr} {p : State → Prop} [DecidablePred p] (hp : p (s.popped t) ↔ p s)
    (hi : exec i s = issueX 4 t (fun s => if p s then land (s.relTarget (s.immJ off)) id s else .done s) s) :
    (s.lands (s.relTarget (immOf s 15 off)) = true → p s → Jumps i s (s.relTarget (immOf s 15 off)) s.x) ∧
      (¬ p s → OnlyAdvances i s 4) := by
  refine ⟨fun hland hs => jumps_of_issueX h hland hi ?_, fun hs => ?_⟩
  · simp only [if_pos (hp.2 hs), immJ_popped, relTarget_popped]
  · obtain ⟨u, hu, hframe, hseq⟩ := issueX_advances (size := 4) h
      (body := fun s => if p s then land (s.relTarget (s.immJ off)) id s else .done s) (if_neg (mt hp.1 hs))
    exact ⟨u, hi.trans hu, hframe, hseq⟩

/-- BRX and RET. -/
theorem register_jumps {i : Instr} (hi : exec i s = issue 4 t (fun s => landReg (s.x a) s) s) (hland : s.lands (s.x a) = true)
    (heven : (s.x a).toNat % 2 = 0) (hlt : (s.x a).toNat < 2 ^ 56) : Jumps i s (s.x a) s.x :=
  jumps_of_issue h hland hi (by simp only [State.x_popped, x_withoutExt, landReg_eq heven hlt])

end

/-- C.BZ and C.BNZ. -/
theorem compactCondition_jumps {s : State} {i : Instr} {imm : BitVec 5} {p : State → Prop} [DecidablePred p] (h : Ready s noTack)
    (hp : p ((withoutExt s).popped noTack) ↔ p s)
    (hi : exec i s = issue 2 noTack (fun s => if p s then land (s.relTarget imm.toInt) id s else .done s) s) :
    (s.lands (s.relTarget imm.toInt) = true → p s → Jumps i s (s.relTarget imm.toInt) s.x) ∧ (¬ p s → OnlyAdvances i s 2) := by
  have htarget : (withoutExt s).relTarget imm.toInt = s.relTarget imm.toInt := by
    rw [State.relTarget, State.relTarget, (withoutExt_control s).pc]
  refine ⟨fun hland hs => jumps_of_issue h hland hi ?_, fun hs => ?_⟩
  · simp only [if_pos (hp.2 hs), relTarget_popped, htarget]
  · obtain ⟨u, hu, hframe, hseq⟩ := issue_advances (size := 2) h
      (body := fun s => if p s then land (s.relTarget imm.toInt) id s else .done s) (if_neg (mt hp.1 hs))
    exact ⟨u, hi.trans hu, hframe, hseq⟩

/-- Settles O5: a taken transfer by `jumps_of_land`, one not taken as a word without effect. -/
theorem branchesTransfer : Obligations.BranchesTransfer := by
  intro s t a d off i h
  have hplain : Ready s noTack := ⟨h.1, fun hw => absurd hw Bool.false_ne_true⟩
  have hx (r : Reg) : (s.popped t).x r = s.x r := State.x_popped s t r
  have hcx (r : Reg) : ((withoutExt s).popped noTack).x r = s.x r := by rw [State.x_popped, x_withoutExt]
  obtain ⟨hbz, hbzNot⟩ := condition_jumps (i := .bz a off t) (off := off) (p := fun s => s.x a = 0) h (by rw [hx]) rfl
  obtain ⟨hbnz, hbnzNot⟩ := condition_jumps (i := .bnz a off t) (off := off) (p := fun s => s.x a ≠ 0) h (by rw [hx]) rfl
  obtain ⟨hcBz, hcBzNot⟩ :=
    compactCondition_jumps (i := .cBz d i) (imm := i) (p := fun s => s.x (reg5 d) = 0) hplain (by rw [hcx]) rfl
  obtain ⟨hcBnz, hcBnzNot⟩ :=
    compactCondition_jumps (i := .cBnz d i) (imm := i) (p := fun s => s.x (reg5 d) ≠ 0) hplain (by rw [hcx]) rfl
  exact ⟨⟨fun hland => br_jumps h hland, hbz, hbzNot, hbnz, fun hzero => hbnzNot (not_not.2 hzero), fun hland => call_jumps h hland⟩,
    fun hland heven hlt => register_jumps h rfl hland heven hlt, fun hland heven hlt => register_jumps h rfl hland heven hlt,
    hcBz, hcBzNot, hcBnz, fun hzero => hcBnzNot (not_not.2 hzero)⟩

end Sys2Proof.Claims
end

section
/-!
O10: SEMW and SEMWA complete where the comparison holds and else wait (R135, R148, R149).

A wait on a semaphore lends its slot's priority to the signaller (R361), which changes effective priorities alone (`Lends`);
`issueX_armsLending` is a word that so waits.
-/
namespace Sys2Proof.Claims
open Sys2Proof.Machine

/-! ### Lending leaves streams as they are -/

theorem Lends.superAt_eq {s u : State} (h : Lends s u) (p : Place) : u.superAt p = s.superAt p := by
  obtain ⟨n, hn⟩ := h.2 p.slotK
  rw [State.superAt, hn]
  rfl

theorem Lends.at_eq {s u : State} (h : Lends s u) (p : Place) : u.at p = s.at p := by
  obtain ⟨n, hn⟩ := h.2 p.slotK
  rw [State.at, State.at, h.superAt_eq, h.stream, hn]
  rfl

theorem Lends.cur_eq {s u : State} (h : Lends s u) : u.cur = s.cur := by
  obtain ⟨⟨sls, rfl⟩, -⟩ := h
  rfl

theorem Lends.me_eq {s u : State} (h : Lends s u) : u.me = s.me := by
  rw [State.me, h.cur_eq, h.at_eq, State.me]

/-! ### A word that waits on a semaphore -/

section
variable {size tile : Nat} {t : Tack} {body : State → Eff} {s : State} {stall : Bool} {w : Option Wait} (h : Ready s t)
include h

theorem issueX_armsLending
    (hb : body (s.popped t) = .wait stall (((s.popped t).setMe { (s.popped t).me with wait := w }).relend tile)) :
    ∃ u, issueX size t body s = .next u ∧ (∀ r, u.x r = s.x r) ∧ u.me.pc = s.me.pc ∧ u.me.wait = w ∧ u.outside = s.outside := by
  have hpop := State.me_popped s t
  have hout := (OnlyStream.popped s t).outside
  have hcurp := State.cur_popped s t
  generalize hv : s.popped t = v at hb hpop hout hcurp
  have hlend := relend_lends (v.setMe { v.me with wait := w }) tile
  have hme : ((v.setMe { v.me with wait := w }).relend tile).me = { v.me with wait := w } := hlend.me_eq.trans (State.me_setMe ..)
  have hcur : ((v.setMe { v.me with wait := w }).relend tile).cur = s.cur := (hlend.cur_eq.trans (State.cur_setMe ..)).trans hcurp
  have hout2 := hlend.outside.trans (outside_setAt v v.cur { v.me with wait := w })
  rw [← hv] at hb
  obtain ⟨u, hu, hframe, hx, hpc, hwait, -⟩ := issueX_waits (size := size) h hb (hv ▸ hcur)
  rw [hv] at hframe hx hpc hwait
  rw [hme] at hpc hwait
  refine ⟨u, hu, fun r => ?_, hpc.trans (congrArg Stream.pc hpop :), hwait, hframe.outside.trans (hout2.trans hout)⟩
  rw [hx, State.x, hme, State.x, ← hpop]
  rfl

/-- The same of a word that takes no EXT. -/
theorem issue_armsLending
    (hb : body ((withoutExt s).popped t) =
      .wait stall ((((withoutExt s).popped t).setMe { ((withoutExt s).popped t).me with wait := w }).relend tile)) :
    ∃ u, issue size t body s = .next u ∧ (∀ r, u.x r = s.x r) ∧ u.me.pc = s.me.pc ∧ u.me.wait = w ∧ u.outside = s.outside := by
  obtain ⟨u, hu, hx, hpc, hwait, hout⟩ := issueX_armsLending (size := size) (ready_withoutExt h) hb
  exact ⟨u, hu, fun r => (hx r).trans (x_withoutExt s r), hpc.trans (withoutExt_control s).pc, hwait,
    hout.trans (withoutExt_frame s).outside⟩

end

/-! ### The comparison (R148) and the selectors (R145) -/

theorem semPasses_iff (v t : BitVec 32) : semPasses v t = true ↔ AtLeast v t := by
  rw [semPasses, AtLeast, BitVec.msb_eq_toInt, Bool.not_eq_true', decide_eq_false_iff_not, Int.not_lt]

theorem selBad_of_names {sel : BitVec 9} (h : Names sel) : selBad sel.toNat = false := by
  unfold Names at h
  unfold selBad
  simp only [Bool.and_eq_false_iff, decide_eq_false_iff_not]
  omega

theorem onlyStream_sem {s v : State} (hv : OnlyStream s v) (tile core sel : Nat) : v.sem tile core sel = s.sem tile core sel :=
  (congrArg (State.sem · tile core sel) hv.outside :)

/-! ### SEMW -/

theorem exec_semw (d a : Reg) (sel : BitVec 9) (t : Tack) (s : State) : exec (.semw d a sel t) s = execSemw d a sel t s := rfl

section
variable {s : State} {t : Tack} {d a : Reg} {sel : BitVec 9} (h : Ready s t) (hsel : Names sel)
include h hsel

theorem semw_passes (hpass : AtLeast (semOf s sel.toNat).v ((s.x a).setWidth 32)) : WritesReg (.semw d a sel t) s 4 d 0 := by
  rw [WritesReg, exec_semw, execSemw]
  refine issueX_writes h ?_
  simp only [selBad_of_names hsel, State.cur_popped, onlyStream_sem (.popped s t), State.x32, State.x_popped]
  rw [if_neg Bool.false_ne_true]
  exact if_pos ((semPasses_iff ..).2 hpass)

theorem semw_waits (hfail : ¬ AtLeast (semOf s sel.toNat).v ((s.x a).setWidth 32)) :
    ∃ u, exec (.semw d a sel t) s = .next u ∧ (∀ r, u.x r = s.x r) ∧ u.me.pc = s.me.pc ∧
      u.me.wait = some (.semw sel.toNat ((s.x a).setWidth 32) d t) ∧ u.outside = s.outside := by
  rw [exec_semw, execSemw]
  refine issueX_armsLending (tile := s.cur.tile) (stall := false) h ?_
  simp only [selBad_of_names hsel, State.cur_popped, onlyStream_sem (.popped s t), State.x32, State.x_popped]
  rw [if_neg Bool.false_ne_true]
  exact if_neg (mt (semPasses_iff ..).1 hfail)

end

/-! ### SEMWA -/

theorem exec_semwa (d a b : Reg) (f : BitVec 3) (t : Tack) (s : State) : exec (.semwa d a b f t) s = execSemwa d a b f t s := rfl

theorem windowPass_bodyStart (s : State) (t : Tack) (win : Nat) (mask : Word) (thr : BitVec 32) :
    ((withoutExt s).popped t).windowPass s.cur.tile s.cur.core win mask thr = s.windowPass s.cur.tile s.cur.core win mask thr := by
  simp only [State.windowPass, onlyStream_sem (bodyStart_frame s t)]

section
variable {s : State} {t : Tack} {d a b : Reg} {f : BitVec 3} (h : Ready s t)
include h

theorem semwa_empty (hmask : s.x b = 0) : WritesReg (.semwa d a b f t) s 4 d (BitVec.allOnes 64) := by
  rw [WritesReg, exec_semwa, execSemwa]
  refine issue_writes h ?_
  simp only [State.x_popped, x_withoutExt, hmask, if_true]

theorem semwa_passes {k : Nat} (hmask : s.x b ≠ 0)
    (hpass : s.windowPass s.cur.tile s.cur.core f.toNat (s.x b) ((s.x a).setWidth 32) = some k) :
    WritesReg (.semwa d a b f t) s 4 d (BitVec.ofNat 64 k) := by
  rw [WritesReg, exec_semwa, execSemwa]
  refine issue_writes h ?_
  simp only [State.x_popped, x_withoutExt, State.cur_popped, cur_withoutExt, State.x32, windowPass_bodyStart s, hmask, hpass, if_false]

theorem semwa_waits (hmask : s.x b ≠ 0)
    (hfail : s.windowPass s.cur.tile s.cur.core f.toNat (s.x b) ((s.x a).setWidth 32) = none) :
    ∃ u, exec (.semwa d a b f t) s = .next u ∧ (∀ r, u.x r = s.x r) ∧ u.me.pc = s.me.pc ∧
      u.me.wait = some (.semwa f.toNat (s.x b) ((s.x a).setWidth 32) d t) ∧ u.outside = s.outside := by
  rw [exec_semwa, execSemwa]
  refine issue_armsLending (tile := s.cur.tile) (stall := false) h ?_
  simp only [State.x_popped, x_withoutExt, State.cur_popped, cur_withoutExt, State.x32, windowPass_bodyStart s, hmask, hfail, if_false]

end

/-- An entry of a window passes where its mask bit is 1 and its comparison holds. -/
theorem entryPasses_iff {s : State} {win k : Nat} {mask : Word} {thr : BitVec 32} :
    (mask.getLsbD k && semPasses (s.sem s.cur.tile s.cur.core (windowSel win k)).v thr) = true ↔
      mask.getLsbD k = true ∧ AtLeast (semOf s (windowSel win k)).v thr := by
  rw [Bool.and_eq_true, semPasses_iff]
  rfl

/-- Settles O10: SEMW by its comparison; SEMWA by the least entry that passes (`List.find?` of the window). -/
theorem semaphoreWaits : Obligations.SemaphoreWaits := by
  intro s t d a b sel f h _
  refine ⟨fun hsel hpass => semw_passes h hsel hpass, fun hsel hfail => semw_waits h hsel hfail, fun hmask => semwa_empty h hmask,
    fun k hk hbit hpass hleast => semwa_passes h ?_ ?_, fun hmask hfail => semwa_waits h hmask ?_⟩
  · intro hzero
    rw [hzero] at hbit
    simp at hbit
  · refine List.find?_range_eq_some.2 ⟨entryPasses_iff.2 ⟨hbit, hpass⟩, List.mem_range.2 hk, fun j hj => ?_⟩
    rw [Bool.not_eq_true', ← Bool.not_eq_true]
    exact fun hearlier => hleast j hj (entryPasses_iff.1 hearlier).1 (entryPasses_iff.1 hearlier).2
  · refine List.find?_range_eq_none.2 fun k hk => ?_
    rw [Bool.not_eq_true', ← Bool.not_eq_true]
    exact fun hentry => hfail k hk (entryPasses_iff.1 hentry).1 (entryPasses_iff.1 hentry).2

end Sys2Proof.Claims
end

section
/-!
A wait of another stream than the executing one completes (R135): at a rendezvous, on a semaphore.

Such a completion is a word of the stream at `q` that retires, so the laws of the executing stream say what it does of the state
in which `q` executes (`seenAt`); `OnlyAt s u q` is what they give.
-/
namespace Sys2Proof.Claims
open Sys2Proof.Machine

/-! ### A state as the stream at a place sees it -/

/-- The state with the stream at `q` for the executing one. -/
def seenAt (s : State) (q : Place) : State := { s with cur := q }

theorem seenAt_setAt (s : State) (p q : Place) (v : Stream) : (seenAt s q).setAt p v = seenAt (s.setAt p v) q := by
  unfold State.setAt
  change (if s.superAt p then _ else _) = _
  split_ifs <;> rfl

theorem seenAt_pushTack (s : State) (p q : Place) (c : Nat) : (seenAt s q).pushTack p c = seenAt (s.pushTack p c) q := by
  unfold State.pushTack
  dsimp only
  change (if (s.slot p.slotK).tackCount c < 16 then _ else _) = _
  split_ifs
  · rfl
  · rw [seenAt_setAt]
    rfl

theorem seenAt_retireAt (s : State) (p q : Place) (n : Nat) (t : Tack) : (seenAt s q).retireAt p n t = seenAt (s.retireAt p n t) q := by
  unfold State.retireAt State.complete
  dsimp only
  rw [seenAt_setAt, seenAt_setAt]
  split_ifs
  · exact seenAt_pushTack ..
  · rfl

/-- The W token of the word that waits at `q` taken from its channel (R121). -/
def poppedAt (s : State) (q : Place) (t : Tack) : State :=
  if t.w then s.setSlot q.slotK ((s.slot q.slotK).takeTack (wChannel q.stream (s.at q)) 1) else s

theorem seenAt_popped (s : State) (q : Place) (t : Tack) : (seenAt s q).popped t = seenAt (poppedAt s q t) q := by
  unfold State.popped poppedAt
  split_ifs <;> rfl

/-! ### What a completion at a place leaves alone -/

/-- From `s` to `u` nothing has changed but the stream at `q` and the tack counts of its slot. -/
structure OnlyAt (s u : State) (q : Place) : Prop where
  cur : u.cur = s.cur
  frame : OnlyStream (seenAt s q) (seenAt u q)

theorem OnlyAt.of_seenAt {s u : State} {q : Place} {v : State} (hv : OnlyStream (seenAt s q) v) (hu : v = seenAt u q)
    (hcur : u.cur = s.cur) : OnlyAt s u q := ⟨hcur, hu ▸ hv⟩

section
variable {s u : State} {q : Place} (h : OnlyAt s u q)
include h

theorem OnlyAt.outside : u.outside = s.outside := by
  have hout : { u.outside with cur := s.cur } = s.outside := (congrArg (fun v : State => { v with cur := s.cur }) h.frame.outside :)
  rw [← hout, ← h.cur]
  rfl

theorem OnlyAt.slot_other {k : Nat} (hk : k ≠ q.slotK) : u.slot k = s.slot k := h.frame.slots k hk

theorem OnlyAt.rest (k : Nat) : (u.slot k).rest = (s.slot k).rest := by
  by_cases hk : k = q.slotK
  · rw [hk]
    exact h.frame.own
  · rw [h.slot_other hk]

theorem OnlyAt.superAt (p : Place) : u.superAt p = s.superAt p := by
  have hregs : (u.slot p.slotK).regs = (s.slot p.slotK).regs := (congrArg Slot.regs (h.rest p.slotK) :)
  rw [State.superAt, hregs, State.superAt]

/-- Every other stream, as its program sees it, is as it was. -/
theorem OnlyAt.at_other {p : Place} (hp : p.stream < 5) (hq : q.stream < 5) (hne : p.slotK ≠ q.slotK ∨ p.stream ≠ q.stream) :
    u.at p = s.at p := by
  have hstream : p.streamK ≠ q.streamK := by
    simp only [Place.streamK]
    simp only [Place.slotK] at hne
    omega
  rw [State.at, State.at, h.superAt]
  split_ifs with hsuper
  · by_cases hk : p.slotK = q.slotK
    · have hbank := h.frame.bank
      have hq0 : ¬ (seenAt s q).super = true := by
        simp only [State.superAt, hk, Bool.and_eq_true, decide_eq_true_eq] at hsuper
        change ¬ s.superAt q = true
        simp only [State.superAt, Bool.and_eq_true, decide_eq_true_eq]
        omega
      rw [if_neg hq0] at hbank
      rw [hk]
      exact hbank
    · rw [h.slot_other hk]
  · exact h.frame.streams _ hstream

end

/-! ### The completions -/

/-- A participant of a rendezvous that completes: its word retires (R140). -/
theorem rendDone_retires {s : State} {q : Place} {m i : Nat} {t : Tack} (hwait : (s.at q).wait = some (.rend m i t)) :
    seenAt (s.rendDone q) q = ((seenAt s q).popped t).retireAt q 4 t := by
  rw [seenAt_popped, seenAt_retireAt, State.rendDone, hwait]
  rfl

/-- A wait that ends with a value for its destination: its word writes it and retires. -/
theorem completeWait_retires (s : State) (q : Place) (d : Reg) (t : Tack) (v : Word) :
    seenAt (s.completeWait q d t v) q = (((seenAt s q).popped t).setX d v).retireAt q 4 t := by
  have hset : (seenAt (poppedAt s q t) q).setX d v = seenAt ((poppedAt s q t).setAt q (((poppedAt s q t).at q).setX d v)) q :=
    seenAt_setAt ..
  rw [seenAt_popped, hset, seenAt_retireAt]
  rfl

theorem cur_retireAt (s : State) (p : Place) (n : Nat) (t : Tack) : (s.retireAt p n t).cur = s.cur :=
  (congrArg State.cur (outside_retireAt s p n t) :)

theorem cur_setAt (s : State) (p : Place) (v : Stream) : (s.setAt p v).cur = s.cur := (congrArg State.cur (outside_setAt s p v) :)

theorem cur_poppedAt (s : State) (q : Place) (t : Tack) : (poppedAt s q t).cur = s.cur := by
  unfold poppedAt
  split_ifs <;> rfl

theorem rendDone_at {s : State} {q : Place} {m i : Nat} {t : Tack} (hwait : (s.at q).wait = some (.rend m i t)) :
    OnlyAt s (s.rendDone q) q ∧ Sequential (seenAt s q) (seenAt (s.rendDone q) q) 4 (seenAt s q).x 0 := by
  obtain ⟨hframe, hseq⟩ := popped_retire (s := seenAt s q) t
  change OnlyStream (seenAt s q) (((seenAt s q).popped t).retireAt q 4 t) at hframe
  change Sequential (seenAt s q) (((seenAt s q).popped t).retireAt q 4 t) 4 (seenAt s q).x 0 at hseq
  rw [← rendDone_retires hwait] at hframe hseq
  refine ⟨⟨?_, hframe⟩, hseq⟩
  rw [State.rendDone, hwait]
  exact (cur_retireAt ..).trans (cur_poppedAt s q t)

theorem completeWait_at (s : State) (q : Place) (d : Reg) (t : Tack) (v : Word) :
    OnlyAt s (s.completeWait q d t v) q ∧
      Sequential (seenAt s q) (seenAt (s.completeWait q d t v) q) 4 ((seenAt s q).wrote d v) 0 := by
  have hpop := OnlyStream.popped (seenAt s q) t
  have hset : OnlyStream ((seenAt s q).popped t) (((seenAt s q).popped t).setX d v) := .setMe ..
  have hcur : (((seenAt s q).popped t).setX d v).cur = q := (hpop.trans hset).cur
  have hretire := State.retire_frame (((seenAt s q).popped t).setX d v) 4 t
  rw [hcur, ← completeWait_retires] at hretire
  have hctl : SameControl (seenAt s q).me (((seenAt s q).popped t).setX d v).me := by
    rw [me_setX, State.me_popped]
    exact .setX ..
  refine ⟨⟨?_, (hpop.trans hset).trans hretire⟩, ?_⟩
  · exact ((cur_retireAt ..).trans (cur_setAt ..)).trans (cur_poppedAt s q t)
  · rw [completeWait_retires]
    refine Sequential.of_retire (s := seenAt s q) 4 t hcur (fun r => ?_) (by rw [hctl.fpflags]; simp) hctl.vlen hctl.ended hctl.pc hctl.block
    rw [State.x_setX, State.x_popped]
    rfl

end Sys2Proof.Claims
end

section
/-!
O7: REND (R135, R140).

The participants that wait complete one after another (`foldl_rendDone`), each touching its own stream alone; the executing one
then retires as any word does.
-/
namespace Sys2Proof.Claims
open Sys2Proof.Machine

theorem slotK_placeOfSlot (k f : Nat) : (placeOfSlot k f).slotK = k := by
  simp only [placeOfSlot, Place.slotK, slotKey, coreKey]
  omega

theorem streamK_placeOfSlot (k f : Nat) : (placeOfSlot k f).streamK = 5 * k + f := by
  have hslot := slotK_placeOfSlot k f
  simp only [Place.slotK] at hslot
  simp only [Place.streamK, hslot]
  rfl

/-! ### A user slot's streams -/

/-- In a slot in user mode a stream stands for itself. -/
theorem at_user {s : State} {k : Nat} (hsuper : (s.slot k).regs.super = false) (f : Nat) :
    s.at (placeOfSlot k f) = s.stream (5 * k + f) := by
  rw [State.at, State.superAt, slotK_placeOfSlot, hsuper, streamK_placeOfSlot, Bool.false_and, if_neg Bool.false_ne_true]

theorem me_user {s : State} (hsuper : s.mySlot.regs.super = false) : s.me = s.stream s.cur.streamK := by
  have hslot : (s.slot s.cur.slotK).regs.super = false := hsuper
  rw [State.me, State.at, State.superAt, hslot, Bool.false_and, if_neg Bool.false_ne_true]

/-- A stream after the word it waited in has completed in sequence. -/
structure Resumed (a b : Stream) (x : Reg → Word) : Prop where
  x : ∀ r, b.getX r = x r
  fpflags : b.fpflags = a.fpflags
  wait : b.wait = none
  pc : b.pc = (a.advance 4).pc
  ended : b.ended = a.ended

theorem Resumed.of_sequential {s u : State} {q : Place} {x : Reg → Word}
    (h : Sequential (seenAt s q) (seenAt u q) 4 x 0) : Resumed (s.at q) (u.at q) x :=
  ⟨h.x, h.fpflags.trans BitVec.or_zero, h.wait, h.pc, h.ended⟩

/-- From `s` to `u` nothing but streams and tack counts has changed. -/
structure OnlyWords (s u : State) : Prop where
  cur : u.cur = s.cur
  outside : u.outside = s.outside
  rest : ∀ k, (u.slot k).rest = (s.slot k).rest

theorem OnlyWords.refl (s : State) : OnlyWords s s := ⟨rfl, rfl, fun _ => rfl⟩

theorem OnlyWords.trans {s u v : State} (h : OnlyWords s u) (g : OnlyWords u v) : OnlyWords s v :=
  ⟨g.cur.trans h.cur, g.outside.trans h.outside, fun k => (g.rest k).trans (h.rest k)⟩

theorem OnlyWords.super_eq {s u : State} (h : OnlyWords s u) (k : Nat) : (u.slot k).regs.super = (s.slot k).regs.super :=
  (congrArg (fun v : Slot => v.regs.super) (h.rest k) :)

theorem OnlyAt.words {s u : State} {q : Place} (h : OnlyAt s u q) : OnlyWords s u := ⟨h.cur, h.outside, h.rest⟩

/-! ### One participant, and all of them -/

theorem rendDone_user {s : State} {k g m i : Nat} {t : Tack} (hsuper : (s.slot k).regs.super = false)
    (hwait : (s.stream (5 * k + g)).wait = some (.rend m i t)) :
    let u := s.rendDone (placeOfSlot k g)
    OnlyWords s u ∧ (∀ j, j ≠ 5 * k + g → u.stream j = s.stream j) ∧
      Resumed (s.stream (5 * k + g)) (u.stream (5 * k + g)) (s.stream (5 * k + g)).getX := by
  have hat := at_user hsuper g
  obtain ⟨honly, hseq⟩ := rendDone_at (s := s) (q := placeOfSlot k g) (by rw [hat]; exact hwait)
  refine ⟨honly.words, fun j hj => honly.frame.streams j ?_, ?_⟩
  · rw [show (seenAt s (placeOfSlot k g)).cur.streamK = 5 * k + g from streamK_placeOfSlot k g]
    exact hj
  · have hres := Resumed.of_sequential hseq
    rwa [at_user ((honly.words.super_eq k).trans hsuper) g, hat, show (seenAt s (placeOfSlot k g)).x = _ from
      funext fun r => congrArg (Stream.getX · r) hat] at hres

/-- Participants `l` of a slot in user mode, each at a rendezvous, complete one after another. -/
theorem foldl_rendDone {k : Nat} (l : List Nat) (hl : l.Nodup) {s : State} (hsuper : (s.slot k).regs.super = false)
    (hwait : ∀ g ∈ l, ∃ m i t, (s.stream (5 * k + g)).wait = some (.rend m i t)) :
    let u := l.foldl (fun s g => s.rendDone (placeOfSlot k g)) s
    OnlyWords s u ∧ (∀ j, (∀ g ∈ l, j ≠ 5 * k + g) → u.stream j = s.stream j) ∧
      ∀ g ∈ l, Resumed (s.stream (5 * k + g)) (u.stream (5 * k + g)) (s.stream (5 * k + g)).getX := by
  induction l generalizing s with
  | nil => exact ⟨.refl s, fun _ _ => rfl, fun _ h => absurd h (List.not_mem_nil)⟩
  | cons g l ih =>
    obtain ⟨hg, hl⟩ := List.nodup_cons.1 hl
    obtain ⟨m, i, t, hw⟩ := hwait g (List.mem_cons_self ..)
    obtain ⟨hwords, hother, hdone⟩ := rendDone_user hsuper hw
    have hkeep (g') (hg' : g' ∈ l) : (s.rendDone (placeOfSlot k g)).stream (5 * k + g') = s.stream (5 * k + g') := by
      refine hother _ fun heq => hg ?_
      rwa [show g = g' by omega]
    obtain ⟨hwords', hother', hdone'⟩ := ih hl ((hwords.super_eq k).trans hsuper) fun g' hg' => by
      rw [hkeep g' hg']
      exact hwait g' (List.mem_cons_of_mem _ hg')
    refine ⟨hwords.trans hwords', fun j hj => ?_, fun g' hg' => ?_⟩
    · rw [List.foldl_cons, hother' j fun g' hg' => hj g' (List.mem_cons_of_mem _ hg'), hother j (hj g (List.mem_cons_self ..))]
    · rcases List.mem_cons.1 hg' with rfl | hg'
      · have hlast := hother' (5 * k + g') fun g'' hg'' heq => hg (by rwa [show g' = g'' by omega])
        rw [List.foldl_cons, hlast]
        exact hdone
      · have hres := hdone' g' hg'
        rwa [hkeep g' hg'] at hres

/-! ### A rendezvous that forms -/

theorem atRend_iff {s : State} {k mask id g : Nat} :
    s.atRend k mask id g = true ↔
      (s.stream (5 * k + g)).ended = true ∨ ∃ t, (s.stream (5 * k + g)).wait = some (.rend mask id t) := by
  unfold State.atRend
  rw [Bool.or_eq_true]
  refine or_congr_right ?_
  split
  · rename_i m i t hw
    simp only [hw, Bool.and_eq_true, decide_eq_true_eq, Option.some.injEq, Wait.rend.injEq]
    constructor
    · rintro ⟨rfl, rfl⟩
      exact ⟨t, rfl, rfl, rfl⟩
    · rintro ⟨_, rfl, rfl, -⟩
      exact ⟨rfl, rfl⟩
  · rename_i hno
    exact ⟨fun h => absurd h Bool.false_ne_true, fun ⟨t, ht⟩ => absurd ht (hno _ _ t)⟩

theorem formRend_user {s : State} {k f mask id : Nat} (hsuper : (s.slot k).regs.super = false) :
    let u := s.formRend k f mask id
    OnlyWords s u ∧ (∀ j, (∀ g, g < 5 → g ≠ f → j ≠ 5 * k + g) → u.stream j = s.stream j) ∧
      (∀ g, g < 5 → g ≠ f → bitN mask g = true → s.atRend k mask id g = true → (s.stream (5 * k + g)).ended = false →
        Resumed (s.stream (5 * k + g)) (u.stream (5 * k + g)) (s.stream (5 * k + g)).getX) := by
  have hmem (g : Nat) : g ∈ (List.range 5).filter
      (fun g => g ≠ f && bitN mask g && s.atRend k mask id g && !(s.stream (5 * k + g)).ended) ↔
      g < 5 ∧ ((g ≠ f ∧ bitN mask g = true) ∧ s.atRend k mask id g = true) ∧ (s.stream (5 * k + g)).ended = false := by
    simp only [List.mem_filter, List.mem_range, Bool.and_eq_true, decide_eq_true_eq, Bool.not_eq_true']
  obtain ⟨hwords, hother, hdone⟩ := foldl_rendDone _ (List.nodup_range.filter _) hsuper fun g hg => by
    obtain ⟨-, ⟨-, hat⟩, hlive⟩ := (hmem g).1 hg
    rcases atRend_iff.1 hat with hended | ⟨t, ht⟩
    · exact absurd hended (by rw [hlive]; exact Bool.false_ne_true)
    · exact ⟨mask, id, t, ht⟩
  refine ⟨hwords, fun j hj => hother j fun g hg => ?_, fun g hg hne hbit hat hlive => hdone g ((hmem g).2 ⟨hg, ⟨⟨hne, hbit⟩, hat⟩, hlive⟩)⟩
  obtain ⟨hg5, ⟨⟨hne, -⟩, -⟩, -⟩ := (hmem g).1 hg
  exact hj g hg5 hne

/-! ### REND -/

theorem exec_rend (mask : BitVec 5) (id : BitVec 3) (t : Tack) (s : State) : exec (.rend mask id t) s = execRend mask id t s := rfl

/-- The mask REND waits for, its own stream in it. -/
theorem bitN_rendMask {mask : BitVec 5} {f g : Nat} (hne : g ≠ f) :
    bitN (mask ||| BitVec.ofNat 5 (2 ^ f)).toNat g = mask.getLsbD g := by
  have hbit (n i : Nat) : bitN n i = n.testBit i := by simp [bitN, Nat.testBit_eq_decide_div_mod_eq]
  rw [hbit, BitVec.testBit_toNat, BitVec.getLsbD_or, BitVec.getLsbD_ofNat, Nat.testBit_two_pow_of_ne hne.symm, Bool.and_false,
    Bool.or_false]

theorem stream_popped (s : State) (t : Tack) (j : Nat) : (s.popped t).stream j = s.stream j := by
  rw [popped_eq]
  rfl

theorem rendForms_iff {s : State} {t : Tack} {k f id : Nat} {mask : BitVec 5} :
    (s.popped t).rendForms k f (mask ||| BitVec.ofNat 5 (2 ^ f)).toNat id = true ↔
      ∀ g, g < 5 → g ≠ f → mask.getLsbD g = true → s.atRend k (mask ||| BitVec.ofNat 5 (2 ^ f)).toNat id g = true := by
  simp only [State.rendForms, List.all_eq_true, List.mem_range, Bool.or_eq_true, decide_eq_true_eq, Bool.not_eq_true',
    State.atRend, stream_popped]
  refine forall₂_congr fun g hg => ?_
  by_cases hne : g = f
  · simp [hne]
  · rw [bitN_rendMask hne]
    cases mask.getLsbD g <;> simp [hne]

section
variable {s : State} {t : Tack} {mask : BitVec 5} {id : BitVec 3} (h : Ready s t) (hsuper : s.mySlot.regs.super = false)
include h

/-- With a partner missing REND waits where it stands. -/
theorem rend_waits {g : Nat} (hg : g < 5) (hne : g ≠ s.cur.stream) (hbit : mask.getLsbD g = true)
    (hmissing : ¬ AtRendezvous s (mask ||| BitVec.ofNat 5 (2 ^ s.cur.stream)).toNat id.toNat g) :
    ∃ u, exec (.rend mask id t) s = .next u ∧ OnlyStream s u ∧ (∀ r, u.x r = s.x r) ∧ u.me.pc = s.me.pc ∧
      u.me.wait = some (.rend (mask ||| BitVec.ofNat 5 (2 ^ s.cur.stream)).toNat id.toNat t) ∧
      ∀ c, u.mySlot.tackCount c = s.mySlot.tackCount c := by
  rw [exec_rend, execRend]
  refine issueX_arms (stall := true) h ?_
  dsimp only
  rw [State.cur_popped, if_neg]
  exact fun hforms => hmissing (atRend_iff.1 (rendForms_iff.1 hforms g hg hne hbit))

include hsuper

/-- With every partner there or ended REND completes, and so does each partner that waited. -/
theorem rend_completes (hforms : ∀ g, g < 5 → g ≠ s.cur.stream → mask.getLsbD g = true →
      AtRendezvous s (mask ||| BitVec.ofNat 5 (2 ^ s.cur.stream)).toNat id.toNat g) :
    ∃ u, exec (.rend mask id t) s = .next u ∧ u.outside = s.outside ∧ Sequential s u 4 s.x 0 ∧
      ∀ g, g < 5 → g ≠ s.cur.stream → mask.getLsbD g = true → (s.stream (5 * s.cur.slotK + g)).ended = false →
        (u.stream (5 * s.cur.slotK + g)).wait = none ∧
        (u.stream (5 * s.cur.slotK + g)).pc = ((s.stream (5 * s.cur.slotK + g)).advance 4).pc := by
  set m := (mask ||| BitVec.ofNat 5 (2 ^ s.cur.stream)).toNat with hm
  have hpop := OnlyStream.popped s t
  have hsuper' : ((s.popped t).slot s.cur.slotK).regs.super = false :=
    (congrArg (fun k : Slot => k.regs.super) (onlyStream_slot_rest hpop) :).trans hsuper
  obtain ⟨hwords, hother, hdone⟩ := formRend_user (f := s.cur.stream) (mask := m) (id := id.toNat) hsuper'
  set s2 := (s.popped t).formRend s.cur.slotK s.cur.stream m id.toNat with hs2
  have hcur : s2.cur = s.cur := hwords.cur.trans (State.cur_popped s t)
  have hsuper2 : s2.mySlot.regs.super = false := by
    rw [State.mySlot, hcur, hwords.super_eq]
    exact hsuper'
  have hme : s2.me = s.me := by
    rw [me_user hsuper2, me_user hsuper, hcur, ← stream_popped s t]
    refine hother _ fun g _ hne heq => hne ?_
    simp only [Place.streamK, Place.slotK] at heq
    omega
  obtain ⟨u, hu, hframe, hseq⟩ : ∃ u, execRend mask id t s = .next u ∧ OnlyStream s2 u ∧ Sequential s u 4 s.x 0 := by
    unfold execRend
    refine issueX_retires h ?_ hcur (fun r => congrArg (Stream.getX · r) hme) (.of_eq hme)
    dsimp only
    rw [State.cur_popped, if_pos (rendForms_iff.2 fun g hg hne hbit => atRend_iff.2 (hforms g hg hne hbit))]
  refine ⟨u, hu, hframe.outside.trans (hwords.outside.trans hpop.outside), hseq, fun g hg hne hbit hlive => ?_⟩
  have hstream : u.stream (5 * s.cur.slotK + g) = s2.stream (5 * s.cur.slotK + g) := by
    refine hframe.streams _ ?_
    rw [hcur]
    simp only [Place.streamK, Place.slotK]
    omega
  have hat : (s.popped t).atRend s.cur.slotK m id.toNat g = true := by
    simp only [State.atRend, stream_popped]
    exact atRend_iff.2 (hforms g hg hne hbit)
  have hres := hdone g hg hne ((bitN_rendMask hne).trans hbit) hat (by rwa [stream_popped])
  rw [stream_popped] at hres
  rw [hstream]
  exact ⟨hres.wait, hres.pc⟩

end

/-- Settles O7: a rendezvous forms exactly when every named partner is at it or has ended (`rendForms_iff`). -/
theorem rendezvousForms : Obligations.RendezvousForms := by
  intro s t mask id h _ hsuper _ _ m
  exact ⟨fun hforms => rend_completes h hsuper hforms, fun ⟨g, hg, hne, hbit, hmissing⟩ => rend_waits h hg hne hbit hmissing⟩

end Sys2Proof.Claims
end

section
/-!
What an operation on a semaphore wakes (R148, R229, R326, R361), where no copy is armed on it.

`Wakes s u` says what such an operation leaves: every stream and bank that waits for nothing, every engine, semaphore and byte of
memory. `semWake_wakes` proves it of the model's `semWake`, one part after another.
-/
namespace Sys2Proof.Claims
open Sys2Proof.Machine

/-- Of a slot everything but its tack counts, its supervisor bank and its effective priority. -/
def steady (k : Slot) : Slot := { k.rest with regs := { k.regs with eff := 0 } }

/-- A tile without its transform engines' records. -/
def withoutXfm (t : Tile) : Tile := { t with xfm0 := {}, xfm1 := {} }

/-- What stands outside streams and slots, but for the tables of tiles and engines. -/
def beyondTiles (s : State) : State := { s.outside with tiles := [], engines := [] }

/-- A transform engine of which records may have met their first place, and which is as it was otherwise. -/
def Marked (g g' : Xfm) : Prop :=
  ∃ f : XfmOp → XfmOp, (∀ o, f o = o ∨ f o = { o with passed := true }) ∧ g' = { g with queue := g.queue.map f }

theorem Marked.refl (g : Xfm) : Marked g g := ⟨id, fun _ => .inl rfl, by rw [List.map_id]⟩

theorem Marked.of_eq {g g' : Xfm} (h : g' = g) : Marked g g' := h ▸ .refl g

theorem Marked.trans {g g' g'' : Xfm} (h : Marked g g') (k : Marked g' g'') : Marked g g'' := by
  obtain ⟨f, hf, rfl⟩ := h
  obtain ⟨f', hf', rfl⟩ := k
  refine ⟨f' ∘ f, fun o => ?_, by simp only [List.map_map]⟩
  have hnext := hf' (f o)
  rw [Function.comp_apply]
  rcases hf o with ho | ho
  · rw [ho] at hnext ⊢
    exact hnext
  · rw [ho] at hnext ⊢
    exact .inr (hnext.elim id id)

/-- From `s` to `u` waits may have ended; what waits for nothing is as it was. -/
structure Wakes (s u : State) : Prop where
  beyond : beyondTiles u = beyondTiles s
  tiles : ∀ k, withoutXfm (u.tile k) = withoutXfm (s.tile k)
  xfm : ∀ k e, Marked (s.xfm k e) (u.xfm k e)
  engines : ∀ e, u.engine e = s.engine e
  slots : ∀ k, steady (u.slot k) = steady (s.slot k)
  streams : ∀ j, (s.stream j).wait = none → u.stream j = s.stream j
  banks : ∀ k, (s.slot k).sup.wait = none → (u.slot k).sup = (s.slot k).sup

theorem Wakes.refl (s : State) : Wakes s s := 
  ⟨rfl, fun _ => rfl, fun _ _ => .refl _, fun _ => rfl, fun _ => rfl, fun _ _ => rfl, fun _ _ => rfl⟩

theorem Wakes.trans {s u v : State} (h : Wakes s u) (g : Wakes u v) : Wakes s v where
  beyond := g.beyond.trans h.beyond
  tiles k := (g.tiles k).trans (h.tiles k)
  xfm k e := (h.xfm k e).trans (g.xfm k e)
  engines e := (g.engines e).trans (h.engines e)
  slots k := (g.slots k).trans (h.slots k)
  streams j hj := by
    have hu := h.streams j hj
    exact (g.streams j (by rw [hu, hj])).trans hu
  banks k hk := by
    have hu := h.banks k hk
    exact (g.banks k (by rw [hu, hk])).trans hu

/-- Where the table of tiles and the engines read alike, and streams and slots are the same. -/
theorem Wakes.of_tiles {s u : State} (hbeyond : beyondTiles u = beyondTiles s) (htiles : ∀ k, withoutXfm (u.tile k) = withoutXfm (s.tile k))
    (hxfm : ∀ k e, Marked (s.xfm k e) (u.xfm k e)) (hengines : ∀ e, u.engine e = s.engine e) (hslots : u.slots = s.slots) (hstreams : u.streams = s.streams) : Wakes s u where
  beyond := hbeyond
  tiles := htiles
  xfm := hxfm
  engines := hengines
  slots k := by rw [State.slot, hslots, State.slot]
  streams j _ := by rw [State.stream, hstreams, State.stream]
  banks k _ := by rw [State.slot, hslots, State.slot]

theorem Wakes.of_turns (s : State) (ts : List Turn) : Wakes s { s with turns := ts } :=
  .of_tiles rfl (fun _ => rfl) (fun _ _ => .refl _) (fun e => by cases e <;> rfl) rfl rfl

theorem Wakes.of_lends {s u : State} (h : Lends s u) : Wakes s u := by
  obtain ⟨⟨sls, rfl⟩, hslot⟩ := h
  refine ⟨rfl, fun _ => rfl, fun _ _ => .refl _, fun e => by cases e <;> rfl, fun k => ?_, fun _ _ => rfl, fun k _ => ?_⟩
  all_goals
    obtain ⟨n, hn⟩ := hslot k
    rw [hn]
    rfl

theorem Wakes.of_onlyAt {s u : State} {q : Place} (h : OnlyAt s u q) (hwait : (s.at q).wait ≠ none) : Wakes s u := by
  have hout := h.outside
  refine ⟨(congrArg beyondTiles hout :), fun k => (congrArg (fun v : State => withoutXfm (v.tile k)) hout :),
    fun k e => .of_eq (congrArg (State.xfm · k e) hout :), fun e => ?_, fun k => (congrArg (fun v : Slot => { v with regs := { v.regs with eff := 0 } }) (h.rest k) :), fun j hj => ?_, fun k hk => ?_⟩
  · cases e with
    | core t c => exact (congrArg (fun v : State => v.engine (.core t c)) hout :)
    | tile t => exact (congrArg (fun v : State => v.engine (.tile t)) hout :)
  · by_cases hq : j = q.streamK
    · have hsuper : s.superAt q = true := by
        by_contra hs
        rw [State.at, if_neg hs, ← hq] at hwait
        exact hwait hj
      have hbank := h.frame.bank
      rw [if_pos (show (seenAt s q).super = true from hsuper)] at hbank
      rw [hq]
      exact hbank
    · exact h.frame.streams j hq
  · by_cases hq : k = q.slotK
    · have hsuper : ¬ s.superAt q = true := fun hs => by
        rw [State.at, if_pos hs, ← hq] at hwait
        exact hwait hk
      have hbank := h.frame.bank
      rw [if_neg (show ¬ (seenAt s q).super = true from hsuper)] at hbank
      rw [hq]
      exact hbank
    · rw [h.slot_other hq]

theorem foldl_wakes {α : Type} {f : State → α → State} (hf : ∀ s a, Wakes s (f s a)) (l : List α) (s : State) : Wakes s (l.foldl f s) := by
  induction l generalizing s with
  | nil => exact .refl s
  | cons a l ih => exact (hf s a).trans (ih (f s a))

/-! ### What a reader of a woken state finds -/

section
variable {s u : State} (h : Wakes s u)
include h

theorem Wakes.cur_eq : u.cur = s.cur := (congrArg State.cur h.beyond :)
theorem Wakes.mem_eq : u.mem = s.mem := (congrArg State.mem h.beyond :)

theorem Wakes.superAt_eq (p : Place) : u.superAt p = s.superAt p := by
  have hsuper : (u.slot p.slotK).regs.super = (s.slot p.slotK).regs.super := (congrArg (fun v : Slot => v.regs.super) (h.slots p.slotK) :)
  rw [State.superAt, hsuper, State.superAt]

theorem Wakes.at_eq {p : Place} (hp : (s.at p).wait = none) : u.at p = s.at p := by
  rw [State.at] at hp
  rw [State.at, State.at, h.superAt_eq]
  split_ifs at hp ⊢
  · exact h.banks _ hp
  · exact h.streams _ hp

theorem Wakes.me_eq (hme : s.me.wait = none) : u.me = s.me := by
  rw [State.me, h.cur_eq]
  exact h.at_eq hme

theorem Wakes.sem_eq (tile core sel : Nat) : u.sem tile core sel = s.sem tile core sel := by
  have hcore : u.core = s.core := (congrArg State.core h.beyond :)
  have htile : (u.tile tile).sems = (s.tile tile).sems := (congrArg Tile.sems (h.tiles tile) :)
  rw [State.sem, hcore, htile, State.sem]

end

/-! ### The parts of an operation on a semaphore -/

theorem setAt_onlyAt (s : State) (q : Place) (v : Stream) : OnlyAt s (s.setAt q v) q :=
  .of_seenAt (OnlyStream.setMe (seenAt s q) v) (seenAt_setAt ..) (cur_setAt ..)

theorem wake1_wakes (tile core sel : Nat) (s : State) (q : Place) : Wakes s (State.wake1 tile core sel s q) := by
  have hdone (d : Reg) (t : Tack) (v : Word) (hw : (s.at q).wait ≠ none) : Wakes s (s.completeWait q d t v) :=
    .of_onlyAt (completeWait_at s q d t v).1 hw
  unfold State.wake1
  split
  · rename_i w thr d t hwait
    split_ifs
    · exact hdone d t 0 (by rw [hwait]; exact Option.some_ne_none _)
    · exact .refl s
  · rename_i win mask thr d t hwait
    split
    · exact hdone d t _ (by rw [hwait]; exact Option.some_ne_none _)
    · exact .refl s
  · rename_i mask b hwait
    split_ifs
    · exact .of_onlyAt (setAt_onlyAt ..) (by rw [hwait]; exact Option.some_ne_none _)
    · exact .refl s
  · exact .refl s

theorem engine_setEngine_self (s : State) (e e' : Eng) : (s.setEngine e (s.engine e)).engine e' = s.engine e' := by
  cases e with
  | core t c =>
    cases e' with
    | core t' c' =>
      simp only [State.setEngine, State.engine, Tab.get_set]
      split_ifs with hk
      · rw [hk]
      · rfl
    | tile t' => rfl
  | tile t =>
    cases e' with
    | core t' c' => rfl
    | tile t' =>
      simp only [State.setEngine, State.engine, State.tile_setTile]
      split_ifs with hk
      · rw [hk]
      · rfl

theorem setEngine_self_wakes (s : State) (e : Eng) : Wakes s (s.setEngine e (s.engine e)) := by
  have htile (k : Nat) : (s.setEngine e (s.engine e)).tile k = s.tile k := by
    cases e with
    | core t c => rfl
    | tile t =>
      simp only [State.setEngine, State.engine, State.tile_setTile]
      split_ifs with hk
      · rw [hk]
      · rfl
  refine .of_tiles ?_ (fun k => congrArg withoutXfm (htile k)) (fun k e' => .of_eq ?_) (engine_setEngine_self s e) ?_ ?_
  · cases e <;> rfl
  · rw [State.xfm, htile, State.xfm]
  · cases e <;> rfl
  · cases e <;> rfl

theorem passRecords_wakes (s : State) (tile core sel : Nat) : Wakes s (s.passRecords tile core sel) := by
  refine .of_tiles rfl (fun k => ?_) (fun k e => ?_) (fun e => ?_) rfl rfl
  · simp only [State.passRecords, State.tile_setTile]
    split_ifs with hk
    · rw [hk]
      rfl
    · rfl
  · have hmark (p : XfmOp → Bool) (g : Xfm) :
        Marked g { g with queue := g.queue.map (fun o => if p o then { o with passed := true } else o) } := by
      refine ⟨fun o => if p o then { o with passed := true } else o, fun o => ?_, rfl⟩
      dsimp only
      split_ifs
      · exact .inr rfl
      · exact .inl rfl
    simp only [State.xfm, State.passRecords, State.tile_setTile]
    split_ifs with he hk hk
    · rw [hk]
      exact hmark ..
    · exact .refl _
    · rw [hk]
      exact hmark ..
    · exact .refl _
  · cases e with
    | core t c => rfl
    | tile t =>
      simp only [State.passRecords, State.engine, State.tile_setTile]
      split_ifs with hk
      · rw [hk]
      · rfl

/-- No copy of an engine is armed on the semaphore: none starts. -/
theorem wakeCopies_unarmed {s : State} {e : Eng} {tile core sel : Nat} (h : ∀ o ∈ (s.engine e).ops, ∀ thr, o.armed ≠ some (sel, thr)) :
    s.wakeCopies e tile core sel = s.setEngine e (s.engine e) := by
  unfold State.wakeCopies
  extract_lets g hit ids s0 s1
  have hmiss : ∀ o ∈ g.ops, ¬ hit o = true := by
    intro o ho hhit
    revert hhit
    dsimp only [hit]
    split
    · rename_i n thr harmed
      intro hhit
      simp only [Bool.and_eq_true, decide_eq_true_eq] at hhit
      exact h o ho thr (by rw [harmed, hhit.1.1])
    · exact Bool.false_ne_true
  have hfilter : g.ops.filter hit = [] := List.filter_eq_nil_iff.2 hmiss
  have hmap : g.ops.map (fun o => if hit o then { o with armed := none } else o) = g.ops := by
    refine (List.map_congr_left fun o ho => ?_).trans (List.map_id _)
    rw [if_neg (hmiss o ho)]
    rfl
  simp only [ids, s1, s0, hfilter, hmap, List.map_nil, List.foldl_nil]
  rfl

theorem NoneArmed.of_engines {s u : State} {sel : Nat} (h : NoneArmed s sel) (he : ∀ e, u.engine e = s.engine e) : NoneArmed u sel := by
  intro e
  rw [he e]
  exact h e

theorem foldl_wakeCopies_wakes {tile core sel : Nat} (es : List Eng) {s : State} (h : NoneArmed s sel) :
    Wakes s (es.foldl (fun s e => s.wakeCopies e tile core sel) s) := by
  induction es generalizing s with
  | nil => exact .refl s
  | cons e es ih =>
    have hone : Wakes s (s.wakeCopies e tile core sel) := by
      rw [wakeCopies_unarmed (h e)]
      exact setEngine_self_wakes s e
    exact hone.trans (ih (h.of_engines hone.engines))

theorem nudge_wakes (s : State) (tile : Nat) : Wakes s (s.nudge tile) := by
  obtain ⟨ts, hts⟩ := nudge_turns s tile
  rw [hts]
  exact .of_turns s ts

/-- An operation on a semaphore on which no copy is armed. -/
theorem semWake_wakes {s : State} {tile core sel : Nat} (h : NoneArmed s sel) : Wakes s (s.semWake tile core sel) := by
  have hpass := passRecords_wakes s tile core sel
  have hnudge := hpass.trans (nudge_wakes (s.passRecords tile core sel) tile)
  have hwaits := hnudge.trans (foldl_wakes (wake1_wakes tile core sel) ((s.passRecords tile core sel).waiters tile core sel) _)
  have hcopies := hwaits.trans (foldl_wakeCopies_wakes (tile := tile) (core := core)
    (Eng.tile tile :: (if sel < 64 then [Eng.core tile core] else (List.range 8).map (Eng.core tile))) (h.of_engines hwaits.engines))
  exact hcopies.trans (.of_lends (relend_lends _ tile))

end Sys2Proof.Claims
end

section
/-!
O9: the operations on semaphores (R145 to R148).

An operation is: what its release settles (`Settled`), the semaphore written, and what that wakes (`Wakes`). `sem_completes` puts
the three together for SEMA, SEMS and SEMO; `foldl_wake1_completes` follows one armed SEMW through the waking.
-/
namespace Sys2Proof.Claims
open Sys2Proof.Machine

/-! ### What a release settles (R147, R173, R176) -/

/-- Stores performed and reductions none: memory, the core's own view of it, and nothing else. -/
structure Settled (s u : State) : Prop where
  eq : ∃ m ax ts, u = { s with mem := m, aux := ax, tiles := ts }
  tiles : ∀ k, u.tile k = s.tile k

theorem Settled.refl (s : State) : Settled s s := ⟨⟨s.mem, s.aux, s.tiles, rfl⟩, fun _ => rfl⟩

section
variable {s u : State} (h : Settled s u)
include h

theorem Settled.cur_eq : u.cur = s.cur := by
  obtain ⟨m, ax, ts, rfl⟩ := h.eq
  rfl

theorem Settled.me_eq : u.me = s.me := by
  obtain ⟨m, ax, ts, rfl⟩ := h.eq
  rfl

theorem Settled.sem_eq (tile core sel : Nat) : u.sem tile core sel = s.sem tile core sel := by
  have htile := h.tiles tile
  have hcore : u.core = s.core := by
    obtain ⟨m, ax, ts, rfl⟩ := h.eq
    rfl
  rw [State.sem, htile, hcore, State.sem]

theorem Settled.engine_eq (e : Eng) : u.engine e = s.engine e := by
  cases e with
  | core t c =>
    obtain ⟨m, ax, ts, rfl⟩ := h.eq
    rfl
  | tile t => exact congrArg Tile.copy (h.tiles t)

end

theorem foldl_performEntry_mem (es : List StoreEntry) (s : State) :
    (es.foldl State.performEntry s).mem = es.foldl (fun m e => m.writeBits e.bit e.width e.value) s.mem := by
  induction es generalizing s with
  | nil => rfl
  | cons e es ih => exact ih _

/-- Memory after a core's buffered stores depends on memory and the core's buffer alone. -/
theorem drainCore_mem (s : State) (k : Nat) :
    (s.drainCore k).mem = (s.auxOf k).stores.foldl (fun m e => m.writeBits e.bit e.width e.value) s.mem :=
  foldl_performEntry_mem (s.auxOf k).stores s

theorem drainCore_mem_popped (s : State) (t : Tack) (k : Nat) : ((s.popped t).drainCore k).mem = (s.drainCore k).mem := by
  rw [drainCore_mem, drainCore_mem, popped_eq]
  rfl

/-- With no reduction of the core on its way no tile changes. -/
theorem performCore_settled {s : State} {k : Nat} (hred : ∀ t, ∀ r ∈ (s.tile t).reds, r.source / 20 ≠ k) :
    Settled s (s.performCore k) ∧ (s.performCore k).mem = s.mem := by
  unfold State.performCore
  generalize s.tiles.map (·.1) = keys
  induction keys generalizing s with
  | nil => exact ⟨.refl s, rfl⟩
  | cons t keys ih =>
    have hone : State.performWhere (fun r => decide (r.source / 20 = k)) s t = s.setTile t (s.tile t) := by
      have hmine : (s.tile t).reds.filter (fun r => decide (r.source / 20 = k)) = [] := by simpa using hred t
      have hrest : (s.tile t).reds.filter (fun r => !decide (r.source / 20 = k)) = (s.tile t).reds := by simpa using hred t
      simp only [State.performWhere, hmine, hrest, List.foldl_nil]
    have htile (j : Nat) : (s.setTile t (s.tile t)).tile j = s.tile j := by
      rw [State.tile_setTile]
      split_ifs with hj
      · rw [hj]
      · rfl
    obtain ⟨⟨⟨m, ax, ts, heq⟩, htiles⟩, hmem⟩ := ih (s := s.setTile t (s.tile t)) (fun j r hr => hred j r (htile j ▸ hr))
    rw [List.foldl_cons, hone]
    exact ⟨⟨⟨m, ax, ts, heq⟩, fun j => (htiles j).trans (htile j)⟩, hmem⟩

theorem settleCore_settled {s : State} {k : Nat} (hred : ∀ e ∈ s.tiles, ∀ r ∈ e.2.reds, r.source / 20 ≠ k) :
    Settled s (s.settleCore k) ∧ (s.settleCore k).mem = (s.drainCore k).mem := by
  obtain ⟨m, ax, hdrain, -⟩ := drainCore_eq s k
  have htile (t : Nat) : (s.drainCore k).tile t = s.tile t := by
    rw [hdrain]
    rfl
  have hreds : ∀ t, ∀ r ∈ ((s.drainCore k).tile t).reds, r.source / 20 ≠ k := by
    intro t
    rw [htile]
    exact Tab.forall_get (P := fun x : Tile => ∀ r ∈ x.reds, r.source / 20 ≠ k) (by simp) hred
  obtain ⟨⟨⟨m', ax', ts, heq⟩, htiles⟩, hmem⟩ := performCore_settled hreds
  refine ⟨⟨⟨m', ax', ts, heq.trans ?_⟩, fun t => (htiles t).trans (htile t)⟩, hmem⟩
  rw [hdrain]

theorem release_settled {s : State} (h : NoReductions s) (n : Nat) :
    Settled s (s.release (selScope n)) ∧ (s.release (selScope n)).mem = releasedMem s n := by
  unfold State.release selScope releasedMem
  by_cases hn : n < 64
  · rw [if_pos hn, if_pos hn, if_neg (by decide)]
    exact ⟨.refl s, rfl⟩
  · rw [if_neg hn, if_neg hn, if_pos (le_refl 2)]
    exact settleCore_settled h

/-! ### The semaphore written -/

theorem me_setSem (s : State) (tile core n : Nat) (v : Sem) : (s.setSem tile core n v).me = s.me := by
  unfold State.setSem
  split_ifs <;> rfl

theorem cur_setSem (s : State) (tile core n : Nat) (v : Sem) : (s.setSem tile core n v).cur = s.cur := by
  unfold State.setSem
  split_ifs <;> rfl

theorem mem_setSem (s : State) (tile core n : Nat) (v : Sem) : (s.setSem tile core n v).mem = s.mem := by
  unfold State.setSem
  split_ifs <;> rfl

theorem slots_setSem (s : State) (tile core n : Nat) (v : Sem) : (s.setSem tile core n v).slots = s.slots := by
  unfold State.setSem
  split_ifs <;> rfl

theorem stream_setSem (s : State) (tile core n : Nat) (v : Sem) (j : Nat) : (s.setSem tile core n v).stream j = s.stream j := by
  unfold State.setSem
  split_ifs <;> rfl

theorem engine_setSem (s : State) (tile core n : Nat) (v : Sem) (e : Eng) : (s.setSem tile core n v).engine e = s.engine e := by
  unfold State.setSem
  split_ifs
  · cases e <;> rfl
  · cases e with
    | core t c => rfl
    | tile t =>
      simp only [State.engine, State.tile_setTile]
      split_ifs with ht
      · rw [ht]
      · rfl

theorem sem_setSem_same (s : State) (tile core n : Nat) (v : Sem) : (s.setSem tile core n v).sem tile core n = v := by
  unfold State.setSem State.sem
  split_ifs <;> simp [State.setCore, State.core, State.setTile, State.tile]

/-- The selectors of two homes name different semaphores. -/
theorem sem_setSem_other {s : State} {tile core n tile' core' m : Nat} (v : Sem) (hc : core < 8) (hc' : core' < 8)
    (hn : n < 64 ∨ 256 ≤ n) (hm : m < 64 ∨ 256 ≤ m) (hne : tile' ≠ tile ∨ m ≠ n ∨ (m < 64 ∧ core' ≠ core)) :
    (s.setSem tile core n v).sem tile' core' m = s.sem tile' core' m := by
  unfold State.setSem State.sem
  split_ifs with hn64 hm64 hm64
  · simp only [State.setCore, State.core, Tab.get_set]
    split_ifs with hk
    · have hcore : core' = core ∧ tile' = tile := by
        simp only [coreKey] at hk
        omega
      rw [Tab.get_set_other _ (show m ≠ n by omega), hk]
    · rfl
  · rfl
  · rfl
  · simp only [State.setTile, State.tile, Tab.get_set]
    split_ifs with hk
    · rw [Tab.get_set_other _ (show m - 256 ≠ n - 256 by omega), hk]
    · rfl

/-! ### What an operation leaves beside its semaphore -/

/-- Semaphores, slots, circuits, endpoints and clock read alike. -/
structure SameAside (s u : State) : Prop where
  sem : ∀ tile core m, u.sem tile core m = s.sem tile core m
  slots : ∀ k, steady (u.slot k) = steady (s.slot k)
  circuits : u.circuits = s.circuits
  eps : u.eps = s.eps
  lasers : u.lasers = s.lasers
  clock : u.clock = s.clock

theorem SameAside.trans {s u v : State} (h : SameAside s u) (g : SameAside u v) : SameAside s v :=
  ⟨fun a b c => (g.sem a b c).trans (h.sem a b c), fun k => (g.slots k).trans (h.slots k), g.circuits.trans h.circuits,
    g.eps.trans h.eps, g.lasers.trans h.lasers, g.clock.trans h.clock⟩

theorem SameAside.of_wakes {s u : State} (h : Wakes s u) : SameAside s u :=
  ⟨h.sem_eq, h.slots, (congrArg State.circuits h.beyond :), (congrArg State.eps h.beyond :), (congrArg State.lasers h.beyond :),
    (congrArg State.clock h.beyond :)⟩

theorem onlyStream_rest {s u : State} (h : OnlyStream s u) (k : Nat) : (u.slot k).rest = (s.slot k).rest := by
  by_cases hk : k = s.cur.slotK
  · rw [hk]
    exact onlyStream_slot_rest h
  · rw [h.slots k hk]

theorem SameAside.of_onlyStream {s u : State} (h : OnlyStream s u) : SameAside s u :=
  ⟨onlyStream_sem h, fun k => (congrArg (fun v : Slot => { v with regs := { v.regs with eff := 0 } }) (onlyStream_rest h k) :),
    (congrArg State.circuits h.outside :), (congrArg State.eps h.outside :), (congrArg State.lasers h.outside :), onlyStream_clock h⟩

theorem SameAside.of_settled {s u : State} (h : Settled s u) : SameAside s u := by
  refine ⟨h.sem_eq, fun k => ?_, ?_, ?_, ?_, ?_⟩
  all_goals
    obtain ⟨m, ax, ts, rfl⟩ := h.eq
    rfl

theorem onlyStream_mem {s u : State} (h : OnlyStream s u) : u.mem = s.mem := (congrArg State.mem h.outside :)

theorem onlyStream_engine {s u : State} (h : OnlyStream s u) (e : Eng) : u.engine e = s.engine e :=
  (congrArg (State.engine · e) h.outside :)

/-- An operation on semaphore `n` of the executing stream between two states that are alike aside. -/
theorem semFrame_of_setSem {s w u : State} {n : Nat} {v : Sem} (hn : n < 64 ∨ 256 ≤ n) (hbefore : SameAside s w)
    (hafter : SameAside (w.setSem s.cur.tile s.cur.core n v) u) (hcur : u.cur = s.cur) : SemFrame s u n u.mem ∧ semOf u n = v := by
  refine ⟨⟨fun tile core m hne hm hc hcur8 => ?_, fun _ => rfl, fun k => ?_, ?_, ?_, ?_, ?_⟩, ?_⟩
  · rw [hafter.sem, sem_setSem_other v hcur8 hc hn hm hne, hbefore.sem]
  · have hsteady : steady (u.slot k) = steady (s.slot k) := by
      rw [hafter.slots, State.slot, slots_setSem]
      exact hbefore.slots k
    exact ⟨(congrArg Slot.mode hsteady :), (congrArg Slot.handles hsteady :), (congrArg Slot.task hsteady :), (congrArg Slot.fifo hsteady :)⟩
  · rw [hafter.circuits, ← hbefore.circuits]
    unfold State.setSem
    split_ifs <;> rfl
  · rw [hafter.eps, ← hbefore.eps]
    unfold State.setSem
    split_ifs <;> rfl
  · rw [hafter.lasers, ← hbefore.lasers]
    unfold State.setSem
    split_ifs <;> rfl
  · rw [hafter.clock, ← hbefore.clock]
    unfold State.setSem
    split_ifs <;> rfl
  · rw [semOf, hcur, hafter.sem, sem_setSem_same]

/-- The state `w` in which a word writes its semaphore, and what is known of it. -/
structure BeforeWrite (s w : State) (n : Nat) (x : Reg → Word) (m : Memory) : Prop where
  cur : w.cur = s.cur
  x : ∀ r, w.x r = x r
  control : SameControl s.me w.me
  wait : w.me.wait = none
  armed : NoneArmed w n
  aside : SameAside s w
  mem : w.mem = m

/-- A word that operates on one semaphore. -/
theorem sem_completes {size : Nat} {t : Tack} {body : State → Eff} {s w : State} {n : Nat} {v : Sem} {x : Reg → Word} {m : Memory}
    (h : Ready s t) (hn : n < 64 ∨ 256 ≤ n) (hw : BeforeWrite s w n x m)
    (hb : body (s.popped t) = .done ((w.setSem s.cur.tile s.cur.core n v).semWake s.cur.tile s.cur.core n)) :
    ∃ u, issueX size t body s = .next u ∧ Sequential s u size x 0 ∧ SemFrame s u n m ∧ semOf u n = v := by
  have harmed := hw.armed.of_engines (engine_setSem w s.cur.tile s.cur.core n v)
  have hwakes := semWake_wakes (tile := s.cur.tile) (core := s.cur.core) harmed
  have hme : ((w.setSem s.cur.tile s.cur.core n v).semWake s.cur.tile s.cur.core n).me = w.me :=
    (hwakes.me_eq ((congrArg Stream.wait (me_setSem ..)).trans hw.wait)).trans (me_setSem ..)
  have hcur := (hwakes.cur_eq.trans (cur_setSem ..)).trans hw.cur
  obtain ⟨u, hu, hframe, hseq⟩ := issueX_retires (size := size) h hb hcur
    (fun r => (congrArg (Stream.getX · r) hme).trans (hw.x r)) (hw.control.trans (.of_eq hme))
  obtain ⟨hsem, hval⟩ := semFrame_of_setSem hn hw.aside ((SameAside.of_wakes hwakes).trans (.of_onlyStream hframe)) (hframe.cur.trans hcur)
  rw [onlyStream_mem hframe, hwakes.mem_eq, mem_setSem, hw.mem] at hsem
  exact ⟨u, hu, hseq, hsem, hval⟩

theorem beforeWrite_popped {s : State} (t : Tack) {n : Nat} (hwait : s.me.wait = none) (harmed : NoneArmed s n) :
    BeforeWrite s (s.popped t) n s.x s.mem :=
  have hpop := OnlyStream.popped s t
  ⟨State.cur_popped s t, State.x_popped s t, .of_eq (State.me_popped s t), (congrArg Stream.wait (State.me_popped s t)).trans hwait,
    harmed.of_engines (onlyStream_engine hpop), .of_onlyStream hpop, onlyStream_mem hpop⟩

theorem noReductions_popped {s : State} (t : Tack) (h : NoReductions s) : NoReductions (s.popped t) := by
  rw [popped_eq]
  exact h

theorem releasedMem_popped (s : State) (t : Tack) (n : Nat) : releasedMem (s.popped t) n = releasedMem s n := by
  unfold releasedMem
  rw [State.cur_popped, drainCore_mem_popped, onlyStream_mem (.popped s t)]

/-- After the release of an operation at the semaphore's scope. -/
theorem beforeWrite_release {s : State} (t : Tack) {n : Nat} (hwait : s.me.wait = none) (harmed : NoneArmed s n) (hred : NoReductions s) :
    BeforeWrite s ((s.popped t).release (selScope n)) n s.x (releasedMem s n) := by
  obtain ⟨hcur, hx, hctl, hw, ha, haside, -⟩ := beforeWrite_popped t hwait harmed
  obtain ⟨hset, hmem⟩ := release_settled (noReductions_popped t hred) n
  rw [releasedMem_popped] at hmem
  exact ⟨hset.cur_eq.trans hcur, fun r => (congrArg (Stream.getX · r) hset.me_eq).trans (hx r), hctl.trans (.of_eq hset.me_eq),
    (congrArg Stream.wait hset.me_eq).trans hw, ha.of_engines hset.engine_eq, haside.trans (.of_settled hset), hmem⟩

theorem wait_setX (a : Stream) (d : Reg) (v : Word) : (a.setX d v).wait = a.wait := by
  unfold Stream.setX
  split_ifs <;> rfl

theorem BeforeWrite.setX {s w : State} {n : Nat} {m : Memory} (h : BeforeWrite s w n s.x m) (d : Reg) (v : Word) :
    BeforeWrite s (w.setX d v) n (s.wrote d v) m := by
  have hset : OnlyStream w (w.setX d v) := .setMe ..
  refine ⟨hset.cur.trans h.cur, fun r => ?_, h.control.trans ?_, ?_, h.armed.of_engines (onlyStream_engine hset),
    h.aside.trans (.of_onlyStream hset), (onlyStream_mem hset).trans h.mem⟩
  · rw [State.x_setX, h.x]
    rfl
  · rw [me_setX]
    exact .setX ..
  · rw [me_setX, wait_setX, h.wait]

/-! ### SEMA, SEMS, SEMO, SEMRD -/

theorem exec_sema (d a : Reg) (sel : BitVec 9) (t : Tack) (s : State) : exec (.sema d a sel t) s = execSema d a sel t s := rfl
theorem exec_sems (a : Reg) (sel : BitVec 9) (t : Tack) (s : State) : exec (.sems a sel t) s = execSems a sel t s := rfl
theorem exec_semo (sel : BitVec 9) (t : Tack) (s : State) : exec (.semo sel t) s = execSemo sel t s := rfl
theorem exec_semrd (d : Reg) (sel : BitVec 9) (t : Tack) (s : State) : exec (.semrd d sel t) s = execSemrd d sel t s := rfl

section
variable {s : State} {t : Tack} {d a : Reg} {sel : BitVec 9} (h : Ready s t) (hsel : Names sel)
include h hsel

theorem semrd_reads : WritesReg (.semrd d sel t) s 4 d ((semOf s sel.toNat).v.setWidth 64) := by
  rw [WritesReg, exec_semrd, execSemrd]
  refine issueX_writes h ?_
  simp only [selBad_of_names hsel, Bool.false_eq_true, if_false, State.cur_popped, onlyStream_sem (.popped s t)]
  rfl

variable (hwait : s.me.wait = none) (harmed : NoneArmed s sel.toNat)
include hwait harmed

theorem semo_signs :
    ∃ u, exec (.semo sel t) s = .next u ∧ Sequential s u 4 s.x 0 ∧ SemFrame s u sel.toNat s.mem ∧
      semOf u sel.toNat = { semOf s sel.toNat with sig := some (s.cur.core, s.cur.slot) } := by
  rw [exec_semo, execSemo]
  refine sem_completes h hsel (beforeWrite_popped t hwait harmed) ?_
  simp only [selBad_of_names hsel, Bool.false_eq_true, if_false, State.cur_popped, onlyStream_sem (.popped s t)]
  rfl

variable (hred : NoReductions s)
include hred

theorem sems_sets :
    ∃ u, exec (.sems a sel t) s = .next u ∧ Sequential s u 4 s.x 0 ∧ SemFrame s u sel.toNat (releasedMem s sel.toNat) ∧
      semOf u sel.toNat = { semOf s sel.toNat with v := (s.x a).setWidth 32 } := by
  rw [exec_sems, execSems]
  have hw := beforeWrite_release t hwait harmed hred
  refine sem_completes h hsel hw ?_
  simp only [selBad_of_names hsel, Bool.false_eq_true, if_false, State.cur_popped, State.semSet, hw.aside.sem, State.x32, State.x_popped]
  rfl

theorem sema_adds :
    ∃ u, exec (.sema d a sel t) s = .next u ∧ Sequential s u 4 (s.wrote d ((semOf s sel.toNat).v.setWidth 64)) 0 ∧
      SemFrame s u sel.toNat (releasedMem s sel.toNat) ∧
      semOf u sel.toNat = { semOf s sel.toNat with v := (semOf s sel.toNat).v + (s.x a).setWidth 32 } := by
  rw [exec_sema, execSema]
  have hrel := beforeWrite_release t hwait harmed hred
  have hw := hrel.setX d ((semOf s sel.toNat).v.setWidth 64)
  refine sem_completes h hsel hw ?_
  have hold : ((s.popped t).release (selScope sel.toNat)).sem s.cur.tile s.cur.core sel.toNat = semOf s sel.toNat := hrel.aside.sem ..
  simp only [selBad_of_names hsel, Bool.false_eq_true, if_false, State.cur_popped, hold, State.semAdd, State.semSet, hw.aside.sem,
    State.x32, State.x_popped]
  rfl

end

end Sys2Proof.Claims
end

section
/-!
O9, the wait a SEMA completes (R148): one armed stream followed through the waking.

`foldl_completes` says it of any operation that visits places one after another, each of them once or more.
-/
namespace Sys2Proof.Claims
open Sys2Proof.Machine

/-! ### The places an operation on a semaphore visits -/

theorem placeOfSlot_of_wf {q : Place} (hwf : q.wf = true) : placeOfSlot q.slotK q.stream = q := by
  by_cases ht : q.tile < 16
  · exact placeOfSlot_slotK hwf ht
  · have hthimble : q = ⟨16, 0, 0, 0⟩ := by simpa [Place.wf, ht] using hwf
    rw [hthimble]
    rfl

theorem stream_lt_of_wf {q : Place} (hwf : q.wf = true) : q.stream < 5 := by
  by_cases ht : q.tile < 16
  · exact (bounds_of_wf hwf ht).2.2
  · have hthimble : q = ⟨16, 0, 0, 0⟩ := by simpa [Place.wf, ht] using hwf
    rw [hthimble]
    decide

theorem mem_waiters {s : State} {q : Place} {tile core sel : Nat} (hwf : q.wf = true) (htile : q.tile = tile)
    (hcore : 256 ≤ sel ∨ q.core = core) (hkey : q.slotK ∈ s.slots.map (·.1)) : q ∈ s.waiters tile core sel := by
  have hplace := placeOfSlot_of_wf hwf
  have ht : q.slotK / 32 = tile := htile ▸ congrArg Place.tile hplace
  have hc : q.slotK / 4 % 8 = q.core := congrArg Place.core hplace
  refine List.mem_flatMap.2 ⟨q.slotK, List.mem_filter.2 ⟨List.mem_filter.2 ⟨hkey, decide_eq_true ht⟩, ?_⟩,
    List.mem_map.2 ⟨q.stream, List.mem_range.2 (stream_lt_of_wf hwf), hplace⟩⟩
  rw [Bool.or_eq_true, decide_eq_true_eq, decide_eq_true_eq, hc]
  exact hcore

/-- A visited place is the one of its slot and stream. -/
theorem waiters_places {s : State} {tile core sel : Nat} {p : Place} (hp : p ∈ s.waiters tile core sel) :
    p.stream < 5 ∧ placeOfSlot p.slotK p.stream = p := by
  obtain ⟨k, -, hp⟩ := List.mem_flatMap.1 hp
  obtain ⟨f, hf, rfl⟩ := List.mem_map.1 hp
  exact ⟨List.mem_range.1 hf, by rw [slotK_placeOfSlot]; rfl⟩

/-- A table keeps its other keys when one is set. -/
theorem mem_keys_set {α : Type} [DecidableEq α] {d v : α} {i k : Nat} {t : Tab α} (hk : k ∈ t.map (·.1)) (hne : k ≠ i) :
    k ∈ (Tab.set d i v t).map (·.1) := by
  obtain ⟨e, he, rfl⟩ := List.mem_map.1 hk
  refine List.mem_map.2 ⟨e, ?_, rfl⟩
  unfold Tab.set
  split_ifs
  · exact List.mem_filter.2 ⟨he, decide_eq_true hne⟩
  · clear hk
    induction t with
    | nil => exact absurd he List.not_mem_nil
    | cons x t ih =>
      unfold Tab.insert
      split_ifs with hlt heq
      · exact List.mem_cons_of_mem _ he
      · rcases List.mem_cons.1 he with rfl | he
        · exact absurd heq.symm hne
        · exact List.mem_cons_of_mem _ he
      · rcases List.mem_cons.1 he with rfl | he
        · exact List.mem_cons_self ..
        · exact List.mem_cons_of_mem _ (ih he)

theorem keys_setMe {s : State} {k : Nat} {v : Stream} (hk : k ∈ s.slots.map (·.1)) (hne : k ≠ s.cur.slotK) :
    k ∈ (s.setMe v).slots.map (·.1) := by
  unfold State.setMe State.setAt
  split_ifs
  · exact mem_keys_set hk hne
  · exact hk

/-! ### A place followed through a fold -/

/-- The registers of the stream at `q` with one written are read off its stream. -/
theorem wrote_seenAt {s u : State} {q : Place} (h : u.at q = s.at q) (d : Reg) (v : Word) :
    (seenAt u q).wrote d v = (seenAt s q).wrote d v := by
  have hme : (seenAt u q).me = (seenAt s q).me := h
  funext r
  simp only [State.wrote, State.x, hme]

theorem OnlyAt.refl (s : State) (q : Place) : OnlyAt s s q := ⟨rfl, .refl _⟩

/-- A step of places completes the wait at `q` when it comes to it; whatever else it visits, that is how `q` ends. -/
theorem foldl_completes {g : State → Place → State} (hat : ∀ s p, OnlyAt s (g s p) p) (hwakes : ∀ s p, Wakes s (g s p)) {s : State}
    {q : Place} {d : Reg} {t : Tack} {v : Word} (hq : q.wf = true)
    (hdone : ∀ u, OnlyWords s u → u.at q = s.at q → g u q = u.completeWait q d t v) {l : List Place}
    (hl : ∀ p ∈ l, p.stream < 5 ∧ placeOfSlot p.slotK p.stream = p) (hmem : q ∈ l) :
    Resumed (s.at q) ((l.foldl g s).at q) ((seenAt s q).wrote d v) := by
  suffices hgen : ∀ u, OnlyWords s u → u.at q = s.at q → Resumed (s.at q) ((l.foldl g u).at q) ((seenAt s q).wrote d v) from
    hgen s (.refl s) rfl
  induction l with
  | nil => exact absurd hmem List.not_mem_nil
  | cons p l ih =>
    intro u hu huq
    rw [List.foldl_cons]
    by_cases hp : p = q
    · subst hp
      obtain ⟨-, hseq⟩ := completeWait_at u p d t v
      have hres := Resumed.of_sequential hseq
      rw [← hdone u hu huq, huq] at hres
      rw [wrote_seenAt huq] at hres
      rw [(foldl_wakes hwakes l (g u p)).at_eq hres.wait]
      exact hres
    · have hone := hat u p
      obtain ⟨hp5, hplace⟩ := hl p (List.mem_cons_self ..)
      have hother : (g u p).at q = u.at q := by
        refine hone.at_other (stream_lt_of_wf hq) hp5 ?_
        by_contra hsame
        rw [not_or, not_not, not_not] at hsame
        exact hp (by rw [← hplace, ← placeOfSlot_of_wf hq, hsame.1, hsame.2])
      exact ih (fun p' hp' => hl p' (List.mem_cons_of_mem _ hp')) ((List.mem_cons.1 hmem).resolve_left (Ne.symm hp)) _
        (hu.trans hone.words) (hother.trans huq)

/-- A wait that ended, in the terms of the statements. -/
theorem waiterEnds_of_resumed {s u : State} {q : Place} {d : Reg} {v : Word} (hs : s.superAt q = false) (hu : u.superAt q = false)
    (h : Resumed (s.at q) (u.at q) ((seenAt s q).wrote d v)) : WaiterEnds s u q d v := by
  have hstream (w : State) (hw : w.superAt q = false) : w.at q = w.stream q.streamK := by
    rw [State.at, hw, if_neg Bool.false_ne_true]
  rw [hstream s hs, hstream u hu] at h
  refine ⟨h.wait, h.pc, fun r => (h.x r).trans ?_⟩
  simp only [State.wrote, State.x]
  rw [show (seenAt s q).me = s.stream q.streamK from hstream s hs]
  rfl

/-! ### The SEMW a SEMA completes -/

theorem wake1_at (tile core sel : Nat) (s : State) (q : Place) : OnlyAt s (State.wake1 tile core sel s q) q := by
  unfold State.wake1
  split
  · split_ifs
    · exact (completeWait_at ..).1
    · exact .refl s q
  · split
    · exact (completeWait_at ..).1
    · exact .refl s q
  · split_ifs
    · exact setAt_onlyAt ..
    · exact .refl s q
  · exact .refl s q

theorem OnlyWords.sem_eq {s u : State} (h : OnlyWords s u) (tile core sel : Nat) : u.sem tile core sel = s.sem tile core sel :=
  (congrArg (State.sem · tile core sel) h.outside :)

/-- An armed SEMW of the semaphore that now passes. -/
theorem semWake_completes {s : State} {tile core sel : Nat} {q : Place} {thr : BitVec 32} {d : Reg} {t : Tack}
    (harmed : NoneArmed s sel) (hq : q.wf = true) (htile : q.tile = tile) (hcore : 256 ≤ sel ∨ q.core = core)
    (hkey : q.slotK ∈ s.slots.map (·.1)) (hwait : (s.at q).wait = some (.semw sel thr d t))
    (hpass : semPasses (s.sem tile core sel).v thr = true) :
    Resumed (s.at q) ((s.semWake tile core sel).at q) ((seenAt s q).wrote d 0) := by
  set p := s.passRecords tile core sel with hp
  have hnudge : Wakes s (p.nudge tile) := (passRecords_wakes s tile core sel).trans (nudge_wakes p tile)
  obtain ⟨ts, hts⟩ := nudge_turns p tile
  have hat : (p.nudge tile).at q = s.at q := by
    rw [hts]
    rfl
  have hfold := foldl_completes (g := State.wake1 tile core sel) (s := p.nudge tile) (q := q) (d := d) (t := t) (v := 0)
    (wake1_at tile core sel) (wake1_wakes tile core sel) hq (fun u hu huq => by
      have hw : (u.at q).wait = some (.semw sel thr d t) := by rw [huq, hat, hwait]
      have hv : semPasses (u.sem tile core sel).v thr = true := by rw [hu.sem_eq, hnudge.sem_eq, hpass]
      simp only [State.wake1, hw, hv, and_self, if_true])
    (l := p.waiters tile core sel) (fun p' hp' => waiters_places hp') (mem_waiters hq htile hcore hkey)
  rw [hat, wrote_seenAt hat] at hfold
  have hwaits := foldl_wakes (wake1_wakes tile core sel) (p.waiters tile core sel) (p.nudge tile)
  have hlast := (foldl_wakeCopies_wakes (tile := tile) (core := core)
    (Eng.tile tile :: (if sel < 64 then [Eng.core tile core] else (List.range 8).map (Eng.core tile)))
    (harmed.of_engines (hnudge.trans hwaits).engines)).trans (.of_lends (relend_lends _ tile))
  have hend := hlast.at_eq hfold.wait
  rw [← hend] at hfold
  exact hfold

theorem superAt_setSem (s : State) (tile core n : Nat) (v : Sem) (p : Place) : (s.setSem tile core n v).superAt p = s.superAt p := by
  unfold State.setSem
  split_ifs <;> rfl

theorem at_setSem (s : State) (tile core n : Nat) (v : Sem) (p : Place) : (s.setSem tile core n v).at p = s.at p := by
  unfold State.setSem
  split_ifs <;> rfl

theorem onlyStream_superAt {s u : State} (h : OnlyStream s u) (p : Place) : u.superAt p = s.superAt p := by
  have hsuper : (u.slot p.slotK).regs.super = (s.slot p.slotK).regs.super := (congrArg (fun v : Slot => v.regs.super) (onlyStream_rest h p.slotK) :)
  rw [State.superAt, hsuper, State.superAt]

/-- Places of different slots have different streams. -/
theorem streamK_ne {p q : Place} (hp : p.stream < 5) (hq : q.stream < 5) (hne : q.slotK ≠ p.slotK) : q.streamK ≠ p.streamK := by
  simp only [Place.slotK] at hne
  simp only [Place.streamK]
  omega

theorem sema_wakes {s : State} {a d' : Reg} {sel : BitVec 9} {thr : BitVec 32} {q : Place} (h : Ready s noTack) (hcur : s.cur.wf = true)
    (harmed : NoneArmed s sel.toNat) (hsel : sel.toNat < 64) (hq : q.wf = true) (htile : q.tile = s.cur.tile) (hcore : q.core = s.cur.core)
    (hslot : q.slotK ≠ s.cur.slotK) (hkey : q.slotK ∈ s.slots.map (·.1)) (hsuper : s.superAt q = false)
    (hwait : (s.at q).wait = some (.semw sel.toNat thr d' noTack))
    (hpass : AtLeast ((semOf s sel.toNat).v + (s.x a).setWidth 32) thr) :
    ∃ u, exec (.sema 0#6 a sel noTack) s = .next u ∧ WaiterEnds s u q d' 0 := by
  have hstream := streamK_ne (stream_lt_of_wf hcur) (stream_lt_of_wf hq) hslot
  set w := s.setX 0 ((semOf s sel.toNat).v.setWidth 64) with hw
  have hset : OnlyStream s w := .setMe ..
  set new : Sem := { semOf s sel.toNat with v := (semOf s sel.toNat).v + (s.x a).setWidth 32 } with hnew
  set w1 := w.setSem s.cur.tile s.cur.core sel.toNat new with hw1
  have harmed1 : NoneArmed w1 sel.toNat :=
    harmed.of_engines fun e => (engine_setSem w s.cur.tile s.cur.core sel.toNat new e).trans (onlyStream_engine hset e)
  have hat1 : w1.at q = s.at q := (at_setSem ..).trans (onlyStream_at hset hslot hstream)
  have hwakes := semWake_wakes (tile := s.cur.tile) (core := s.cur.core) harmed1
  have hres := semWake_completes (core := s.cur.core) harmed1 hq htile (.inr hcore)
    (by rw [hw1, slots_setSem]; exact keys_setMe hkey hslot) (by rw [hat1, hwait]) (by rw [hw1, sem_setSem_same]; exact (semPasses_iff ..).2 hpass)
  rw [hat1, wrote_seenAt hat1] at hres
  set s2 := w1.semWake s.cur.tile s.cur.core sel.toNat with hs2
  have hcur2 : s2.cur = s.cur := (hwakes.cur_eq.trans (cur_setSem ..)).trans hset.cur
  obtain ⟨u, hu, hframe⟩ : ∃ u, execSema 0#6 a sel noTack s = .next u ∧ OnlyStream s2 u := by
    unfold execSema
    have hret := State.retire_frame s2 4 noTack
    rw [hcur2] at hret
    refine ⟨_, issueX_done (s2 := s2) h ?_, hret⟩
    have hbad : selBad sel.toNat = false := selBad_of_names (.inl hsel)
    have hscope : selScope sel.toNat = 1 := if_pos hsel
    have hold : w.sem s.cur.tile s.cur.core sel.toNat = semOf s sel.toNat := onlyStream_sem hset ..
    have hpop : s.popped noTack = s := rfl
    simp only [hpop, hbad, hscope, Bool.false_eq_true, if_false, State.release, show ¬ 2 ≤ 1 by decide]
    rw [State.semAdd, State.semSet]
    change Eff.done ((w.setSem s.cur.tile s.cur.core sel.toNat { w.sem s.cur.tile s.cur.core sel.toNat with
      v := (w.sem s.cur.tile s.cur.core sel.toNat).v + (s.x a).setWidth 32 }).semWake s.cur.tile s.cur.core sel.toNat) = _
    rw [hold]
  refine ⟨u, hu, waiterEnds_of_resumed hsuper ?_ ?_⟩
  · rw [onlyStream_superAt hframe, hwakes.superAt_eq, hw1, superAt_setSem, onlyStream_superAt hset, hsuper]
  · rw [onlyStream_at hframe (by rwa [hcur2]) (by rwa [hcur2])]
    exact hres

/-- Settles O9: the operations by `sem_completes`, the SEMW a SEMA completes by `sema_wakes`. -/
theorem semaphoreOperations : Obligations.SemaphoreOperations := by
  refine ⟨fun s t d a sel h ⟨hwait, _⟩ hsel hred harmed => ⟨sema_adds h hsel hwait harmed hred, sems_sets h hsel hwait harmed hred,
    semo_signs h hsel hwait harmed, semrd_reads h hsel⟩, ?_⟩
  rintro s a d' sel thr q h ⟨-, hwf⟩ harmed hsel hq htile hcore hslot hkey hsuper hwait hpass
  have hk : q.slotK ≠ s.cur.slotK := by
    simp only [Place.slotK, slotKey, coreKey, htile, hcore]
    omega
  have hsuperAt : s.superAt q = false := by rw [State.superAt, hsuper, Bool.false_and]
  obtain ⟨u, hu, hend, hpc, hx⟩ := sema_wakes h hwf harmed hsel hq htile hcore hk hkey hsuperAt
    (by rw [State.at, hsuperAt, if_neg Bool.false_ne_true]; exact hwait) hpass
  refine ⟨u, hu, hend, fun r => (hx r).trans ?_, hpc⟩
  by_cases hr : r = 0
  · rw [if_pos hr, hr]
    split_ifs <;> rfl
  · rw [if_neg hr]

end Sys2Proof.Claims
end

section
/-!
O6: END (R59, R139).

The word ends its own stream and retires (`end_retires`). Then, with another stream of the slot still running, the rendezvous it
lets form complete (`rendAfterEnd_keeps`); with none, the task retires: its increment (`retireTask_increments`), then its slot's
release (`dropTask_frees`).
-/
namespace Sys2Proof.Claims
open Sys2Proof.Machine

/-! ### The stream ends -/

theorem end_retires {s : State} {size : Nat} {t : Tack} (h : Ready s t) (hsuper : s.super = false) :
    ∃ v, issue size t (fun s => .done (endStream s)) s = .next v ∧ OnlyStream s v ∧ (∀ r, v.x r = s.x r) ∧
      v.me.fpflags = s.me.fpflags ∧ v.me.ended = true := by
  have hstart := bodyStart_frame s t
  set b := (withoutExt s).popped t with hb
  have hbsuper : b.super = false := (State.super_of_own hstart.cur hstart.own).trans hsuper
  have hbme : b.me = { s.me with ext := none } := (State.me_popped ..).trans (me_withoutExt s)
  have hend : endStream b = b.setMe { b.me with ended := true } := by
    rw [endStream, hbsuper, if_neg Bool.false_ne_true]
  have hset : OnlyStream b (endStream b) := hend ▸ OnlyStream.setMe ..
  have hme : (endStream b).me = { b.me with ended := true } := hend ▸ State.me_setMe ..
  have hcur : (endStream b).cur = s.cur := hset.cur.trans hstart.cur
  have hretire := State.retire_frame (endStream b) size t
  have hseq := State.retire_sequential (endStream b) size t
  rw [hcur] at hretire hseq
  have hdone := issueX_done (size := size) (s2 := endStream b) (body := fun s => .done (endStream s)) (ready_withoutExt h) rfl
  rw [cur_withoutExt] at hdone
  refine ⟨_, hdone, (hstart.trans hset).trans hretire, fun r => (hseq.x r).trans ?_, hseq.fpflags.trans ?_, hseq.ended.trans ?_⟩
  · rw [State.x, hme, hbme]
    rfl
  · rw [hme, hbme]
    exact BitVec.or_zero
  · rw [hme]

/-- What END leaves of the streams of its slot, as EndFrame says it. -/
theorem end_frame {s v : State} (hsuper : s.super = false) (hframe : OnlyStream s v) (hx : ∀ r, v.x r = s.x r)
    (hfl : v.me.fpflags = s.me.fpflags) :
    ∀ j r, (v.stream j).getX r = (s.stream j).getX r ∧ (v.stream j).fpflags = (s.stream j).fpflags := by
  intro j r
  by_cases hj : j = s.cur.streamK
  · have hvsuper : v.super = false := (State.super_of_own hframe.cur hframe.own).trans hsuper
    have hme (w : State) (hw : w.super = false) : w.me = w.stream w.cur.streamK := by
      rw [State.me, State.at, show w.superAt w.cur = false from hw, if_neg Bool.false_ne_true]
    have hxr := hx r
    rw [State.x, State.x, hme v hvsuper, hme s hsuper, hframe.cur] at hxr
    rw [hme v hvsuper, hme s hsuper, hframe.cur] at hfl
    rw [hj]
    exact ⟨hxr, hfl⟩
  · rw [hframe.streams j hj]
    exact ⟨rfl, rfl⟩

/-! ### The rendezvous an END lets form (R140) -/

/-- From `s` to `u` words have completed, and no stream's registers, flags or end have changed. -/
structure KeepsRegs (s u : State) : Prop where
  words : OnlyWords s u
  x : ∀ j r, (u.stream j).getX r = (s.stream j).getX r
  fpflags : ∀ j, (u.stream j).fpflags = (s.stream j).fpflags
  ended : ∀ j, (u.stream j).ended = (s.stream j).ended

theorem KeepsRegs.refl (s : State) : KeepsRegs s s := ⟨.refl s, fun _ _ => rfl, fun _ => rfl, fun _ => rfl⟩

theorem KeepsRegs.trans {s u v : State} (h : KeepsRegs s u) (g : KeepsRegs u v) : KeepsRegs s v :=
  ⟨h.words.trans g.words, fun j r => (g.x j r).trans (h.x j r), fun j => (g.fpflags j).trans (h.fpflags j),
    fun j => (g.ended j).trans (h.ended j)⟩

theorem foldl_keepsRegs {f : State → Nat → State} (hf : ∀ s a, KeepsRegs s (f s a)) (l : List Nat) (s : State) :
    KeepsRegs s (l.foldl f s) := by
  induction l generalizing s with
  | nil => exact .refl s
  | cons a l ih => exact (hf s a).trans (ih (f s a))

theorem rendDone_keeps (s : State) (q : Place) : KeepsRegs s (s.rendDone q) := by
  by_cases hw : ∃ m i t, (s.at q).wait = some (.rend m i t)
  · obtain ⟨m, i, t, hw⟩ := hw
    obtain ⟨honly, hseq⟩ := rendDone_at hw
    have hres := Resumed.of_sequential hseq
    have hstream (j : Nat) : (s.rendDone q).stream j = s.stream j ∨
        (s.rendDone q).stream j = (s.rendDone q).at q ∧ s.stream j = s.at q := by
      by_cases hj : j = q.streamK
      · have hbank := honly.frame.bank
        by_cases hsuper : s.superAt q = true
        · rw [if_pos (show (seenAt s q).super = true from hsuper)] at hbank
          exact .inl (hj ▸ hbank)
        · refine .inr ⟨?_, ?_⟩
          · rw [State.at, honly.superAt, if_neg hsuper, hj]
          · rw [State.at, if_neg hsuper, hj]
      · exact .inl (honly.frame.streams j hj)
    refine ⟨honly.words, fun j r => ?_, fun j => ?_, fun j => ?_⟩
    · rcases hstream j with heq | ⟨hu, hs⟩
      · rw [heq]
      · rw [hu, hs]
        exact hres.x r
    · rcases hstream j with heq | ⟨hu, hs⟩
      · rw [heq]
      · rw [hu, hs, hres.fpflags]
    · rcases hstream j with heq | ⟨hu, hs⟩
      · rw [heq]
      · rw [hu, hs, hres.ended]
  · have hsame : s.rendDone q = s := by
      unfold State.rendDone
      split
      · rename_i m i t hwait
        exact absurd ⟨m, i, t, hwait⟩ hw
      · rfl
    rw [hsame]
    exact .refl s

theorem formRend_keeps (s : State) (k f mask id : Nat) : KeepsRegs s (s.formRend k f mask id) :=
  foldl_keepsRegs (fun s g => rendDone_keeps s (placeOfSlot k g)) _ s

theorem rendAfterEnd_keeps (s : State) (k : Nat) : KeepsRegs s (s.rendAfterEnd k) := by
  refine foldl_keepsRegs (fun s g => ?_) _ s
  split
  · split_ifs
    · exact (formRend_keeps ..).trans (rendDone_keeps ..)
    · exact .refl s
  · exact .refl s

/-! ### The slot's release (R59, R368) -/

/-- From `s` to `u` events may have been queued and reported; streams, memory, cores, engines, and every slot's mode and task are
as they were. -/
structure Posts (s u : State) : Prop where
  cur : u.cur = s.cur
  streams : u.streams = s.streams
  mem : u.mem = s.mem
  cores : u.cores = s.cores
  engines : ∀ e, u.engine e = s.engine e
  slots : ∀ k, (u.slot k).mode = (s.slot k).mode ∧ (u.slot k).task = (s.slot k).task

theorem Posts.refl (s : State) : Posts s s := ⟨rfl, rfl, rfl, rfl, fun _ => rfl, fun _ => ⟨rfl, rfl⟩⟩

theorem Posts.trans {s u v : State} (h : Posts s u) (g : Posts u v) : Posts s v :=
  ⟨g.cur.trans h.cur, g.streams.trans h.streams, g.mem.trans h.mem, g.cores.trans h.cores, fun e => (g.engines e).trans (h.engines e),
    fun k => ⟨(g.slots k).1.trans (h.slots k).1, (g.slots k).2.trans (h.slots k).2⟩⟩

theorem engine_setTile_copy {s : State} {t : Nat} {v : Tile} (hcopy : v.copy = (s.tile t).copy) (e : Eng) :
    (s.setTile t v).engine e = s.engine e := by
  cases e with
  | core t' c => rfl
  | tile t' =>
    simp only [State.engine, State.tile_setTile]
    split_ifs with ht
    · rw [hcopy, ht]
    · rfl

theorem setTile_posts {s : State} {t : Nat} {v : Tile} (hcopy : v.copy = (s.tile t).copy) : Posts s (s.setTile t v) :=
  ⟨rfl, rfl, rfl, rfl, engine_setTile_copy hcopy, fun _ => ⟨rfl, rfl⟩⟩

theorem report_posts (s : State) (d : Dest) (e : Event) (t k : Nat) : Posts s (s.report d e t k) :=
  ⟨rfl, rfl, rfl, rfl, fun e => by cases e <;> rfl, fun _ => ⟨rfl, rfl⟩⟩

theorem postSuper_posts (s : State) (tile slot : Nat) (e : Event) : Posts s (s.postSuper tile slot e) := by
  unfold State.postSuper
  split
  · unfold State.postSlot
    dsimp only
    split_ifs
    · refine ⟨rfl, rfl, rfl, rfl, fun e => by cases e <;> rfl, fun k => ?_⟩
      rw [State.slot_soon, State.slot_setSlot]
      split_ifs with hk
      · rw [hk]
        exact ⟨rfl, rfl⟩
      · exact ⟨rfl, rfl⟩
    · exact report_posts ..
  · exact report_posts ..

theorem foldl_postSuper_posts (tile slot : Nat) (l : List Event) (s : State) :
    Posts s (l.foldl (fun s e => s.postSuper tile slot e) s) := by
  induction l generalizing s with
  | nil => exact .refl s
  | cons e l ih => exact (postSuper_posts ..).trans (ih _)

theorem noteRetired_posts (s : State) (t : Task) : Posts s (s.noteRetired t) := by
  unfold State.noteRetired
  dsimp only
  split_ifs
  · refine Posts.trans ?_ (report_posts ..)
    exact setTile_posts rfl
  · exact setTile_posts rfl

theorem pausedOf_congr {s u : State} (h : ∀ e, u.engine e = s.engine e) (tile task : Nat) : u.pausedOf tile task = s.pausedOf tile task := by
  simp only [State.pausedOf, h]

/-- A slot whose task has no fault open is free, without a task; streams, memory and cores stay. -/
theorem dropTask_frees {s u : State} {k : Nat} {t : Task} (hu : s.dropTask k = u) (htask : (s.slot k).task = some t)
    (hfaults : (s.slot k).faults = []) (hdelivered : (s.slot k).delivered = none) (hpaused : s.pausedOf (k / 32) t.id = []) :
    u.cur = s.cur ∧ u.streams = s.streams ∧ u.mem = s.mem ∧ u.cores = s.cores ∧ (u.slot k).mode = .free ∧ (u.slot k).task = none := by
  unfold State.dropTask at hu
  extract_lets sl s1 old regs s2 hub s2' s3 l rest at hu
  have hpend : Posts s s1 := setTile_posts rfl
  have hposts : Posts s2' s3 := foldl_postSuper_posts (k / 32) k sl.fifo s2'
  have hl : l = [] := by simp only [l, sl, hdelivered, hfaults, List.append_nil]
  have hrest : rest = [] := by
    simp only [rest, sl, htask, Option.map_some, Option.getD_some, hpaused, List.filter_nil]
  obtain ⟨ts, hnudge⟩ := nudge_turns s3 (k / 32)
  rw [hl, hrest, List.append_nil, List.foldl_nil, hnudge] at hu
  subst hu
  have hslot : s2'.slot k = _ := State.slot_setSlot_same s1 k _
  obtain ⟨hmode, htask'⟩ := hposts.slots k
  rw [hslot] at hmode htask'
  exact ⟨hposts.cur.trans hpend.cur, hposts.streams.trans hpend.streams, hposts.mem.trans hpend.mem, hposts.cores.trans hpend.cores,
    hmode, htask'⟩

/-! ### The task retires (R59) -/

/-- A stream ended, with no wait. -/
def overStream (st : Stream) : Stream := { st with ended := true, wait := none }

theorem retireTask_eq {s : State} {k : Nat} {t : Task} {sel core : Nat} {inc : BitVec 32} (hk : k ≠ 512) (htask : (s.slot k).task = some t)
    (hdone : t.done = some (sel, core, inc)) (hsel : sel < 64) :
    s.retireTask k = (((mapStreams k overStream s).semAdd (k / 32) core sel inc).noteRetired t).dropTask k := by
  have htask' : ((mapStreams k overStream s).slot k).task = some t := by rw [mapStreams_slot, htask]
  have hscope : ¬ 256 ≤ sel := by omega
  unfold State.retireTask
  change (if k = 512 then _ else match ((mapStreams k overStream s).slot k).task with | none => _ | some t => _) = _
  rw [if_neg hk, htask']
  simp only [hdone, if_neg hscope]
  rfl

/-- The last END of a task adds its increment to its semaphore and frees its slot. -/
theorem retireTask_frees {s u : State} {k : Nat} {t : Task} {sel core : Nat} {inc : BitVec 32} (hu : s.retireTask k = u) (hk : k ≠ 512)
    (htask : (s.slot k).task = some t) (hdone : t.done = some (sel, core, inc)) (hsel : sel < 64) (hfaults : (s.slot k).faults = [])
    (hdelivered : (s.slot k).delivered = none) (hpaused : s.pausedOf (k / 32) t.id = []) (harmed : NoneArmed s sel) :
    u.cur = s.cur ∧ (∀ f, f < 5 → ∀ r, (u.stream (5 * k + f)).getX r = (s.stream (5 * k + f)).getX r ∧
        (u.stream (5 * k + f)).fpflags = (s.stream (5 * k + f)).fpflags) ∧
      u.mem = s.mem ∧ (u.slot k).mode = .free ∧ (u.slot k).task = none ∧
      u.sem (k / 32) core sel = { s.sem (k / 32) core sel with v := (s.sem (k / 32) core sel).v + inc } := by
  rw [retireTask_eq hk htask hdone hsel] at hu
  set s1 := mapStreams k overStream s with hs1
  have hout : s1.outside = s.outside := mapStreams_outside ..
  have hsem1 : s1.sem (k / 32) core sel = s.sem (k / 32) core sel := (congrArg (State.sem · (k / 32) core sel) hout :)
  set new : Sem := { s.sem (k / 32) core sel with v := (s.sem (k / 32) core sel).v + inc } with hnew
  set s2 := s1.setSem (k / 32) core sel new with hs2
  have hadd : s1.semAdd (k / 32) core sel inc = s2.semWake (k / 32) core sel := by
    rw [State.semAdd, State.semSet, hsem1, hs2]
  rw [hadd] at hu
  have hengine2 (e : Eng) : s2.engine e = s.engine e := (engine_setSem ..).trans (congrArg (State.engine · e) hout :)
  have hwakes := semWake_wakes (tile := k / 32) (core := core) (harmed.of_engines hengine2)
  set s3 := s2.semWake (k / 32) core sel with hs3
  have hnote := noteRetired_posts s3 t
  have hslot : steady (s3.slot k) = steady (s.slot k) := by
    rw [hwakes.slots, hs2, State.slot, slots_setSem]
    exact congrArg steady (mapStreams_slot ..)
  have hslots4 : (s3.noteRetired t).slots = s3.slots := by
    unfold State.noteRetired
    dsimp only
    split_ifs <;> rfl
  have hslot4 : (s3.noteRetired t).slot k = s3.slot k := by rw [State.slot, hslots4, State.slot]
  have hengine4 (e : Eng) : (s3.noteRetired t).engine e = s.engine e :=
    (hnote.engines e).trans ((hwakes.engines e).trans (hengine2 e))
  obtain ⟨hcur, hstreams, hmem, hcores, hmode, htask'⟩ := dropTask_frees (t := t) hu
    (by rw [hslot4]; exact (congrArg Slot.task hslot :).trans htask) (by rw [hslot4]; exact (congrArg Slot.faults hslot :).trans hfaults)
    (by rw [hslot4]; exact (congrArg Slot.delivered hslot :).trans hdelivered) (by rw [pausedOf_congr hengine4, hpaused])
  refine ⟨?_, fun f hf r => ?_, ?_, hmode, htask', ?_⟩
  · rw [hcur, hnote.cur, hwakes.cur_eq, hs2, cur_setSem]
    exact (congrArg State.cur hout :)
  · have hover : s2.stream (5 * k + f) = overStream (s.stream (5 * k + f)) := by
      rw [hs2, stream_setSem, hs1, mapStreams_stream, if_pos (by omega)]
    have hend : u.stream (5 * k + f) = overStream (s.stream (5 * k + f)) := by
      rw [State.stream, hstreams, hnote.streams, ← State.stream, hwakes.streams _ (by rw [hover]; rfl), hover]
    rw [hend]
    exact ⟨rfl, rfl⟩
  · rw [hmem, hnote.mem, hwakes.mem_eq, hs2, mem_setSem]
    exact (congrArg State.mem hout :)
  · have hcore : u.sem (k / 32) core sel = s3.sem (k / 32) core sel := by
      rw [State.sem, State.sem, if_pos hsel, if_pos hsel, State.core, hcores, hnote.cores, State.core]
    rw [hcore, hwakes.sem_eq, hs2, sem_setSem_same]

/-! ### The statement -/

/-- The key of a slot of a compute tile. -/
theorem slotK_tile {p : Place} (hwf : p.wf = true) (ht : p.tile < 16) : p.slotK / 32 = p.tile ∧ p.slotK ≠ 512 := by
  obtain ⟨hc, hk, -⟩ := bounds_of_wf hwf ht
  simp only [Place.slotK, slotKey, coreKey]
  omega

theorem allEnded_iff {s : State} {k : Nat} (hk : k ≠ 512) : s.allEnded k = true ↔ ∀ f, f < 5 → (s.stream (5 * k + f)).ended = true := by
  rw [State.allEnded, if_neg hk, List.all_eq_true]
  refine forall_congr' fun f => imp_congr_left ?_
  simp only [List.mem_cons, List.not_mem_nil, or_false]
  omega

section
variable {s : State} {t : Tack} {size : Nat} (h : Ready s t) (hwf : s.cur.wf = true) (htile : s.cur.tile < 16) (hsuper : s.super = false)
include h hwf htile hsuper

/-- END while another stream of the slot runs. -/
theorem end_leaves (hother : ∃ f, f < 5 ∧ f ≠ s.cur.stream ∧ (s.stream (5 * s.cur.slotK + f)).ended = false) :
    ∃ u, afterEnd s.cur.slotK (issue size t (fun s => .done (endStream s)) s) = .next u ∧ EndFrame s u ∧ u.me.ended = true ∧
      u.mySlot.mode = s.mySlot.mode ∧ u.mySlot.task = s.mySlot.task := by
  obtain ⟨v, hv, hframe, hx, hfl, hended⟩ := end_retires (size := size) h hsuper
  have hregs := end_frame hsuper hframe hx hfl
  obtain ⟨f, hf, hne, hlive⟩ := hother
  have hrunning : v.allEnded s.cur.slotK = false := by
    rw [← Bool.not_eq_true, allEnded_iff (slotK_tile hwf htile).2]
    intro hall
    have hstream : v.stream (5 * s.cur.slotK + f) = s.stream (5 * s.cur.slotK + f) :=
      hframe.streams _ (by simp only [Place.streamK, Place.slotK]; omega)
    have hend := hall f hf
    rw [hstream, hlive] at hend
    exact absurd hend Bool.false_ne_true
  have hkeeps := rendAfterEnd_keeps v s.cur.slotK
  set u := v.rendAfterEnd s.cur.slotK with hu
  have hcur : u.cur = s.cur := hkeeps.words.cur.trans hframe.cur
  have hrest : (u.slot s.cur.slotK).rest = (s.slot s.cur.slotK).rest := (hkeeps.words.rest _).trans (onlyStream_slot_rest hframe)
  refine ⟨u, ?_, ⟨hcur, fun f r _ => (hkeeps.x _ r).trans (hregs _ r).1, fun f _ => (hkeeps.fpflags _).trans (hregs _ 0).2, fun a => ?_⟩,
    ?_, ?_, ?_⟩
  · rw [hv, afterEnd, hrunning, Bool.and_false, if_neg Bool.false_ne_true]
  · rw [show u.mem = v.mem from (congrArg State.mem hkeeps.words.outside :), onlyStream_mem hframe]
  · have hvsuper : v.superAt v.cur = false := (State.super_of_own hframe.cur hframe.own).trans hsuper
    have husuper : u.superAt u.cur = false := by
      rw [State.superAt, hkeeps.words.super_eq, hkeeps.words.cur]
      exact hvsuper
    rw [State.me, State.at, hvsuper, if_neg Bool.false_ne_true] at hended
    rw [State.me, State.at, husuper, if_neg Bool.false_ne_true, hkeeps.ended, hkeeps.words.cur, hended]
  · rw [State.mySlot, hcur]
    exact (congrArg Slot.mode hrest :)
  · rw [State.mySlot, hcur]
    exact (congrArg Slot.task hrest :)

/-- END of a task's last stream. -/
theorem end_retiresTask {k : Task} {sel : Nat} {inc : BitVec 32} (hmode : s.mySlot.mode = .running) (htask : s.mySlot.task = some k)
    (hdone : k.done = some (sel, s.cur.core, inc)) (hsel : sel < 64) (hfaults : s.mySlot.faults = []) (hdelivered : s.mySlot.delivered = none)
    (hpaused : s.pausedOf s.cur.tile k.id = []) (harmed : NoneArmed s sel)
    (hlast : ∀ f, f < 5 → f ≠ s.cur.stream → (s.stream (5 * s.cur.slotK + f)).ended = true) :
    ∃ u, afterEnd s.cur.slotK (issue size t (fun s => .done (endStream s)) s) = .next u ∧ EndFrame s u ∧ u.mySlot.mode = .free ∧
      u.mySlot.task = none ∧ (semOf u sel).v = (semOf s sel).v + inc ∧ (semOf u sel).sig = (semOf s sel).sig := by
  obtain ⟨v, hv, hframe, hx, hfl, hended⟩ := end_retires (size := size) h hsuper
  have hregs := end_frame hsuper hframe hx hfl
  obtain ⟨hdiv, hk⟩ := slotK_tile hwf htile
  have hrest := onlyStream_slot_rest hframe
  have hall : v.allEnded s.cur.slotK = true := by
    rw [allEnded_iff hk]
    intro f hf
    by_cases hfc : f = s.cur.stream
    · have hvsuper : v.superAt v.cur = false := (State.super_of_own hframe.cur hframe.own).trans hsuper
      rw [State.me, State.at, hvsuper, if_neg Bool.false_ne_true, hframe.cur] at hended
      rw [hfc]
      exact hended
    · rw [hframe.streams _ (by simp only [Place.streamK, Place.slotK]; omega)]
      exact hlast f hf hfc
  have hvmode : (v.slot s.cur.slotK).mode = .running := (congrArg Slot.mode hrest :).trans hmode
  have hvengine := onlyStream_engine hframe
  obtain ⟨hcur, hstreams, hmem, hfree, hnone, hsem⟩ := retireTask_frees (s := v) rfl hk ((congrArg Slot.task hrest :).trans htask) hdone hsel
    ((congrArg Slot.faults hrest :).trans hfaults) ((congrArg Slot.delivered hrest :).trans hdelivered)
    (by rw [pausedOf_congr hvengine, hdiv, hpaused]) (harmed.of_engines hvengine)
  rw [hdiv, onlyStream_sem hframe] at hsem
  have hcur' := hcur.trans hframe.cur
  refine ⟨v.retireTask s.cur.slotK, ?_, ⟨hcur', fun f r hf => (hstreams f hf r).1.trans (hregs _ r).1,
    fun f hf => (hstreams f hf 0).2.trans (hregs _ 0).2, fun a => by rw [hmem, onlyStream_mem hframe]⟩, ?_, ?_, ?_, ?_⟩
  · rw [hv, afterEnd, hall, hvmode]
    rfl
  · rw [State.mySlot, hcur', hfree]
  · rw [State.mySlot, hcur', hnone]
  · rw [semOf, hcur', hsem]
    rfl
  · rw [semOf, hcur', hsem]
    rfl

end

/-- Settles O6: END before the last (`end_leaves`) and the last END (`end_retiresTask`). -/
theorem streamsEnd : Obligations.StreamsEnd := by
  refine ⟨?_, ?_⟩
  · rintro s t h hwf hsuper - - htile ⟨f, hf, hne, hlive, -⟩ i (rfl | ⟨rfl, rfl⟩)
    · exact end_leaves (size := 4) h hwf htile hsuper ⟨f, hf, hne, hlive⟩
    · exact end_leaves (size := 2) h hwf htile hsuper ⟨f, hf, hne, hlive⟩
  · intro s t k sel inc h hwf _ hsuper htile hmode htask hdone hsel hfaults hdelivered hpaused harmed hlast
    exact end_retiresTask (size := 4) h hwf htile hsuper hmode htask hdone hsel hfaults hdelivered hpaused harmed hlast

end Sys2Proof.Claims
end

section
/-!
What performing a core's accesses leaves (R173, R176, R211, R346, R367), with reductions on their way or without.

A reduction that meets poison routes an event, which may end in a slot's queue, in a context in memory, or with the host; none of
this touches a stream, a semaphore, an engine or a tile's power (`Routes`, `KeepsPower`).
-/
namespace Sys2Proof.Claims
open Sys2Proof.Machine

/-- Clock, job, heat, and the power of every tile are as they were. -/
structure KeepsPower (s u : State) : Prop where
  clock : u.clock = s.clock
  job : u.hub.job = s.hub.job
  hot : u.hub.hot = s.hub.hot
  powered : ∀ k, (u.tile k).powered = (s.tile k).powered
  flushing : ∀ k, (u.tile k).flushing = (s.tile k).flushing

theorem KeepsPower.refl (s : State) : KeepsPower s s := ⟨rfl, rfl, rfl, fun _ => rfl, fun _ => rfl⟩

theorem KeepsPower.trans {s u v : State} (h : KeepsPower s u) (g : KeepsPower u v) : KeepsPower s v where
  clock := g.clock.trans h.clock
  job := g.job.trans h.job
  hot := g.hot.trans h.hot
  powered k := (g.powered k).trans (h.powered k)
  flushing k := (g.flushing k).trans (h.flushing k)

theorem KeepsPower.of_eq {s u : State} (hclock : u.clock = s.clock) (hhub : (u.hub.job, u.hub.hot) = (s.hub.job, s.hub.hot))
    (htiles : u.tiles = s.tiles) : KeepsPower s u where
  clock := hclock
  job := (congrArg Prod.fst hhub :)
  hot := (congrArg Prod.snd hhub :)
  powered k := by rw [State.tile, htiles, State.tile]
  flushing k := by rw [State.tile, htiles, State.tile]

theorem KeepsPower.of_wakes {s u : State} (h : Wakes s u) : KeepsPower s u where
  clock := (congrArg State.clock h.beyond :)
  job := (congrArg (fun v : State => v.hub.job) h.beyond :)
  hot := (congrArg (fun v : State => v.hub.hot) h.beyond :)
  powered k := (congrArg Tile.powered (h.tiles k) :)
  flushing k := (congrArg Tile.flushing (h.tiles k) :)

theorem setTile_keepsPower {s : State} {t : Nat} {v : Tile} (hpowered : v.powered = (s.tile t).powered) (hflushing : v.flushing = (s.tile t).flushing) :
    KeepsPower s (s.setTile t v) where
  clock := rfl
  job := rfl
  hot := rfl
  powered k := by
    rw [State.tile_setTile]
    split_ifs with hk
    · rw [hpowered, hk]
    · rfl
  flushing k := by
    rw [State.tile_setTile]
    split_ifs with hk
    · rw [hflushing, hk]
    · rfl

theorem foldl_keepsPower {α : Type} {f : State → α → State} (hf : ∀ s a, KeepsPower s (f s a)) (l : List α) (s : State) :
    KeepsPower s (l.foldl f s) := by
  induction l generalizing s with
  | nil => exact .refl s
  | cons a l ih => exact (hf s a).trans (ih (f s a))

/-- A tile without what translations and reductions change of it. -/
def withoutReds (t : Tile) : Tile := { t with tcache := [], rdrop := 0, applied := [], reds := [] }

/-- From `s` to `u` reductions may have been performed and events routed. -/
structure Routes (s u : State) : Prop where
  cur : u.cur = s.cur
  streams : u.streams = s.streams
  cores : u.cores = s.cores
  engines : u.engines = s.engines
  tiles : ∀ k, withoutReds (u.tile k) = withoutReds (s.tile k)
  slots : ∀ k, { u.slot k with fifo := [] } = { s.slot k with fifo := [] }
  keys : ∀ k ∈ s.slots.map (·.1), k ∈ u.slots.map (·.1)
  power : KeepsPower s u

theorem Routes.of_eq {s u : State} (hcur : u.cur = s.cur) (hstreams : u.streams = s.streams) (hslots : u.slots = s.slots)
    (hcores : u.cores = s.cores) (hengines : u.engines = s.engines) (htiles : u.tiles = s.tiles)
    (hpower : KeepsPower s u := by exact .of_eq rfl rfl rfl) : Routes s u where
  cur := hcur
  streams := hstreams
  cores := hcores
  engines := hengines
  tiles k := by rw [State.tile, htiles, State.tile]
  slots k := by rw [State.slot, hslots, State.slot]
  keys k hk := by rwa [hslots]
  power := hpower

theorem Routes.refl (s : State) : Routes s s := .of_eq rfl rfl rfl rfl rfl rfl (.refl s)

theorem Routes.trans {s u v : State} (h : Routes s u) (g : Routes u v) : Routes s v where
  cur := g.cur.trans h.cur
  streams := g.streams.trans h.streams
  cores := g.cores.trans h.cores
  engines := g.engines.trans h.engines
  tiles k := (g.tiles k).trans (h.tiles k)
  slots k := (g.slots k).trans (h.slots k)
  keys k hk := g.keys k (h.keys k hk)
  power := h.power.trans g.power

theorem foldl_routes {α : Type} {f : State → α → State} (hf : ∀ s a, Routes s (f s a)) (l : List α) (s : State) : Routes s (l.foldl f s) := by
  induction l generalizing s with
  | nil => exact .refl s
  | cons a l ih => exact (hf s a).trans (ih (f s a))

theorem setTile_routes {s : State} {t : Nat} {v : Tile} (hv : withoutReds v = withoutReds (s.tile t)) : Routes s (s.setTile t v) where
  cur := rfl
  streams := rfl
  cores := rfl
  engines := rfl
  tiles k := by
    rw [State.tile_setTile]
    split_ifs with hk
    · rw [hv, hk]
    · rfl
  slots _ := rfl
  keys _ hk := hk
  power := setTile_keepsPower (congrArg Tile.powered hv :) (congrArg Tile.flushing hv :)

/-! ### Events (R364, R367, R372) -/

theorem mem_keys_set_of_ne {α : Type} [DecidableEq α] {d v : α} {i k : Nat} {t : Tab α} (hk : k ∈ t.map (·.1)) (hv : v ≠ d) :
    k ∈ (Tab.set d i v t).map (·.1) := by
  by_cases hne : k = i
  · have hget : Tab.get d k (Tab.set d i v t) = v := by rw [hne, Tab.get_set_same]
    by_contra hno
    have hnone : ∀ l : Tab α, k ∉ l.map (·.1) → Tab.get d k l = d := by
      intro l hl
      induction l with
      | nil => rfl
      | cons e l ih =>
        rw [List.map_cons, List.mem_cons, not_or] at hl
        rw [Tab.get, if_neg hl.1, ih hl.2]
    exact hv (hget.symm.trans (hnone _ hno))
  · exact mem_keys_set hk hne

theorem report_routes (s : State) (d : Dest) (e : Event) (t k : Nat) : Routes s (s.report d e t k) := .of_eq rfl rfl rfl rfl rfl rfl

theorem postSlot_routes (s : State) (k : Nat) (e : Event) : Routes s (s.postSlot k e) := by
  unfold State.postSlot
  dsimp only
  split_ifs
  · refine ⟨rfl, rfl, rfl, rfl, fun _ => rfl, fun j => ?_, fun j hj => mem_keys_set_of_ne hj fun hdef => ?_, .of_eq rfl rfl rfl⟩
    · rw [State.slot_soon, State.slot_setSlot]
      split_ifs with hj
      · rw [hj]
      · rfl
    · have hfifo := congrArg (fun v : Slot => v.fifo.length) hdef
      simp at hfifo
  · exact report_routes ..

theorem postSuper_routes (s : State) (tile slot : Nat) (e : Event) : Routes s (s.postSuper tile slot e) := by
  unfold State.postSuper
  split
  · exact postSlot_routes ..
  · exact report_routes ..

theorem fetches_routes {s u : State} (h : Fetches s u) : Routes s u := by
  obtain ⟨⟨ts, rfl⟩, htiles⟩ := h
  exact ⟨rfl, rfl, rfl, rfl, fun k => (congrArg (fun t : Tile => { t with rdrop := 0, applied := [], reds := [] }) (htiles k) :),
    fun _ => rfl, fun _ hk => hk, rfl, rfl, rfl, fun k => (congrArg Tile.powered (htiles k) :), fun k => (congrArg Tile.flushing (htiles k) :)⟩

theorem xlate_fetches (tile key : Nat) (a : Access) (near : Bool) (fuel : Nat) (s : State) (va n : Nat) :
    Fetches s (State.xlate tile key a near fuel s va n).2 := by
  induction fuel generalizing s va n with
  | zero => exact .refl s
  | succ fuel ih =>
    have hone := translate_fetches s tile key va
    unfold State.xlate
    dsimp only
    split
    · rename_i s1 hr
      rw [hr] at hone
      exact hone
    · rename_i e sh s1 hr
      rw [hr] at hone
      rw [apply_ite Prod.snd]
      dsimp only
      split_ifs
      · exact hone
      · exact hone.trans (ih ..)

theorem areaWrite_routes (tile base : Nat) (runs : List (Nat × List Byte)) (s : State) : Routes s (State.areaWrite tile base runs s).2 := by
  induction runs generalizing s with
  | nil => exact .refl s
  | cons r runs ih =>
    obtain ⟨o, bs⟩ := r
    have hone := fetches_routes (xlate_fetches tile (2 ^ 21) .write (decide (tile < 16)) (bs.length / 65536 + 2) s (base + o) bs.length)
    unfold State.areaWrite
    split
    · rename_i segs leaf s1 hr
      rw [hr] at hone
      have hmem : Routes s1 { s1 with mem := writeSegs s1.mem segs bs } := .of_eq rfl rfl rfl rfl rfl rfl
      exact (hone.trans hmem).trans (ih _)
    · exact hone

theorem postTask_routes (s : State) (tile id : Nat) (e : Event) : Routes s (s.postTask tile id e) := by
  unfold State.postTask
  split
  · exact postSlot_routes ..
  · split
    · rename_i h _
      extract_lets n drop
      have hdrop : Routes s drop := report_routes ..
      have harea := areaWrite_routes h.tile h.area.toNat [(0xC80 + 48 * n, eventBytes e), (12, leBytes 4 (n + 1))] s
      split_ifs
      · split
        · rename_i hr
          rw [hr] at harea
          exact harea
        · unfold State.again
          split_ifs
          · exact .refl s
          · exact .of_eq rfl rfl rfl rfl rfl rfl
        · exact hdrop
      · exact hdrop
    · exact postSuper_routes ..

theorem logRouted_routes (s : State) (tile : Nat) (e : Event) : Routes s (s.logRouted tile e) := by
  unfold State.logRouted
  split_ifs
  · exact .of_eq rfl rfl rfl rfl rfl rfl
  · exact .refl s

theorem route_routes (s : State) (tile task : Nat) (e : Event) : Routes s (s.route tile task e) := by
  unfold State.route
  dsimp only
  refine (logRouted_routes s tile e).trans ?_
  split
  · exact postTask_routes ..
  · exact postSuper_routes ..
  · exact .of_eq rfl rfl rfl rfl rfl rfl
  · exact report_routes ..
  · exact .refl _
  · exact report_routes ..

/-! ### Reductions and stores -/

theorem applyReduction_routes (s : State) (tile : Nat) (r : Reduction) : Routes s (s.applyReduction tile r) := by
  unfold State.applyReduction
  dsimp only
  split_ifs
  · exact setTile_routes rfl
  · refine Routes.trans ?_ (route_routes ..)
    exact setTile_routes rfl
  · refine Routes.trans (u := s.setTile tile { s.tile tile with
      applied := Tab.set 0 (redKey r.source r.home) r.number (s.tile tile).applied }) ?_ (.of_eq rfl rfl rfl rfl rfl rfl)
    exact setTile_routes rfl

theorem performWhere_routes (mine : Reduction → Bool) (s : State) (tile : Nat) : Routes s (State.performWhere mine s tile) := by
  refine Routes.trans ?_ (foldl_routes (fun s r => applyReduction_routes s tile r) _ _)
  exact setTile_routes rfl

theorem settleCore_routes (s : State) (k : Nat) : Routes s (s.settleCore k) := by
  obtain ⟨m, ax, hdrain, -⟩ := drainCore_eq s k
  have hdrained : Routes s (s.drainCore k) := by
    rw [hdrain]
    exact .of_eq rfl rfl rfl rfl rfl rfl
  exact hdrained.trans (foldl_routes (performWhere_routes _) _ _)

theorem release_routes (s : State) (scope : Nat) : Routes s (s.release scope) := by
  unfold State.release
  split_ifs
  · exact settleCore_routes s s.cur.coreK
  · exact .refl s

/-! ### What a reader finds -/

section
variable {s u : State} (h : Routes s u)
include h

theorem Routes.at_eq (p : Place) : u.at p = s.at p := by
  have hslot := h.slots p.slotK
  have hregs : (u.slot p.slotK).regs = (s.slot p.slotK).regs := (congrArg Slot.regs hslot :)
  have hsup : (u.slot p.slotK).sup = (s.slot p.slotK).sup := (congrArg Slot.sup hslot :)
  rw [State.at, State.at, State.superAt, State.superAt, hregs, hsup, State.stream, State.stream, h.streams]

theorem Routes.me_eq : u.me = s.me := by
  rw [State.me, h.cur, h.at_eq, State.me]

theorem Routes.sem_eq (tile core sel : Nat) : u.sem tile core sel = s.sem tile core sel := by
  have htile : (u.tile tile).sems = (s.tile tile).sems := (congrArg Tile.sems (h.tiles tile) :)
  simp only [State.sem, State.core, h.cores, htile]

theorem Routes.engine_eq (e : Eng) : u.engine e = s.engine e := by
  cases e with
  | core t c => simp only [State.engine, h.engines]
  | tile t => exact (congrArg Tile.copy (h.tiles t) :)

theorem Routes.xfm_eq (tile e : Nat) : u.xfm tile e = s.xfm tile e := by
  have h0 : (u.tile tile).xfm0 = (s.tile tile).xfm0 := (congrArg Tile.xfm0 (h.tiles tile) :)
  have h1 : (u.tile tile).xfm1 = (s.tile tile).xfm1 := (congrArg Tile.xfm1 (h.tiles tile) :)
  rw [State.xfm, h0, h1, State.xfm]

end

end Sys2Proof.Claims
end

section
/-!
What an operation on a semaphore leaves where copies may be armed on it (R148, R229, R326), and what the end of a copy or of a
transform record leaves (R224, R225, R326).

`Aftermath` holds through the waking itself, which writes no semaphore; `Progress` holds through everything that ends with a
signal, which keeps signaller records and may change values.
-/
namespace Sys2Proof.Claims
open Sys2Proof.Machine

/-! ### Operations and records that come from earlier ones -/

/-- A copy that is another one further on: its number and place, and armed on nothing new. -/
def OpFrom (o o' : CopyOp) : Prop := o'.id = o.id ∧ o'.place = o.place ∧ (o'.armed = o.armed ∨ o'.armed = none)

theorem OpFrom.refl (o : CopyOp) : OpFrom o o := ⟨rfl, rfl, .inl rfl⟩

theorem OpFrom.trans {a b c : CopyOp} (h : OpFrom a b) (g : OpFrom b c) : OpFrom a c :=
  ⟨g.1.trans h.1, g.2.1.trans h.2.1, g.2.2.elim (fun hc => h.2.2.elim (fun hb => .inl (hc.trans hb)) fun hb => .inr (hc.trans hb)) .inr⟩

/-- A record that is another one, its comparison met or not. -/
def RecFrom (o o' : XfmOp) : Prop := o' = o ∨ o' = { o with passed := true }

theorem RecFrom.trans {a b c : XfmOp} (h : RecFrom a b) (g : RecFrom b c) : RecFrom a c := by
  rcases h with rfl | rfl
  · exact g
  · exact .inr (g.elim id id)

theorem RecFrom.ticket_eq {o o' : XfmOp} (h : RecFrom o o') : o'.ticket = o.ticket := by
  rcases h with rfl | rfl <;> rfl

theorem Marked.mem {g g' : Xfm} (h : Marked g g') {o' : XfmOp} (ho : o' ∈ g'.queue) : ∃ o ∈ g.queue, RecFrom o o' := by
  obtain ⟨f, hf, rfl⟩ := h
  obtain ⟨o, hmem, rfl⟩ := List.mem_map.1 ho
  exact ⟨o, hmem, hf o⟩

theorem Marked.ended_eq {g g' : Xfm} (h : Marked g g') : g'.ended = g.ended := by
  obtain ⟨f, -, rfl⟩ := h
  rfl

theorem Marked.status_eq {g g' : Xfm} (h : Marked g g') : g'.status = g.status := by
  obtain ⟨f, -, rfl⟩ := h
  rfl

/-! ### The waking of what waits on a semaphore -/

/-- From `s` to `u` waits, copies and records may have gone on; no semaphore and no stream that waits for nothing has changed. -/
structure Aftermath (s u : State) : Prop where
  cur : u.cur = s.cur
  sem : ∀ tile core n, u.sem tile core n = s.sem tile core n
  xfm : ∀ k e, Marked (s.xfm k e) (u.xfm k e)
  ops : ∀ e, ∀ o' ∈ (u.engine e).ops, ∃ o ∈ (s.engine e).ops, OpFrom o o'
  super : ∀ p, u.superAt p = s.superAt p
  streams : ∀ j, (s.stream j).wait = none → u.stream j = s.stream j
  banks : ∀ k, (s.slot k).sup.wait = none → (u.slot k).sup = (s.slot k).sup
  power : KeepsPower s u

theorem Aftermath.of_wakes {s u : State} (h : Wakes s u) : Aftermath s u :=
  ⟨h.cur_eq, h.sem_eq, h.xfm, fun e o' ho => ⟨o', h.engines e ▸ ho, .refl o'⟩, h.superAt_eq, h.streams, h.banks, .of_wakes h⟩

theorem Aftermath.of_routes {s u : State} (h : Routes s u) : Aftermath s u where
  cur := h.cur
  sem := h.sem_eq
  xfm k e := .of_eq (h.xfm_eq k e)
  ops e o' ho := ⟨o', h.engine_eq e ▸ ho, .refl o'⟩
  super p := by
    have hregs : (u.slot p.slotK).regs = (s.slot p.slotK).regs := (congrArg Slot.regs (h.slots p.slotK) :)
    rw [State.superAt, hregs, State.superAt]
  streams j _ := by rw [State.stream, h.streams, State.stream]
  banks k _ := (congrArg Slot.sup (h.slots k) :)
  power := h.power

theorem Aftermath.refl (s : State) : Aftermath s s := .of_wakes (.refl s)

theorem Aftermath.trans {s u v : State} (h : Aftermath s u) (g : Aftermath u v) : Aftermath s v where
  cur := g.cur.trans h.cur
  sem a b c := (g.sem a b c).trans (h.sem a b c)
  xfm k e := (h.xfm k e).trans (g.xfm k e)
  ops e o'' ho'' := by
    obtain ⟨o', ho', hfrom'⟩ := g.ops e o'' ho''
    obtain ⟨o, ho, hfrom⟩ := h.ops e o' ho'
    exact ⟨o, ho, hfrom.trans hfrom'⟩
  super p := (g.super p).trans (h.super p)
  streams j hj := by
    have hu := h.streams j hj
    exact (g.streams j (by rw [hu, hj])).trans hu
  banks k hk := by
    have hu := h.banks k hk
    exact (g.banks k (by rw [hu, hk])).trans hu
  power := h.power.trans g.power

theorem foldl_aftermath {α : Type} {f : State → α → State} (hf : ∀ s a, Aftermath s (f s a)) (l : List α) (s : State) :
    Aftermath s (l.foldl f s) := by
  induction l generalizing s with
  | nil => exact .refl s
  | cons a l ih => exact (hf s a).trans (ih (f s a))

theorem engine_setEngine_same (s : State) (e : Eng) (v : Engine) : (s.setEngine e v).engine e = v := by
  cases e with
  | core t c => exact Tab.get_set_same ..
  | tile t => simp only [State.setEngine, State.engine, State.tile_setTile, if_true]

/-- After an engine is written, an engine read is that one or as it was. -/
theorem engine_setEngine_or (s : State) (e e' : Eng) (v : Engine) :
    (s.setEngine e v).engine e' = v ∧ s.engine e' = s.engine e ∨ (s.setEngine e v).engine e' = s.engine e' := by
  cases e with
  | core t c =>
    cases e' with
    | core t' c' =>
      simp only [State.setEngine, State.engine, Tab.get_set]
      split_ifs with hk
      · rw [hk]
        exact .inl ⟨rfl, rfl⟩
      · exact .inr rfl
    | tile t' => exact .inr rfl
  | tile t =>
    cases e' with
    | core t' c' => exact .inr rfl
    | tile t' =>
      simp only [State.setEngine, State.engine, State.tile_setTile]
      split_ifs with hk
      · rw [hk]
        exact .inl ⟨rfl, rfl⟩
      · exact .inr rfl

/-- An engine written with operations that come from its own. -/
theorem setEngine_aftermath {s : State} {e : Eng} {v : Engine} (hv : ∀ o' ∈ v.ops, ∃ o ∈ (s.engine e).ops, OpFrom o o') :
    Aftermath s (s.setEngine e v) where
  cur := by cases e <;> rfl
  sem tile core n := by
    cases e with
    | core t c => rfl
    | tile t =>
      simp only [State.setEngine, State.sem, State.tile_setTile]
      split_ifs with hn hk
      · rfl
      · rw [hk]
      · rfl
  xfm k x := by
    cases e with
    | core t c => exact .refl _
    | tile t =>
      refine .of_eq ?_
      simp only [State.setEngine, State.xfm, State.tile_setTile]
      split_ifs with hx hk hk
      · rw [hk]
      · rfl
      · rw [hk]
      · rfl
  ops e' o' ho' := by
    rcases engine_setEngine_or s e e' v with ⟨hnew, hold⟩ | hsame
    · rw [hnew] at ho'
      rw [hold]
      exact hv o' ho'
    · rw [hsame] at ho'
      exact ⟨o', ho', .refl o'⟩
  super p := by cases e <;> rfl
  streams j _ := by cases e <;> rfl
  banks k _ := by cases e <;> rfl
  power := by
    cases e with
    | core t c => exact .of_eq rfl rfl rfl
    | tile t => exact setTile_keepsPower rfl rfl

theorem later_aftermath (s : State) (d : Due) : Aftermath s (s.later d) := .of_wakes (.of_turns s _)

theorem wakeCopies_aftermath (s : State) (e : Eng) (tile core sel : Nat) : Aftermath s (s.wakeCopies e tile core sel) := by
  unfold State.wakeCopies
  extract_lets g hit ids s0 s1
  have hsettle : Routes s s0 := foldl_routes (fun s (o : CopyOp) => settleCore_routes s o.place.coreK) _ s
  have hstart : Aftermath s0 s1 := by
    refine setEngine_aftermath fun o' ho' => ?_
    obtain ⟨o, ho, rfl⟩ := List.mem_map.1 ho'
    refine ⟨o, ?_, ?_⟩
    · rw [hsettle.engine_eq]
      exact ho
    · split_ifs
      · exact ⟨rfl, rfl, .inr rfl⟩
      · exact .refl o
  exact ((Aftermath.of_routes hsettle).trans hstart).trans (foldl_aftermath (fun s i => later_aftermath s _) ids s1)

theorem semWake_aftermath (s : State) (tile core sel : Nat) : Aftermath s (s.semWake tile core sel) := by
  have hpass := passRecords_wakes s tile core sel
  have hnudge := hpass.trans (nudge_wakes (s.passRecords tile core sel) tile)
  have hwaits := hnudge.trans (foldl_wakes (wake1_wakes tile core sel) ((s.passRecords tile core sel).waiters tile core sel) _)
  have hcopies := (Aftermath.of_wakes hwaits).trans (foldl_aftermath (fun s e => wakeCopies_aftermath s e tile core sel)
    (Eng.tile tile :: (if sel < 64 then [Eng.core tile core] else (List.range 8).map (Eng.core tile))) _)
  exact hcopies.trans (.of_wakes (.of_lends (relend_lends _ tile)))

section
variable {s u : State} (h : Aftermath s u)
include h

theorem Aftermath.at_eq {p : Place} (hp : (s.at p).wait = none) : u.at p = s.at p := by
  rw [State.at] at hp
  rw [State.at, State.at, h.super]
  split_ifs at hp ⊢
  · exact h.banks _ hp
  · exact h.streams _ hp

end

/-! ### Everything that ends with a signal -/

/-- From `s` to `u` copies and records may have ended and signalled. -/
structure Progress (s u : State) : Prop where
  cur : u.cur = s.cur
  sig : ∀ tile core n, (u.sem tile core n).sig = (s.sem tile core n).sig
  records : ∀ k e, ∀ o' ∈ (u.xfm k e).queue, ∃ o ∈ (s.xfm k e).queue, RecFrom o o'
  ops : ∀ e, ∀ o' ∈ (u.engine e).ops, ∃ o ∈ (s.engine e).ops, OpFrom o o'
  super : ∀ p, u.superAt p = s.superAt p
  streams : ∀ j, (s.stream j).wait = none → u.stream j = s.stream j
  banks : ∀ k, (s.slot k).sup.wait = none → (u.slot k).sup = (s.slot k).sup
  power : KeepsPower s u

theorem Progress.of_aftermath {s u : State} (h : Aftermath s u) : Progress s u :=
  ⟨h.cur, fun a b c => congrArg Sem.sig (h.sem a b c), fun k e _ ho => (h.xfm k e).mem ho, h.ops, h.super, h.streams, h.banks, h.power⟩

theorem Progress.refl (s : State) : Progress s s := .of_aftermath (.refl s)

theorem Progress.trans {s u v : State} (h : Progress s u) (g : Progress u v) : Progress s v where
  cur := g.cur.trans h.cur
  sig a b c := (g.sig a b c).trans (h.sig a b c)
  records k e o'' ho'' := by
    obtain ⟨o', ho', hfrom'⟩ := g.records k e o'' ho''
    obtain ⟨o, ho, hfrom⟩ := h.records k e o' ho'
    exact ⟨o, ho, hfrom.trans hfrom'⟩
  ops e o'' ho'' := by
    obtain ⟨o', ho', hfrom'⟩ := g.ops e o'' ho''
    obtain ⟨o, ho, hfrom⟩ := h.ops e o' ho'
    exact ⟨o, ho, hfrom.trans hfrom'⟩
  super p := (g.super p).trans (h.super p)
  streams j hj := by
    have hu := h.streams j hj
    exact (g.streams j (by rw [hu, hj])).trans hu
  banks k hk := by
    have hu := h.banks k hk
    exact (g.banks k (by rw [hu, hk])).trans hu
  power := h.power.trans g.power

theorem foldl_progress {α : Type} {f : State → α → State} (hf : ∀ s a, Progress s (f s a)) (l : List α) (s : State) :
    Progress s (l.foldl f s) := by
  induction l generalizing s with
  | nil => exact .refl s
  | cons a l ih => exact (hf s a).trans (ih (f s a))

section
variable {s u : State} (h : Progress s u)
include h

theorem Progress.at_eq {p : Place} (hp : (s.at p).wait = none) : u.at p = s.at p := by
  rw [State.at] at hp
  rw [State.at, State.at, h.super]
  split_ifs at hp ⊢
  · exact h.banks _ hp
  · exact h.streams _ hp

theorem Progress.me_eq (hme : s.me.wait = none) : u.me = s.me := by
  rw [State.me, h.cur]
  exact h.at_eq hme

end

theorem xfm_setSem (s : State) (tile core n : Nat) (v : Sem) (k e : Nat) : (s.setSem tile core n v).xfm k e = s.xfm k e := by
  unfold State.setSem
  split_ifs
  · rfl
  · simp only [State.xfm, State.tile_setTile]
    split_ifs with he hk hk
    · rw [hk]
    · rfl
    · rw [hk]
    · rfl

/-- Semaphores keep their signaller records where one is written with its own. -/
theorem sig_setSem {s : State} {tile core n : Nat} {v : Sem} (hv : v.sig = (s.sem tile core n).sig) (tile' core' m : Nat) :
    ((s.setSem tile core n v).sem tile' core' m).sig = (s.sem tile' core' m).sig := by
  unfold State.setSem State.sem
  unfold State.sem at hv
  by_cases hn : n < 64
  · rw [if_pos hn] at hv ⊢
    split_ifs with hm
    · simp only [State.setCore, State.core, Tab.get_set]
      split_ifs with hk
      · rw [Tab.get_set]
        split_ifs with hmn
        · rw [hv, hmn, hk, State.core]
        · rw [hk]
      · rfl
    · rfl
  · rw [if_neg hn] at hv ⊢
    split_ifs with hm
    · rfl
    · simp only [State.setTile, State.tile, Tab.get_set]
      split_ifs with hk
      · rw [Tab.get_set]
        split_ifs with hmn
        · rw [hv, hmn, hk, State.tile]
        · rw [hk]
      · rfl

theorem setSem_progress {s : State} {tile core n : Nat} {v : Sem} (hv : v.sig = (s.sem tile core n).sig) :
    Progress s (s.setSem tile core n v) where
  cur := cur_setSem ..
  sig := sig_setSem hv
  records k e o' ho' := ⟨o', xfm_setSem s tile core n v k e ▸ ho', .inl rfl⟩
  ops e o' ho' := ⟨o', engine_setSem s tile core n v e ▸ ho', .refl o'⟩
  super := superAt_setSem s tile core n v
  streams j _ := stream_setSem ..
  banks k _ := by rw [State.slot, slots_setSem, State.slot]
  power := by
    unfold State.setSem
    split_ifs
    · exact .of_eq rfl rfl rfl
    · exact setTile_keepsPower rfl rfl

theorem semSet_progress (s : State) (tile core n : Nat) (v : BitVec 32) : Progress s (s.semSet tile core n v) := by
  have hset : Progress s (s.setSem tile core n { s.sem tile core n with v := v }) := setSem_progress rfl
  rw [State.semSet]
  exact hset.trans (.of_aftermath (semWake_aftermath ..))

theorem semAdd_progress (s : State) (tile core n : Nat) (a : BitVec 32) : Progress s (s.semAdd tile core n a) := semSet_progress ..

/-- A transform engine after an operation on a semaphore. -/
theorem semAdd_xfm (s : State) (tile core n : Nat) (a : BitVec 32) (k e : Nat) : Marked (s.xfm k e) ((s.semAdd tile core n a).xfm k e) := by
  have hwake := (semWake_aftermath (s.setSem tile core n { s.sem tile core n with v := (s.sem tile core n).v + a }) tile core n).xfm k e
  rw [xfm_setSem] at hwake
  exact hwake

/-- A state that differs in memory, poison and the model's own counters. -/
theorem Progress.of_eq {s u : State} (hcur : u.cur = s.cur) (hcores : u.cores = s.cores) (htiles : u.tiles = s.tiles)
    (hengines : u.engines = s.engines) (hslots : u.slots = s.slots) (hstreams : u.streams = s.streams)
    (hpower : KeepsPower s u := by exact .of_eq rfl rfl rfl) : Progress s u :=
  .of_aftermath (.of_routes (.of_eq hcur hstreams hslots hcores hengines htiles hpower))

/-! ### A copy that ends (R224, R225) -/

theorem closeCopy_progress (s : State) (e : Eng) (o : CopyOp) (status : Nat) :
    Progress s (s.closeCopy e o status) ∧ ∀ o' ∈ ((s.closeCopy e o status).engine e).ops, o'.id ≠ o.id := by
  unfold State.closeCopy
  extract_lets g s1 s2 s3
  have hdrop : Progress s s1 := .of_aftermath (setEngine_aftermath fun o' ho' => ⟨o', (List.mem_filter.1 ho').1, .refl o'⟩)
  have hstatus : Progress s1 s2 := by
    simp only [s2, State.writeStatus]
    split
    · exact .refl s1
    · exact .of_eq rfl rfl rfl rfl rfl rfl
  have hfree : Progress s2 s3 := by
    simp only [s3]
    split_ifs
    · exact semAdd_progress ..
    · exact .refl s2
  have hdone : Progress s3 (if o.pat.dvv then s3.semAdd o.place.tile o.place.core o.pat.dvsel o.pat.dvinc else s3) := by
    split_ifs
    · exact semAdd_progress ..
    · exact .refl s3
  have hafter := (hstatus.trans hfree).trans hdone
  refine ⟨hdrop.trans hafter, fun o' ho' => ?_⟩
  obtain ⟨x, hx, hfrom⟩ := hafter.ops e o' ho'
  simp only [s1, engine_setEngine_same] at hx
  rw [hfrom.1]
  exact of_decide_eq_true (List.mem_filter.1 hx).2

/-- Copies of an engine that end one after another. -/
theorem foldl_closeCopy (e : Eng) (status : Nat) (l : List CopyOp) (s : State) :
    let u := l.foldl (fun s o => s.closeCopy e o status) s
    Progress s u ∧ ∀ o ∈ l, ∀ o' ∈ (u.engine e).ops, o'.id ≠ o.id := by
  induction l generalizing s with
  | nil => exact ⟨.refl s, fun _ h => absurd h List.not_mem_nil⟩
  | cons x l ih =>
    obtain ⟨hone, hgone⟩ := closeCopy_progress s e x status
    obtain ⟨hrest, hothers⟩ := ih (s.closeCopy e x status)
    refine ⟨hone.trans hrest, fun o ho o' ho' => ?_⟩
    rcases List.mem_cons.1 ho with rfl | ho
    · obtain ⟨y, hy, hfrom⟩ := hrest.ops e o' ho'
      rw [hfrom.1]
      exact hgone y hy
    · exact hothers o ho o' ho'

/-! ### A record that ends (R326) -/

/-- A transform engine after the record of a ticket has ended with a status. -/
def ended (g : Xfm) (ticket st : Nat) : Xfm :=
  { g with
    queue := g.queue.filter (fun x => x.ticket ≠ ticket), ended := g.ended + 1
    status := g.status.map (fun x => if x.1 = ticket then (x.1, st) else x) }

theorem xfm_setXfm_same (s : State) (tile e : Nat) (g : Xfm) : (s.setXfm tile e g).xfm tile e = g := by
  simp only [State.xfm, State.setXfm, State.tile_setTile, if_true]
  split_ifs <;> rfl

theorem xfm_setXfm_or (s : State) (tile e : Nat) (g : Xfm) (k x : Nat) :
    (s.setXfm tile e g).xfm k x = g ∧ s.xfm k x = s.xfm tile e ∨ (s.setXfm tile e g).xfm k x = s.xfm k x := by
  simp only [State.xfm, State.setXfm, State.tile_setTile]
  by_cases hk : k = tile
  · subst hk
    by_cases he : e = 0 <;> by_cases hx : x = 0 <;> simp [he, hx]
  · simp [hk]

theorem sem_setXfm (s : State) (tile e : Nat) (g : Xfm) (t c n : Nat) : (s.setXfm tile e g).sem t c n = s.sem t c n := by
  have hsems : ((s.setXfm tile e g).tile t).sems = (s.tile t).sems := by
    rw [State.setXfm, State.tile_setTile]
    by_cases ht : t = tile
    · rw [if_pos ht, ht]
      split_ifs <;> rfl
    · rw [if_neg ht]
  rw [State.sem, hsems, State.sem]
  rfl

theorem engine_setXfm (s : State) (tile e : Nat) (g : Xfm) (x : Eng) : (s.setXfm tile e g).engine x = s.engine x := by
  refine engine_setTile_copy ?_ x
  split_ifs <;> rfl

theorem setXfm_progress {s : State} {tile e : Nat} {g : Xfm} (hg : ∀ o' ∈ g.queue, ∃ o ∈ (s.xfm tile e).queue, RecFrom o o') :
    Progress s (s.setXfm tile e g) where
  cur := rfl
  sig t c n := congrArg Sem.sig (sem_setXfm ..)
  records k x o' ho' := by
    rcases xfm_setXfm_or s tile e g k x with ⟨hnew, hold⟩ | hsame
    · rw [hnew] at ho'
      rw [hold]
      exact hg o' ho'
    · rw [hsame] at ho'
      exact ⟨o', ho', .inl rfl⟩
  ops x o' ho' := ⟨o', engine_setXfm s tile e g x ▸ ho', .refl o'⟩
  super _ := rfl
  streams _ _ := rfl
  banks _ _ := rfl
  power := by
    refine setTile_keepsPower ?_ ?_ <;> split_ifs <;> rfl

theorem once_wakes (s : State) (d : Due) : Wakes s (s.once d) := by
  obtain ⟨ts, hts⟩ := once_turns s d
  rw [hts]
  exact .of_turns s ts

theorem onceIf_wakes (c : Bool) (s : State) (d : Due) : Wakes s (if c then s.once d else s) := by
  split_ifs
  · exact once_wakes ..
  · exact .refl s

/-- The state in which an ended record sends its signal: its queue without it, STATUS, OUTSZ and SATC written. -/
def recordEnded (s : State) (tile e : Nat) (o : XfmOp) (st outsz satc : Nat) : State :=
  let s1 := s.setXfm tile e (ended (s.xfm tile e) o.ticket st)
  let a := spaceAddr o.place 1 o.recOff
  { s1 with mem := ((s1.mem.writeNat (a + 44) 4 st).writeNat (a + 48) 4 outsz).writeNat (a + 52) 4 satc }

theorem xfmEnd_eq (s : State) (tile e : Nat) (o : XfmOp) (st outsz satc : Nat) :
    s.xfmEnd tile e o st outsz satc =
      let s2 := recordEnded s tile e o st outsz satc
      let s3 := if bitN o.ssel 15 then s2.semAdd tile o.place.core (o.ssel % 512) o.sinc else s2
      if (s3.xfm tile e).idle then s3.once (.xfmRecordStart tile e) else s3 := rfl

theorem recordEnded_progress (s : State) (tile e : Nat) (o : XfmOp) (st outsz satc : Nat) :
    Progress s (recordEnded s tile e o st outsz satc) := by
  refine Progress.trans (u := s.setXfm tile e (ended (s.xfm tile e) o.ticket st)) ?_ (.of_eq rfl rfl rfl rfl rfl rfl)
  exact setXfm_progress fun o' ho' => ⟨o', (List.mem_filter.1 ho').1, .inl rfl⟩

theorem xfmEnd_progress (s : State) (tile e : Nat) (o : XfmOp) (st outsz satc : Nat) :
    Progress s (s.xfmEnd tile e o st outsz satc) ∧
      Marked (ended (s.xfm tile e) o.ticket st) ((s.xfmEnd tile e o st outsz satc).xfm tile e) := by
  rw [xfmEnd_eq]
  have hend := recordEnded_progress s tile e o st outsz satc
  have hxfm : (recordEnded s tile e o st outsz satc).xfm tile e = ended (s.xfm tile e) o.ticket st := xfm_setXfm_same ..
  set s2 := recordEnded s tile e o st outsz satc
  dsimp only
  have hsignal : Progress s2 (if bitN o.ssel 15 then s2.semAdd tile o.place.core (o.ssel % 512) o.sinc else s2) ∧
      Marked (s2.xfm tile e) ((if bitN o.ssel 15 then s2.semAdd tile o.place.core (o.ssel % 512) o.sinc else s2).xfm tile e) := by
    split_ifs
    · exact ⟨semAdd_progress .., semAdd_xfm ..⟩
    · exact ⟨.refl s2, .refl _⟩
  set s3 := if bitN o.ssel 15 then s2.semAdd tile o.place.core (o.ssel % 512) o.sinc else s2
  have hlast := onceIf_wakes (s3.xfm tile e).idle s3 (.xfmRecordStart tile e)
  exact ⟨(hend.trans hsignal.1).trans (.of_aftermath (.of_wakes hlast)), hxfm ▸ hsignal.2.trans (hlast.xfm tile e)⟩

end Sys2Proof.Claims
end

section
/-!
O41, the tickets of a transform engine: XWAIT, XQRY, XABT and XABT.Q (R326, R327).

A record that is stopped has its output in part or not at all, and ends (`xfmStop_progress`); `foldl_xfmStop` stops a whole queue.
-/
namespace Sys2Proof.Claims
open Sys2Proof.Machine

/-! ### Numbers in memory -/

theorem length_leBytes (n v : Nat) : (leBytes n v).length = n := by
  induction n generalizing v with
  | zero => rfl
  | succ n ih => rw [leBytes, List.length_cons, ih]

theorem leNat_leBytes (n v : Nat) : leNat (leBytes n v) = v % 256 ^ n := by
  induction n generalizing v with
  | zero => rw [leBytes, leNat, Nat.pow_zero, Nat.mod_one]
  | succ n ih =>
    have hmul : v % (256 * 256 ^ n) = v % 256 + 256 * (v / 256 % 256 ^ n) := Nat.mod_mul
    rw [leBytes, leNat, ih, BitVec.toNat_ofNat, Nat.pow_succ' (m := 256), hmul]

/-- What was written last at an address is read there. -/
theorem readNat_writeNat_same (m : Memory) (a n v : Nat) : (m.writeNat a n v).readNat a n = v % 256 ^ n := by
  have hbytes : (m.writeBytes a (leBytes n v)).readBytes a n = leBytes n v := by
    rw [Memory.readBytes_eq]
    refine List.ext_getElem (by rw [List.length_map, List.length_range, length_leBytes]) fun i hi _ => ?_
    rw [List.length_map, List.length_range] at hi
    rw [List.getElem_map, List.getElem_range, Memory.readByte_writeBytes_in _ _ _ _ (by rwa [length_leBytes]),
      List.getD_eq_getElem _ _ (by rwa [length_leBytes])]
  rw [Memory.readNat, Memory.writeNat, hbytes, leNat_leBytes]

/-- A number written elsewhere changes no other. -/
theorem readNat_writeNat_other (m : Memory) {a n v b k : Nat} (h : b + k ≤ a ∨ a + n ≤ b) :
    (m.writeNat a n v).readNat b k = m.readNat b k := by
  rw [Memory.readNat, Memory.readNat, Memory.readBytes_eq, Memory.readBytes_eq]
  refine congrArg leNat (List.map_congr_left fun i hi => ?_)
  rw [List.mem_range] at hi
  exact Memory.readByte_writeBytes_out _ _ _ _ (by rw [length_leBytes]; omega)

/-! ### Words that take no EXT and retire -/

theorem SameControl.symm {a b : Stream} (h : SameControl a b) : SameControl b a :=
  ⟨h.fpflags.symm, h.vlen.symm, h.ended.symm, h.pc.symm, h.block.symm⟩

theorem issue_retires {size : Nat} {t : Tack} {body : State → Eff} {s s2 : State} {x : Reg → Word} (h : Ready s t)
    (hb : body ((withoutExt s).popped t) = .done s2) (hcur : s2.cur = s.cur) (hx : ∀ r, s2.x r = x r) (hctl : SameControl s.me s2.me) :
    ∃ u, issue size t body s = .next u ∧ OnlyStream s2 u ∧ Sequential s u size x 0 := by
  obtain ⟨u, hu, hframe, hseq⟩ := issueX_retires (size := size) (ready_withoutExt h) hb (hcur.trans (cur_withoutExt s).symm) hx
    ((withoutExt_control s).symm.trans hctl)
  exact ⟨u, hu, hframe, sequential_of_withoutExt hseq⟩

theorem issue_withoutExt (size : Nat) (t : Tack) (body : State → Eff) (s : State) :
    issue size t body s = issueX size t body (withoutExt s) := rfl

theorem bodyStart_me (s : State) (t : Tack) : ((withoutExt s).popped t).me = { s.me with ext := none } :=
  (State.me_popped ..).trans (me_withoutExt s)

/-! ### What an engine remembers (R327) -/

theorem xfmStatus_eq (s : State) (v : Word) :
    s.xfmStatus v = ((s.xfm s.cur.tile (v.toNat / 2 ^ 32 % 2)).status.find? (fun x => decide (x.1 = v.toNat % 2 ^ 32))).map (fun x => x.2) := by
  simp only [State.xfmStatus, bits, Nat.pow_zero, Nat.div_one, Nat.pow_one]

theorem onlyStream_xfm {s v : State} (hv : OnlyStream s v) (k e : Nat) : v.xfm k e = s.xfm k e := (congrArg (State.xfm · k e) hv.outside :)

theorem onlyStream_xfmStatus {s v : State} (hv : OnlyStream s v) (w : Word) : v.xfmStatus w = s.xfmStatus w :=
  (congrArg (State.xfmStatus · w) hv.outside :)

theorem exec_xwait (d a : Reg) (t : Tack) (s : State) : exec (.xwait d a t) s = execXwait d a t s := rfl
theorem exec_xqry (d a : Reg) (f : BitVec 3) (t : Tack) (s : State) : exec (.xqry d a f t) s = execXqry d a f t s := rfl
theorem exec_xabt (a : Reg) (t : Tack) (s : State) : exec (.xabt a t) s = execXabt a t s := rfl

section
variable {s : State} {t : Tack} {d a : Reg} (h : Ready s t)
include h

theorem xwait_forgotten (hknown : s.xfmStatus (s.x a) = none) : WritesReg (.xwait d a t) s 4 d (BitVec.allOnes 64) := by
  rw [WritesReg, exec_xwait, execXwait]
  refine issue_writes h ?_
  simp only [State.x_popped, x_withoutExt, onlyStream_xfmStatus (bodyStart_frame s t), hknown]

theorem xwait_ended {n : Nat} (hn : n ≠ 0) (hknown : s.xfmStatus (s.x a) = some n) : WritesReg (.xwait d a t) s 4 d (BitVec.ofNat 64 n) := by
  rw [WritesReg, exec_xwait, execXwait]
  refine issue_writes h ?_
  obtain ⟨k, rfl⟩ := Nat.exists_eq_succ_of_ne_zero hn
  simp only [State.x_popped, x_withoutExt, onlyStream_xfmStatus (bodyStart_frame s t), hknown]

theorem xwait_waits (hknown : s.xfmStatus (s.x a) = some 0) :
    ∃ u, exec (.xwait d a t) s = .next u ∧ OnlyStream s u ∧ (∀ r, u.x r = s.x r) ∧ u.me.pc = s.me.pc := by
  have hstart := bodyStart_frame s t
  obtain ⟨u, hu, hframe, hx, hpc, -⟩ : ∃ u, execXwait d a t s = .next u ∧ OnlyStream ((withoutExt s).popped t) u ∧
      (∀ r, u.x r = ((withoutExt s).popped t).x r) ∧ u.me.pc = ((withoutExt s).popped t).me.pc ∧ _ := by
    rw [execXwait, issue_withoutExt]
    refine issueX_waits (stall := false) (ready_withoutExt h) ?_ (State.cur_popped ..)
    simp only [State.x_popped, x_withoutExt, onlyStream_xfmStatus hstart, hknown]
  exact ⟨u, hu, hstart.trans hframe, fun r => by rw [hx, State.x_popped, x_withoutExt], hpc.trans (congrArg Stream.pc (bodyStart_me s t) :)⟩

theorem xqry_reads (f : BitVec 3) :
    WritesReg (.xqry d a f t) s 4 d (
      if f = 0 then (match s.xfmStatus (s.x a) with | none => BitVec.allOnes 64 | some n => BitVec.ofNat 64 n)
      else if f = 1 then BitVec.ofNat 64 (s.xfm s.cur.tile (bits (s.x a) 32 1)).queue.length
      else if f = 2 then (s.xfm s.cur.tile (bits (s.x a) 32 1)).ended.setWidth 64 else 0) := by
  rw [WritesReg, exec_xqry, execXqry]
  refine issue_writes h ?_
  have hstart := bodyStart_frame s t
  simp only [State.x_popped, x_withoutExt, State.cur_popped, cur_withoutExt, onlyStream_xfmStatus hstart, onlyStream_xfm hstart]
  congr 2
  have hf (n : BitVec 3) : f = n ↔ f.toNat = n.toNat := ⟨congrArg _, BitVec.eq_of_toNat_eq⟩
  simp only [hf]
  split
  · rename_i h0
    exact (if_pos (by rw [h0]; rfl)).symm
  · rename_i h1
    rw [if_neg (by rw [h1]; decide), if_pos (by rw [h1]; rfl)]
  · rename_i h2
    rw [if_neg (by rw [h2]; decide), if_neg (by rw [h2]; decide), if_pos (by rw [h2]; rfl)]
  · rename_i h0 h1 h2
    exact ((if_neg h0).trans ((if_neg h1).trans (if_neg h2))).symm

end

/-! ### A record stopped (R326, R327) -/

theorem xfmUnit_eq (ply : Bool) (u : List (Nat × Nat × Nat)) (s : State) :
    ∃ m p, State.xfmUnit ply s u = { s with mem := m, poison := p } := by
  unfold State.xfmUnit
  induction u generalizing s with
  | nil => exact ⟨s.mem, s.poison, rfl⟩
  | cons w u ih =>
    cases ply with
    | true =>
      obtain ⟨m, p, h⟩ := ih (State.clearPoison { s with mem := s.mem.writeBits w.1 w.2.1 w.2.2 } [(w.1 / 8, w.2.1 / 8)])
      exact ⟨m, p, h⟩
    | false =>
      obtain ⟨m, p, h⟩ := ih { s with mem := s.mem.writeBits w.1 w.2.1 w.2.2 }
      exact ⟨m, p, h⟩

theorem xfmWrites_eq (s : State) (r : XfmResult) (b : Bool) : ∃ m p f, (s.xfmWrites r b).2 = { s with mem := m, poison := p, free := f } := by
  have hfold (l : List (List (Nat × Nat × Nat) × Nat)) (s : State) :
      ∃ m p, l.foldl (fun s u => State.xfmUnit r.ply s u.1) s = { s with mem := m, poison := p } := by
    induction l generalizing s with
    | nil => exact ⟨s.mem, s.poison, rfl⟩
    | cons u l ih =>
      obtain ⟨m, p, hu⟩ := xfmUnit_eq r.ply u.1 s
      rw [List.foldl_cons, hu]
      obtain ⟨m', p', h⟩ := ih { s with mem := m, poison := p }
      exact ⟨m', p', h⟩
  obtain ⟨m, p, h⟩ := hfold (s.xfmKept r b) s
  unfold State.xfmWrites
  dsimp only
  rw [h]
  split_ifs
  · exact ⟨m, p, _, rfl⟩
  · exact ⟨m, p, s.free, rfl⟩

/-- The status of a record that is stopped. -/
def stopStatus (o : XfmOp) : Nat := if o.started then 6 else 2

/-- A record that is stopped ends in a state that differs in memory, with a status and counts. -/
theorem xfmStop_eq (s : State) (tile e : Nat) (o : XfmOp) :
    ∃ m p f outsz satc, s.xfmStop tile e o = ({ s with mem := m, poison := p, free := f } : State).xfmEnd tile e o (stopStatus o) outsz satc ∧
      (o.started = false → outsz = 0 ∧ satc = 0) := by
  unfold State.xfmStop stopStatus
  split_ifs with hstarted
  · obtain ⟨m, p, f, hw⟩ := xfmWrites_eq s (s.xfmResult o) true
    dsimp only
    rw [hw]
    exact ⟨m, p, f, _, _, rfl, fun hno => absurd (hstarted.symm.trans hno) Bool.noConfusion⟩
  · exact ⟨s.mem, s.poison, s.free, 0, 0, rfl, fun _ => ⟨rfl, rfl⟩⟩

theorem xfmStop_progress (s : State) (tile e : Nat) (o : XfmOp) :
    Progress s (s.xfmStop tile e o) ∧ Marked (ended (s.xfm tile e) o.ticket (stopStatus o)) ((s.xfmStop tile e o).xfm tile e) := by
  obtain ⟨m, p, f, outsz, satc, hstop, -⟩ := xfmStop_eq s tile e o
  obtain ⟨hend, hxfm⟩ := xfmEnd_progress { s with mem := m, poison := p, free := f } tile e o (stopStatus o) outsz satc
  rw [hstop]
  exact ⟨Progress.trans (u := { s with mem := m, poison := p, free := f }) (.of_eq rfl rfl rfl rfl rfl rfl) hend, hxfm⟩

/-- Tickets with an end: no record of them is queued, and their status is 2 or 6. -/
def Stopped (g : Xfm) (k : Nat) : Prop := (∀ x ∈ g.queue, x.ticket ≠ k) ∧ ∀ x ∈ g.status, x.1 = k → x.2 = 2 ∨ x.2 = 6

theorem Stopped.marked {g g' : Xfm} {k : Nat} (h : Stopped g k) (hm : Marked g g') : Stopped g' k := by
  refine ⟨fun x hx => ?_, by rw [hm.status_eq]; exact h.2⟩
  obtain ⟨o, ho, hfrom⟩ := hm.mem hx
  rw [hfrom.ticket_eq]
  exact h.1 o ho

theorem stopStatus_cases (o : XfmOp) : stopStatus o = 2 ∨ stopStatus o = 6 := by
  unfold stopStatus
  split_ifs
  · exact .inr rfl
  · exact .inl rfl

theorem stopped_ended_same (g : Xfm) (o : XfmOp) : Stopped (ended g o.ticket (stopStatus o)) o.ticket := by
  refine ⟨fun x hx => of_decide_eq_true (List.mem_filter.1 hx).2, fun x hx hxk => ?_⟩
  obtain ⟨y, -, rfl⟩ := List.mem_map.1 hx
  revert hxk
  split_ifs with hy
  · exact fun _ => stopStatus_cases o
  · exact fun hxk => absurd hxk hy

theorem stopped_ended_other {g : Xfm} {k : Nat} (h : Stopped g k) (o : XfmOp) : Stopped (ended g o.ticket (stopStatus o)) k := by
  refine ⟨fun x hx => h.1 x (List.mem_filter.1 hx).1, fun x hx hxk => ?_⟩
  obtain ⟨y, hy, rfl⟩ := List.mem_map.1 hx
  revert hxk
  split_ifs with hyo
  · exact fun _ => stopStatus_cases o
  · exact fun hxk => h.2 y hy hxk

/-- Records of an engine stopped one after another. -/
theorem foldl_xfmStop (tile e : Nat) (l : List XfmOp) (s : State) :
    let u := l.foldl (fun s o => s.xfmStop tile e o) s
    Progress s u ∧ (u.xfm tile e).ended = (s.xfm tile e).ended + BitVec.ofNat 32 l.length ∧
      (∀ o ∈ l, Stopped (u.xfm tile e) o.ticket) ∧ ∀ k, Stopped (s.xfm tile e) k → Stopped (u.xfm tile e) k := by
  induction l generalizing s with
  | nil => exact ⟨.refl s, by simp, fun _ h => absurd h List.not_mem_nil, fun _ h => h⟩
  | cons o l ih =>
    obtain ⟨hone, hmark⟩ := xfmStop_progress s tile e o
    obtain ⟨hrest, hended, hstopped, hkeep⟩ := ih (s.xfmStop tile e o)
    refine ⟨hone.trans hrest, ?_, fun o' ho' => ?_, fun k hk => hkeep k ((stopped_ended_other hk o).marked hmark)⟩
    · rw [List.foldl_cons, hended, hmark.ended_eq, List.length_cons]
      change (s.xfm tile e).ended + 1 + _ = _
      rw [BitVec.add_assoc, Nat.add_comm l.length 1, BitVec.ofNat_add]
      rfl
    · rcases List.mem_cons.1 ho' with rfl | ho'
      · exact hkeep _ ((stopped_ended_same _ o').marked hmark)
      · exact hstopped o' ho'

/-- The executing stream's tile stays the same while its records stop. -/
theorem foldl_xfmStop_cur (e : Nat) (l : List XfmOp) (s : State) :
    l.foldl (fun v o => v.xfmStop v.cur.tile e o) s = l.foldl (fun v o => v.xfmStop s.cur.tile e o) s := by
  have hfold (v : State) (hv : v.cur = s.cur) :
      l.foldl (fun v o => v.xfmStop v.cur.tile e o) v = l.foldl (fun v o => v.xfmStop s.cur.tile e o) v := by
    induction l generalizing v with
    | nil => rfl
    | cons o l ih =>
      rw [List.foldl_cons, List.foldl_cons, hv]
      exact ih _ ((xfmStop_progress v s.cur.tile e o).1.cur.trans hv)
  exact hfold s rfl

/-! ### XABT (R327) -/

/-- Where no copy is armed on its signal, a record that ends writes its words and adds its increment. -/
theorem xfmEnd_exact {s : State} {tile e : Nat} {o : XfmOp} {st outsz satc : Nat} (harmed : NoneArmed s (o.ssel % 512)) :
    (s.xfmEnd tile e o st outsz satc).mem = (recordEnded s tile e o st outsz satc).mem ∧
      (bitN o.ssel 15 = true → ((s.xfmEnd tile e o st outsz satc).sem tile o.place.core (o.ssel % 512)).v =
        (s.sem tile o.place.core (o.ssel % 512)).v + o.sinc) := by
  rw [xfmEnd_eq]
  have hsem : (recordEnded s tile e o st outsz satc).sem tile o.place.core (o.ssel % 512) = s.sem tile o.place.core (o.ssel % 512) :=
    sem_setXfm ..
  have hengine (x : Eng) : (recordEnded s tile e o st outsz satc).engine x = s.engine x := by
    rw [← engine_setXfm s tile e (ended (s.xfm tile e) o.ticket st) x]
    cases x <;> rfl
  set s2 := recordEnded s tile e o st outsz satc
  dsimp only
  have hlast (v : State) := onceIf_wakes (v.xfm tile e).idle v (.xfmRecordStart tile e)
  by_cases hsig : bitN o.ssel 15 = true
  · have hwakes : Wakes _ (s2.semAdd tile o.place.core (o.ssel % 512) o.sinc) :=
      semWake_wakes ((harmed.of_engines hengine).of_engines (engine_setSem s2 tile o.place.core (o.ssel % 512)
        { s2.sem tile o.place.core (o.ssel % 512) with v := (s2.sem tile o.place.core (o.ssel % 512)).v + o.sinc }))
    rw [if_pos hsig]
    refine ⟨(hlast _).mem_eq.trans (hwakes.mem_eq.trans (mem_setSem ..)), fun _ => ?_⟩
    rw [(hlast _).sem_eq, hwakes.sem_eq, sem_setSem_same, hsem]
  · rw [if_neg hsig]
    exact ⟨(hlast _).mem_eq, fun h => absurd h hsig⟩

theorem xfmWords_recordEnded (s u : State) (tile e : Nat) (o : XfmOp) (st outsz satc : Nat)
    (hu : u.mem = (recordEnded s tile e o st outsz satc).mem) :
    xfmWords u o = (st % 256 ^ 4, outsz % 256 ^ 4, satc % 256 ^ 4) := by
  simp only [xfmWords, hu, recordEnded, Prod.mk.injEq]
  refine ⟨?_, ?_, readNat_writeNat_same ..⟩
  · rw [readNat_writeNat_other _ (.inl (by omega)), readNat_writeNat_other _ (.inl (by omega)), readNat_writeNat_same]
  · rw [readNat_writeNat_other _ (.inl (by omega)), readNat_writeNat_same]

theorem ticket_of_find {l : List XfmOp} {k : Nat} {o : XfmOp} (h : l.find? (fun o => decide (o.ticket = k)) = some o) : o.ticket = k := by
  have hfound := List.find?_some h
  simpa using hfound

theorem wait_bodyStart {s : State} (t : Tack) (hwait : s.me.wait = none) : ((withoutExt s).popped t).me.wait = none := by
  rw [bodyStart_me]
  exact hwait

section
variable {s : State} {t : Tack} {a : Reg} (h : Ready s t)
include h

/-- XABT of a ticket that is not remembered or not queued. -/
theorem xabt_nothing (hno : s.xfmStatus (s.x a) = none ∨ ∀ o ∈ (s.xfm s.cur.tile (bits (s.x a) 32 1)).queue, o.ticket ≠ bits (s.x a) 0 32) :
    OnlyAdvances (.xabt a t) s 4 := by
  rw [OnlyAdvances, exec_xabt, execXabt]
  refine issue_advances h ?_
  have hstart := bodyStart_frame s t
  simp only [State.x_popped, x_withoutExt, State.cur_popped, cur_withoutExt, onlyStream_xfmStatus hstart, onlyStream_xfm hstart]
  split
  · rename_i o hfind
    rcases hno with hnone | hno
    · rw [hnone]
      rfl
    · exact absurd (ticket_of_find hfind) (hno o (List.mem_of_find?_eq_some hfind))
  · rfl

/-- A word without EXT whose body leaves everything of its stream: what it did stands, and it retires. -/
theorem issue_progress {body : State → Eff} {s2 : State} (hwait : s.me.wait = none) (hb : body ((withoutExt s).popped t) = .done s2)
    (hprog : Progress ((withoutExt s).popped t) s2) :
    ∃ u, issue 4 t body s = .next u ∧ OnlyStream s2 u ∧ Sequential s u 4 s.x 0 := by
  have hme : s2.me = ((withoutExt s).popped t).me := hprog.me_eq (wait_bodyStart t hwait)
  refine issue_retires h hb (hprog.cur.trans (bodyStart_frame s t).cur) (fun r => ?_) ?_
  · rw [State.x, hme, bodyStart_me]
    rfl
  · rw [hme, bodyStart_me]
    exact ⟨rfl, rfl, rfl, rfl, rfl⟩

/-- XABT of a queued record. -/
theorem xabt_stops {o : XfmOp} (hwait : s.me.wait = none) (hknown : s.xfmStatus (s.x a) ≠ none)
    (hfind : (s.xfm s.cur.tile (bits (s.x a) 32 1)).queue.find? (fun o => decide (o.ticket = bits (s.x a) 0 32)) = some o)
    (harmed : NoneArmed s (o.ssel % 512)) :
    ∃ u, exec (.xabt a t) s = .next u ∧ Sequential s u 4 s.x 0 ∧
      (∀ x ∈ (u.xfm s.cur.tile (bits (s.x a) 32 1)).queue, x.ticket ≠ bits (s.x a) 0 32) ∧ (xfmWords u o).1 = stopStatus o ∧
      (o.started = false → (xfmWords u o).2 = (0, 0)) ∧
      (bitN o.ssel 15 = true → (u.sem s.cur.tile o.place.core (o.ssel % 512)).v = (s.sem s.cur.tile o.place.core (o.ssel % 512)).v + o.sinc) := by
  have hstart := bodyStart_frame s t
  obtain ⟨hprog, hmark⟩ := xfmStop_progress ((withoutExt s).popped t) s.cur.tile (bits (s.x a) 32 1) o
  obtain ⟨u, hu, hframe, hseq⟩ : ∃ u, execXabt a t s = .next u ∧ 
      OnlyStream (((withoutExt s).popped t).xfmStop s.cur.tile (bits (s.x a) 32 1) o) u ∧ Sequential s u 4 s.x 0 := by
    unfold execXabt
    refine issue_progress h hwait ?_ hprog
    simp only [State.x_popped, x_withoutExt, State.cur_popped, cur_withoutExt, onlyStream_xfmStatus hstart, onlyStream_xfm hstart,
      hfind, Option.isSome_iff_ne_none.2 hknown, if_true]
  generalize (withoutExt s).popped t = b at hstart hmark hframe
  generalize bits (s.x a) 32 1 = e at hmark hframe ⊢
  obtain ⟨m, p, f, outsz, satc, hstop, hzero⟩ := xfmStop_eq b s.cur.tile e o
  have harmed' : NoneArmed { b with mem := m, poison := p, free := f } (o.ssel % 512) :=
    (harmed.of_engines (onlyStream_engine hstart)).of_engines fun x => by cases x <;> rfl
  obtain ⟨hmem, hsem⟩ := xfmEnd_exact (tile := s.cur.tile) (e := e) (st := stopStatus o) (outsz := outsz) (satc := satc) harmed'
  rw [← hstop] at hmem hsem
  have hwords := xfmWords_recordEnded _ u _ _ _ _ _ _ ((onlyStream_mem hframe).trans hmem)
  have hsmall : stopStatus o % 256 ^ 4 = stopStatus o := by
    rcases stopStatus_cases o with hs | hs <;> rw [hs] <;> rfl
  have hticket := ticket_of_find hfind
  refine ⟨u, hu, hseq, fun x hx => ?_, by rw [hwords, hsmall], fun hno => ?_, fun hsig => ?_⟩
  · rw [onlyStream_xfm hframe] at hx
    rw [← hticket]
    exact ((stopped_ended_same _ o).marked hmark).1 x hx
  · obtain ⟨rfl, rfl⟩ := hzero hno
    rw [hwords, Nat.zero_mod]
  · rw [onlyStream_sem hframe, hsem hsig]
    exact congrArg (fun v : Sem => v.v + o.sinc) (onlyStream_sem hstart ..)

/-- XABT.Q: every record of the engine. -/
theorem xabtQ_stops (hwait : s.me.wait = none) :
    let e := bits (s.x a) 32 1
    let g := s.xfm s.cur.tile e
    ∃ u, exec (.xabtQ a t) s = .next u ∧ Sequential s u 4 s.x 0 ∧ (u.xfm s.cur.tile e).queue = [] ∧
      (u.xfm s.cur.tile e).ended = g.ended + BitVec.ofNat 32 g.queue.length ∧
      ∀ o ∈ g.queue, ∀ x ∈ (u.xfm s.cur.tile e).status, x.1 = o.ticket → x.2 = 2 ∨ x.2 = 6 := by
  intro e g
  have hstart := bodyStart_frame s t
  have hxfm : ((withoutExt s).popped t).xfm s.cur.tile e = g := onlyStream_xfm hstart ..
  obtain ⟨s2, hs2⟩ : ∃ s2, g.queue.foldl (fun s' o => s'.xfmStop s.cur.tile e o) ((withoutExt s).popped t) = s2 := ⟨_, rfl⟩
  obtain ⟨hprog, hended, hstopped, -⟩ := foldl_xfmStop s.cur.tile e g.queue ((withoutExt s).popped t)
  rw [hs2] at hprog hended hstopped
  rw [hxfm] at hended
  obtain ⟨u, hu, hframe, hseq⟩ : ∃ u, execXabtQ a t s = .next u ∧ OnlyStream s2 u ∧ Sequential s u 4 s.x 0 := by
    unfold execXabtQ
    refine issue_progress h hwait ?_ hprog
    simp only [State.x_popped, x_withoutExt, State.cur_popped, cur_withoutExt, onlyStream_xfm hstart, foldl_xfmStop_cur]
    exact congrArg Eff.done hs2
  have hxu := onlyStream_xfm hframe s.cur.tile e
  refine ⟨u, hu, hseq, ?_, by rw [hxu, hended], fun o ho => ?_⟩
  · rw [hxu, List.eq_nil_iff_forall_not_mem]
    intro x hx
    obtain ⟨o, ho, hfrom⟩ := hprog.records _ _ x hx
    rw [hxfm] at ho
    exact (hstopped o ho).1 x hx hfrom.ticket_eq
  · rw [hxu]
    exact (hstopped o ho).2

end

end Sys2Proof.Claims
end

section
/-!
O41, the acceptance of a transform record (R323, R324): XFM.
-/
namespace Sys2Proof.Claims
open Sys2Proof.Machine

/-- An access of a direct space that passes: its checks change nothing, with the W token taken or not. -/
theorem checkMem_direct {s : State} {h : Handle} {idx : Nat} {off : Int} {w : Want} {segs : List (List (Nat × Nat))} {leaf : Word} (t : Tack)
    (hdirect : direct h.space = true) (hacc : access s h idx off w = some (segs, leaf)) :
    (s.popped t).checkMem h idx off w = .ok segs leaf (s.popped t) := by
  have hdie (k : Nat) : (s.popped t).dieOn k = s.dieOn k := by rw [popped_eq]; rfl
  have hpoison : poisonIn (s.popped t) = poisonIn s := by rw [popped_eq]; rfl
  unfold access State.checkMem at hacc
  unfold State.checkMem
  rw [preCheck_popped]
  cases hpre : s.preCheck h idx off w with
  | some e => simp [hpre] at hacc
  | none =>
    simp only [hpre, State.postCheck, hdirect, if_true, hdie, hpoison, State.cur_popped] at hacc ⊢
    split_ifs at hacc ⊢ with hoff hbad
    simp_all

/-- The space of an access that passes is one the instruction takes. -/
theorem space_of_access {s : State} {h : Handle} {idx : Nat} {off : Int} {w : Want} {r : List (List (Nat × Nat)) × Word}
    (hacc : access s h idx off w = some r) : h.space ∈ w.spaces := by
  unfold access State.checkMem at hacc
  cases hpre : s.preCheck h idx off w with
  | some e => simp [hpre] at hacc
  | none =>
    have hall := List.findSome?_eq_none_iff.1 hpre
    have hspace := hall (if !w.spaces.contains h.space then some (accessEvent 0x04 h idx off w) else none)
      (by simp [State.preChecks])
    by_contra hno
    simp [hno] at hspace

theorem xfmOf_popped (s : State) (t : Tack) (bs : List Byte) (r ticket : Nat) : (s.popped t).xfmOf bs r ticket = s.xfmOf bs r ticket := by
  have htask : (s.popped t).mySlot.task = s.mySlot.task := by
    unfold State.popped
    split_ifs
    · simp [State.mySlot, State.setMySlot, Slot.takeTack]
    · rfl
  simp only [State.xfmOf, State.cur_popped, h_popped, htask]

theorem xfmChecks_popped (s : State) (t : Tack) (a : Nat) (o : XfmOp) (wv sv : Bool) :
    (s.popped t).xfmChecks a o wv sv = s.xfmChecks a o wv sv := by
  rw [popped_eq]
  rfl

/-- What a word of the executing core settles with no reduction of it on its way. -/
theorem settle_settled {s : State} (h : NoReductions s) : Settled s s.settle ∧ s.settle.mem = (s.drainCore s.cur.coreK).mem :=
  settleCore_settled h

theorem Settled.xfm_eq {s u : State} (h : Settled s u) (k e : Nat) : u.xfm k e = s.xfm k e := by
  rw [State.xfm, h.tiles, State.xfm]

/-! ### A record accepted -/

theorem semPasses_eq_decide (v thr : BitVec 32) : semPasses v thr = decide (0 ≤ (v - thr).toInt) :=
  Bool.eq_iff_iff.2 ((semPasses_iff v thr).trans (decide_eq_true_iff (p := 0 ≤ (v - thr).toInt)).symm)

/-- A record as its engine keeps it: its selectors without their spare bits, its comparison taken (R326). -/
def asKept (s : State) (o : XfmOp) : XfmOp :=
  { o with
    wsel := o.wsel % 512 + (if bitN o.wsel 15 then 2 ^ 15 else 0)
    ssel := o.ssel % 512 + (if bitN o.ssel 15 then 2 ^ 15 else 0)
    passed := !bitN o.wsel 15 || decide (0 ≤ ((s.sem s.cur.tile s.cur.core (o.wsel % 512)).v - o.wthr).toInt) }

/-- The checks of acceptance look at a record's selectors, not at its comparison. -/
theorem xfmChecks_asKept (s v : State) (a : Nat) (o : XfmOp) (wv sv : Bool) :
    v.xfmChecks a { asKept s o with wsel := (asKept s o).wsel % 512, ssel := (asKept s o).ssel % 512 } wv sv =
      v.xfmChecks a { o with wsel := o.wsel % 512, ssel := o.ssel % 512 } wv sv := by
  have hmod (n : Nat) (b : Bool) : (n % 512 + (if b then 2 ^ 15 else 0)) % 512 = n % 512 := by
    cases b <;> simp only [Bool.false_eq_true, if_true, if_false] <;> omega
  simp only [asKept, hmod]
  rfl

/-- The state in which a record has been accepted. -/
def accepted (w : State) (e ticket : Nat) (o : XfmOp) : State :=
  let g := w.xfm w.cur.tile e
  let s1 := w.setXfm w.cur.tile e { g with queue := g.queue ++ [o], accepted := g.accepted + 1, status := ((ticket, 0) :: g.status).take 64 }
  ({ s1 with mem := s1.mem.writeNat (spaceAddr w.cur 1 o.recOff + 44) 4 0 } : State).once (.xfmRecordStart w.cur.tile e)

theorem accepted_reads (w : State) (e ticket : Nat) (o : XfmOp) :
    (accepted w e ticket o).cur = w.cur ∧ (accepted w e ticket o).me = w.me ∧
      (accepted w e ticket o).mem = w.mem.writeNat (spaceAddr w.cur 1 o.recOff + 44) 4 0 ∧
      ((accepted w e ticket o).xfm w.cur.tile e).queue = (w.xfm w.cur.tile e).queue ++ [o] ∧
      ((accepted w e ticket o).xfm w.cur.tile e).accepted = (w.xfm w.cur.tile e).accepted + 1 ∧
      ((accepted w e ticket o).xfm w.cur.tile e).ended = (w.xfm w.cur.tile e).ended := by
  unfold accepted
  dsimp only
  generalize hg : ({ w.xfm w.cur.tile e with
    queue := (w.xfm w.cur.tile e).queue ++ [o], accepted := (w.xfm w.cur.tile e).accepted + 1
    status := ((ticket, 0) :: (w.xfm w.cur.tile e).status).take 64 } : Xfm) = g
  obtain ⟨ts, hts⟩ := once_turns { w.setXfm w.cur.tile e g with
    mem := (w.setXfm w.cur.tile e g).mem.writeNat (spaceAddr w.cur 1 o.recOff + 44) 4 0 } (.xfmRecordStart w.cur.tile e)
  have hxfm : State.xfm { w.setXfm w.cur.tile e g with
      mem := (w.setXfm w.cur.tile e g).mem.writeNat (spaceAddr w.cur 1 o.recOff + 44) 4 0, turns := ts } w.cur.tile e = g :=
    xfm_setXfm_same w w.cur.tile e g
  rw [hts, hxfm, ← hg]
  exact ⟨rfl, rfl, rfl, rfl, rfl, rfl⟩

/-- XFM of an engine with room. -/
theorem xfm_accepts {s : State} {t : Tack} (h : Ready s t) (d : Reg) (m : MemOp) (e1 : Bool) {segs : List (List (Nat × Nat))} {leaf : Word}
    (hred : NoReductions s) (hroom : (s.xfm s.cur.tile (if e1 then 1 else 0)).queue.length < 32)
    (hacc : access s (s.h m.h) m.h.toNat (s.offM m)
        { acc := .read, spaces := [1], pr := true, pw := false, typeOk := !isPB (s.h m.h).type, align := 64
          n := if elemUnit (s.h m.h).type then 512 / max 1 (typeWidth (s.h m.h).type) else 64
          ranges := [(((s.h m.h).unitByte (s.offM m)).toNat, 64)] } = some (segs, leaf)) :
    let e := if e1 then 1 else 0
    let g := s.xfm s.cur.tile e
    let r := (((s.h m.h).base : Int) + (s.h m.h).unitByte (s.offM m)).toNat
    let o := s.xfmOf (readSegs (s.drainCore s.cur.coreK).mem segs.flatten) r (g.accepted + 1).toNat
    s.xfmChecks m.h.toNat { o with wsel := o.wsel % 512, ssel := o.ssel % 512 } (bitN o.wsel 15) (bitN o.ssel 15) = none →
    ∃ u, exec (.xfm d m e1 t) s = .next u ∧
      Sequential s u 4 (s.wrote d (BitVec.ofNat 64 ((g.accepted + 1).toNat + e * 2 ^ 32))) 0 ∧
      u.mem = (s.drainCore s.cur.coreK).mem.writeNat (spaceAddr s.cur 1 r + 44) 4 0 ∧
      (u.xfm s.cur.tile e).queue = g.queue ++ [asKept s o] ∧ (u.xfm s.cur.tile e).accepted = g.accepted + 1 ∧
      (u.xfm s.cur.tile e).ended = g.ended := by
  intro e g r o hchecks
  have hdirect : direct (s.h m.h).space = true := by
    rw [List.mem_singleton.1 (space_of_access hacc)]
    rfl
  have hpop := OnlyStream.popped s t
  obtain ⟨hset, hmem⟩ := settle_settled (noReductions_popped t hred)
  rw [State.cur_popped, drainCore_mem_popped] at hmem
  have hcur : ((s.popped t).settle).cur = s.cur := hset.cur_eq.trans (State.cur_popped s t)
  have hxfm : ((s.popped t).settle).xfm s.cur.tile e = g := (hset.xfm_eq ..).trans (onlyStream_xfm hpop ..)
  obtain ⟨hacur, hame, hamem, haqueue, haaccepted, haended⟩ := accepted_reads (s.popped t).settle e (g.accepted + 1).toNat (asKept s o)
  rw [hcur] at hacur hamem haqueue haaccepted haended
  rw [hxfm] at haqueue haaccepted haended
  have hme : (accepted (s.popped t).settle e (g.accepted + 1).toNat (asKept s o)).me = s.me :=
    hame.trans (hset.me_eq.trans (State.me_popped s t))
  obtain ⟨v, hv⟩ : ∃ v, accepted (s.popped t).settle e (g.accepted + 1).toNat (asKept s o) = v := ⟨_, rfl⟩
  rw [hv] at hacur hme hamem haqueue haaccepted haended
  obtain ⟨u, hu, hframe, hseq⟩ : ∃ u, execXfm d m e1 t s = .next u ∧
      OnlyStream (v.setX d (BitVec.ofNat 64 ((g.accepted + 1).toNat + e * 2 ^ 32))) u ∧
      Sequential s u 4 (s.wrote d (BitVec.ofNat 64 ((g.accepted + 1).toNat + e * 2 ^ 32))) 0 := by
    unfold execXfm
    refine issueX_retires h ?_ ((State.cur_setMe ..).trans hacur) (fun q => ?_) ?_
    · have hpasses : (s.popped t).xfmChecks m.h.toNat { asKept s o with wsel := (asKept s o).wsel % 512, ssel := (asKept s o).ssel % 512 }
          (bitN o.wsel 15) (bitN o.ssel 15) = none := by
        rw [xfmChecks_asKept, xfmChecks_popped, hchecks]
      have hchk := checkMem_direct t hdirect hacc
      simp only [State.cur_popped, onlyStream_xfm hpop, h_popped, offM_popped, hchk, Chk.andThen, hmem, xfmOf_popped,
        onlyStream_sem hpop, semPasses_eq_decide]
      rw [if_neg (not_le.2 hroom)]
      split
      · rename_i ev hev
        exact absurd (hpasses.symm.trans hev) (Option.some_ne_none ev).symm
      · rw [← hv, accepted, hcur, hxfm]
        rfl
    · rw [State.x_setX, State.x, hme]
      rfl
    · rw [me_setX, hme]
      exact .setX ..
  have hset' : OnlyStream v (v.setX d (BitVec.ofNat 64 ((g.accepted + 1).toNat + e * 2 ^ 32))) := .setMe ..
  have hvu := hset'.trans hframe
  refine ⟨u, hu, hseq, ?_, ?_, ?_, ?_⟩
  · rw [onlyStream_mem hvu, hamem, hmem]
    rfl
  all_goals rwa [onlyStream_xfm hvu]

end Sys2Proof.Claims
end

section
/-!
O41, SEMS.DISARM (R148, R149, R229, R326): waits, copies and records on the semaphore end, then its value is set.

What each part ends is gone after it, and what comes later brings nothing back (`Progress`).
-/
namespace Sys2Proof.Claims
open Sys2Proof.Machine

/-! ### Waits -/

theorem cancelWait_cases (n : Nat) (s : State) (q : Place) :
    s.cancelWait n q = s ∨ (s.at q).wait ≠ none ∧ ∃ d t v, s.cancelWait n q = s.completeWait q d t v := by
  unfold State.cancelWait
  split
  · rename_i w thr d t hwait
    split_ifs
    · exact .inr ⟨hwait ▸ Option.some_ne_none _, d, t, 1, rfl⟩
    · exact .inl rfl
  · rename_i win mask thr d t hwait
    split
    · exact .inr ⟨hwait ▸ Option.some_ne_none _, d, t, _, rfl⟩
    · exact .inl rfl
  · exact .inl rfl

theorem cancelWait_at (n : Nat) (s : State) (q : Place) : OnlyAt s (s.cancelWait n q) q := by
  rcases cancelWait_cases n s q with h | ⟨-, d, t, v, h⟩
  · rw [h]
    exact .refl s q
  · rw [h]
    exact (completeWait_at ..).1

theorem cancelWait_wakes (n : Nat) (s : State) (q : Place) : Wakes s (s.cancelWait n q) := by
  rcases cancelWait_cases n s q with h | ⟨hwait, d, t, v, h⟩
  · rw [h]
    exact .refl s
  · rw [h]
    exact .of_onlyAt (completeWait_at ..).1 hwait

/-- The wait `w` is one on semaphore `n` that ends, cancelled, with `v` in register `d`. -/
def Cancels (n : Nat) (w : Wait) (d : Reg) (v : Word) : Prop :=
  ∀ (s : State) (q : Place), (s.at q).wait = some w → s.cancelWait n q = s.completeWait q d ⟨false, false⟩ v

theorem cancels_semw (n : Nat) (thr : BitVec 32) (d : Reg) : Cancels n (.semw n thr d ⟨false, false⟩) d 1 := by
  intro s q hwait
  simp only [State.cancelWait, hwait, if_true]

/-- Of a window's entries only one names a given semaphore. -/
theorem find_windowSel {win k n : Nat} {mask : Word} (hk : k < 64) (hbit : mask.getLsbD k = true) (hn : windowSel win k = n) :
    (List.range 64).find? (fun j => mask.getLsbD j && decide (windowSel win j = n)) = some k := by
  refine List.find?_range_eq_some.2 ⟨?_, List.mem_range.2 hk, fun j hj => ?_⟩
  · rw [hbit, decide_eq_true hn]
    rfl
  · have hne : windowSel win j ≠ n := by
      subst hn
      unfold windowSel
      split_ifs <;> omega
    rw [decide_eq_false hne, Bool.and_false]
    rfl

theorem cancels_semwa {n win k : Nat} {mask : Word} (hk : k < 64) (hbit : mask.getLsbD k = true) (hn : windowSel win k = n)
    (thr : BitVec 32) (d : Reg) : Cancels n (.semwa win mask thr d ⟨false, false⟩) d (BitVec.ofNat 64 (256 + k)) := by
  intro s q hwait
  simp only [State.cancelWait, hwait, find_windowSel hk hbit hn]

/-! ### Copies -/

/-- No copy of an engine is armed on semaphore `n` as a core sees it. -/
def Unarmed (s : State) (e : Eng) (core n : Nat) : Prop :=
  ∀ o ∈ (s.engine e).ops, ∀ thr, o.armed = some (n, thr) → ¬ (256 ≤ n ∨ o.place.core = core)

theorem Unarmed.progress {s u : State} {e : Eng} {core n : Nat} (h : Unarmed s e core n) (hprog : Progress s u) : Unarmed u e core n := by
  intro o' ho' thr harmed
  obtain ⟨o, ho, -, hplace, hsame | hnone⟩ := hprog.ops e o' ho'
  · rw [hplace]
    exact h o ho thr (hsame ▸ harmed)
  · exact absurd (hnone.symm.trans harmed) (Option.some_ne_none _).symm

theorem cancelCopies_unarmed (s : State) (e : Eng) (core n : Nat) :
    Progress s (s.cancelCopies e core n) ∧ Unarmed (s.cancelCopies e core n) e core n := by
  unfold State.cancelCopies
  obtain ⟨hprog, hgone⟩ := foldl_closeCopy e 0x02 ((s.engine e).ops.filter (fun o => match o.armed with
    | some (k, _) => decide (k = n) && (decide (256 ≤ n) || decide (o.place.core = core))
    | none => false)) s
  refine ⟨hprog, fun o' ho' thr harmed hmine => ?_⟩
  obtain ⟨o, ho, hid, hplace, hsame | hnone⟩ := hprog.ops e o' ho'
  · refine hgone o (List.mem_filter.2 ⟨ho, ?_⟩) o' ho' hid
    rw [← hsame, harmed, ← hplace]
    simpa using hmine
  · exact absurd (hnone.symm.trans harmed) (Option.some_ne_none _).symm

/-- What each of a list of steps makes true stays true through the later ones. -/
theorem foldl_establishes {α : Type} {f : State → α → State} {P : α → State → Prop} (hstep : ∀ s a, Progress s (f s a) ∧ P a (f s a))
    (hkeep : ∀ a s u, P a s → Progress s u → P a u) (l : List α) (s : State) :
    Progress s (l.foldl f s) ∧ ∀ a ∈ l, P a (l.foldl f s) := by
  induction l generalizing s with
  | nil => exact ⟨.refl s, fun _ h => absurd h List.not_mem_nil⟩
  | cons a l ih =>
    obtain ⟨hone, ha⟩ := hstep s a
    obtain ⟨hrest, hothers⟩ := ih (f s a)
    refine ⟨hone.trans hrest, fun b hb => ?_⟩
    rcases List.mem_cons.1 hb with rfl | hb
    · exact hkeep b _ _ ha hrest
    · exact hothers b hb

/-! ### Records -/

/-- A record that waits for semaphore `n` as a core sees it. -/
def AwaitsSem (o : XfmOp) (core n : Nat) : Prop :=
  o.started = false ∧ o.passed = false ∧ bitN o.wsel 15 = true ∧ o.wsel % 512 = n ∧ (256 ≤ n ∨ o.place.core = core)

theorem awaitsSem_of_recFrom {o o' : XfmOp} {core n : Nat} (hfrom : RecFrom o o') (h : AwaitsSem o' core n) : AwaitsSem o core n := by
  rcases hfrom with rfl | rfl
  · exact h
  · obtain ⟨-, hpassed, -⟩ := h
    cases hpassed

/-- No record of a transform engine waits for it. -/
def NoneAwaits (s : State) (tile e core n : Nat) : Prop := ∀ o ∈ (s.xfm tile e).queue, ¬ AwaitsSem o core n

theorem NoneAwaits.progress {s u : State} {tile e core n : Nat} (h : NoneAwaits s tile e core n) (hprog : Progress s u) :
    NoneAwaits u tile e core n := by
  intro o' ho' hawaits
  obtain ⟨o, ho, hfrom⟩ := hprog.records tile e o' ho'
  exact h o ho (awaitsSem_of_recFrom hfrom hawaits)

/-- Records of an engine that end one after another. -/
theorem foldl_xfmEnd (tile e : Nat) (l : List XfmOp) (s : State) :
    Progress s (l.foldl (fun s o => s.xfmEnd tile e o 0x02 0 0) s) ∧
      ∀ o ∈ l, ∀ o' ∈ ((l.foldl (fun s o => s.xfmEnd tile e o 0x02 0 0) s).xfm tile e).queue, o'.ticket ≠ o.ticket := by
  refine foldl_establishes (P := fun o s => ∀ o' ∈ (s.xfm tile e).queue, o'.ticket ≠ o.ticket) (fun s o => ?_) (fun o s u h hprog o' ho' => ?_) l s
  · obtain ⟨hprog, hmark⟩ := xfmEnd_progress s tile e o 0x02 0 0
    refine ⟨hprog, fun o' ho' => ?_⟩
    obtain ⟨x, hx, hfrom⟩ := hmark.mem ho'
    rw [hfrom.ticket_eq]
    exact of_decide_eq_true (List.mem_filter.1 hx).2
  · obtain ⟨x, hx, hfrom⟩ := hprog.records tile e o' ho'
    rw [hfrom.ticket_eq]
    exact h x hx

theorem cancelRecords_awaits (s : State) (tile e core n : Nat) :
    Progress s (s.cancelRecords tile e core n) ∧ NoneAwaits (s.cancelRecords tile e core n) tile e core n := by
  unfold State.cancelRecords
  obtain ⟨hprog, hgone⟩ := foldl_xfmEnd tile e ((s.xfm tile e).queue.filter (fun o => !o.started && !o.passed && bitN o.wsel 15 &&
    decide (o.wsel % 512 = n) && (decide (256 ≤ n) || decide (o.place.core = core)))) s
  refine ⟨hprog, fun o' ho' hawaits => ?_⟩
  obtain ⟨o, ho, hfrom⟩ := hprog.records tile e o' ho'
  obtain ⟨hstarted, hpassed, hwsel, hn, hmine⟩ := awaitsSem_of_recFrom hfrom hawaits
  refine hgone o (List.mem_filter.2 ⟨ho, ?_⟩) o' ho' hfrom.ticket_eq
  rw [hstarted, hpassed, hwsel, decide_eq_true hn]
  simpa using hmine

/-! ### SEMS.DISARM -/

/-- What is armed on semaphore `n` of the executing stream is cancelled. -/
def disarmed (s : State) (n : Nat) : State :=
  let s0 := s.release (selScope n)
  let s1 := (s0.waiters s.cur.tile s.cur.core n).foldl (State.cancelWait n) s0
  let s2 := (Eng.tile s.cur.tile :: (List.range 8).map (Eng.core s.cur.tile)).foldl (fun v e => v.cancelCopies e s.cur.core n) s1
  [0, 1].foldl (fun v e => v.cancelRecords s.cur.tile e s.cur.core n) s2

theorem disarmed_progress (s : State) (n : Nat) :
    Progress s (disarmed s n) ∧
      (∀ e ∈ Eng.tile s.cur.tile :: (List.range 8).map (Eng.core s.cur.tile), Unarmed (disarmed s n) e s.cur.core n) ∧
      ∀ e ∈ [0, 1], NoneAwaits (disarmed s n) s.cur.tile e s.cur.core n := by
  unfold disarmed
  extract_lets s0 s1 s2
  have hwaits : Progress s s1 := .of_aftermath
    ((Aftermath.of_routes (release_routes s _)).trans (.of_wakes (foldl_wakes (cancelWait_wakes n) _ s0)))
  obtain ⟨hcopies, hunarmed⟩ := foldl_establishes (P := fun e v => Unarmed v e s.cur.core n) (fun v e => cancelCopies_unarmed v e s.cur.core n)
    (fun _ _ _ h => h.progress) (Eng.tile s.cur.tile :: (List.range 8).map (Eng.core s.cur.tile)) s1
  obtain ⟨hrecords, hawaits⟩ := foldl_establishes (P := fun e v => NoneAwaits v s.cur.tile e s.cur.core n)
    (fun v e => cancelRecords_awaits v s.cur.tile e s.cur.core n) (fun _ _ _ h => h.progress) [0, 1] s2
  exact ⟨(hwaits.trans hcopies).trans hrecords, fun e he => (hunarmed e he).progress hrecords, hawaits⟩

/-- A stream of the semaphore's home that waits on it. -/
theorem disarmed_ends {s : State} {n : Nat} {q : Place} {w : Wait} {d : Reg} {v : Word} (hcancels : Cancels n w d v) (hq : q.wf = true)
    (htile : q.tile = s.cur.tile) (hcore : 256 ≤ n ∨ q.core = s.cur.core) (hkey : q.slotK ∈ s.slots.map (·.1)) (hwait : (s.at q).wait = some w) :
    Resumed (s.at q) ((disarmed s n).at q) ((seenAt s q).wrote d v) := by
  unfold disarmed
  extract_lets s0 s1 s2
  have hrel : Routes s s0 := release_routes s _
  have hat := hrel.at_eq q
  have hfold := foldl_completes (g := State.cancelWait n) (s := s0) (cancelWait_at n) (cancelWait_wakes n) hq
    (fun u _ huq => hcancels u q (by rw [huq, hat, hwait])) (l := s0.waiters s.cur.tile s.cur.core n) (fun p hp => waiters_places hp)
    (mem_waiters hq htile hcore (hrel.keys _ hkey))
  rw [hat, wrote_seenAt hat] at hfold
  have hcopies : Progress s1 s2 := foldl_progress (fun v e => (cancelCopies_unarmed v e s.cur.core n).1) _ s1
  have hrecords : Progress s2 ([0, 1].foldl (fun v e => v.cancelRecords s.cur.tile e s.cur.core n) s2) :=
    foldl_progress (fun v e => (cancelRecords_awaits v s.cur.tile e s.cur.core n).1) _ s2
  have hend := (hcopies.trans hrecords).at_eq hfold.wait
  rw [← hend] at hfold
  exact hfold

theorem keys_popped {s : State} (t : Tack) {k : Nat} (hk : k ∈ s.slots.map (·.1)) (hne : k ≠ s.cur.slotK) :
    k ∈ (s.popped t).slots.map (·.1) := by
  unfold State.popped
  split_ifs
  · exact mem_keys_set hk hne
  · exact hk

/-- SEMS.DISARM: the state it leaves is one retirement away from the disarmed one with the semaphore set. -/
theorem semsDisarm_completes {s : State} {t : Tack} (h : Ready s t) (a : Reg) {sel : BitVec 9} (hsel : Names sel) (hwait : s.me.wait = none) :
    ∃ u, exec (.semsDisarm a sel t) s = .next u ∧ Sequential s u 4 s.x 0 ∧
      OnlyStream ((disarmed (s.popped t) sel.toNat).semSet s.cur.tile s.cur.core sel.toNat ((s.x a).setWidth 32)) u := by
  obtain ⟨hdis, -⟩ := disarmed_progress (s.popped t) sel.toNat
  have hprog := hdis.trans (semSet_progress (disarmed (s.popped t) sel.toNat) s.cur.tile s.cur.core sel.toNat ((s.x a).setWidth 32))
  have hme := (hprog.me_eq (by rw [State.me_popped, hwait])).trans (State.me_popped s t)
  obtain ⟨u, hu, hframe, hseq⟩ : ∃ u, execSemsDisarm a sel t s = .next u ∧ OnlyStream ((disarmed (s.popped t) sel.toNat).semSet
      s.cur.tile s.cur.core sel.toNat ((s.x a).setWidth 32)) u ∧ Sequential s u 4 s.x 0 := by
    unfold execSemsDisarm
    refine issueX_retires h ?_ (hprog.cur.trans (State.cur_popped s t)) (fun r => congrArg (Stream.getX · r) hme) (.of_eq hme)
    simp only [selBad_of_names hsel, Bool.false_eq_true, if_false, disarmed, State.cur_popped, State.x32, State.x_popped]
  exact ⟨u, hu, hseq, hframe⟩

theorem sem_eq_of_parts {x : Sem} {v : BitVec 32} {sig : Option (Nat × Nat)} (hv : x.v = v) (hsig : x.sig = sig) : x = { v := v, sig := sig } := by
  subst hv hsig
  rfl

theorem semsDisarm_ends {s : State} {t : Tack} (h : Ready s t) (a : Reg) {sel : BitVec 9} (hsel : Names sel) (hund : Undisturbed s) :
    ∃ u, exec (.semsDisarm a sel t) s = .next u ∧ Sequential s u 4 s.x 0 ∧
      semOf u sel.toNat = { semOf s sel.toNat with v := (s.x a).setWidth 32 } ∧
      (∀ (q : Place) (w : Wait) (d : Reg) (v : Word), Cancels sel.toNat w d v → q.wf = true → q.tile = s.cur.tile →
        (256 ≤ sel.toNat ∨ q.core = s.cur.core) → q.slotK ≠ s.cur.slotK → q.slotK ∈ s.slots.map (·.1) →
        (s.slot q.slotK).regs.super = false → (s.stream q.streamK).wait = some w → WaiterEnds s u q d v) ∧
      (∀ e, (e = .tile s.cur.tile ∨ ∃ c, c < 8 ∧ e = .core s.cur.tile c) → Unarmed u e s.cur.core sel.toNat) ∧
      ∀ e, e < 2 → NoneAwaits u s.cur.tile e s.cur.core sel.toNat := by
  obtain ⟨hwait, hwf⟩ := hund
  obtain ⟨u, hu, hseq, hframe⟩ := semsDisarm_completes h a hsel hwait
  obtain ⟨hdis, hunarmed, hawaits⟩ := disarmed_progress (s.popped t) sel.toNat
  have hset := semSet_progress (disarmed (s.popped t) sel.toNat) s.cur.tile s.cur.core sel.toNat ((s.x a).setWidth 32)
  have hprog := hdis.trans hset
  have hpop := OnlyStream.popped s t
  have hcur := hprog.cur.trans (State.cur_popped s t)
  rw [State.cur_popped] at hunarmed hawaits
  refine ⟨u, hu, hseq, ?_, fun q w d v hcancels hq htile hcore hslot hkey hsuper hw => ?_, fun e he o ho => ?_, fun e he o ho => ?_⟩
  · have hsig := hprog.sig s.cur.tile s.cur.core sel.toNat
    have hval : (((disarmed (s.popped t) sel.toNat).semSet s.cur.tile s.cur.core sel.toNat ((s.x a).setWidth 32)).sem
        s.cur.tile s.cur.core sel.toNat).v = (s.x a).setWidth 32 := by
      rw [State.semSet, (semWake_aftermath ..).sem, sem_setSem_same]
    rw [onlyStream_sem hpop] at hsig
    rw [semOf, hframe.cur, hcur, onlyStream_sem hframe]
    exact sem_eq_of_parts hval hsig
  · have hsuperAt : s.superAt q = false := by rw [State.superAt, hsuper, Bool.false_and]
    have hstream := streamK_ne (stream_lt_of_wf hwf) (stream_lt_of_wf hq) hslot
    have hat : (s.popped t).at q = s.at q := onlyStream_at hpop hslot hstream
    have hend := disarmed_ends hcancels hq (htile.trans (by rw [State.cur_popped])) (by rwa [State.cur_popped]) (keys_popped t hkey hslot)
      (by rw [hat, State.at, hsuperAt, if_neg Bool.false_ne_true, hw])
    rw [hat, wrote_seenAt hat, ← hset.at_eq hend.wait, ← onlyStream_at hframe (by rwa [hcur]) (by rwa [hcur])] at hend
    refine waiterEnds_of_resumed hsuperAt ?_ hend
    rw [onlyStream_superAt hframe, hprog.super, onlyStream_superAt hpop, hsuperAt]
  · have hmem : e ∈ Eng.tile s.cur.tile :: (List.range 8).map (Eng.core s.cur.tile) := by
      rcases he with rfl | ⟨c, hc, rfl⟩
      · exact List.mem_cons_self ..
      · exact List.mem_cons_of_mem _ (List.mem_map.2 ⟨c, List.mem_range.2 hc, rfl⟩)
    rw [onlyStream_engine hframe] at ho
    exact (hunarmed e hmem).progress hset o ho
  · rw [onlyStream_xfm hframe] at ho
    refine (hawaits e ?_).progress hset o ho
    interval_cases e <;> simp

/-! ### The family -/

theorem bits_from_zero (v : Word) (n : Nat) : bits v 0 n = v.toNat % 2 ^ n := by
  simp only [bits, Nat.pow_zero, Nat.div_one]

theorem bits_engine (v : Word) : bits v 32 1 = v.toNat / 2 ^ 32 % 2 := by
  simp only [bits, Nat.pow_one]

/-- Settles O41: XFM by `xfm_accepts`, the forms of a ticket by what the engine remembers of it (`xfmStatus_eq`), XABT and XABT.Q by
`xabt_stops` and `xabtQ_stops`, SEMS.DISARM by `semsDisarm_ends`. -/
theorem transformInstructions : Obligations.TransformInstructions := by
  intro s t d a m f e1 sel h
  refine ⟨?_, ?_, ?_⟩
  · intro e g hd off segs leaf hred hroom hacc r o wv sv hchecks
    obtain ⟨u, hu, hseq, hmem, hqueue, haccepted, hended⟩ := xfm_accepts h d m e1 hred hroom hacc hchecks
    refine ⟨u, hu, ?_, hmem, hqueue, haccepted, hended⟩
    cases e1 <;> exact hseq
  · intro v e k g known
    have hknown : s.xfmStatus (s.x a) = known := xfmStatus_eq ..
    have hengine := bits_engine (s.x a)
    have hticket := bits_from_zero (s.x a) 32
    refine ⟨fun hnone => xwait_forgotten h (hknown.trans hnone), fun n hn hsome => xwait_ended h hn (hknown.trans hsome),
      fun hzero => xwait_waits h (hknown.trans hzero), ?_, fun hno => xabt_nothing h ?_, fun o hsome hfind hund harmed => ?_, fun hund => ?_⟩
    · have hread := xqry_reads (d := d) (a := a) h f
      rw [hknown, hengine] at hread
      exact hread
    · rw [hknown, hengine, hticket]
      exact hno
    · have hstop := xabt_stops h hund.1 (hknown ▸ hsome) (by rw [hengine, hticket]; exact hfind) harmed
      rw [hengine, hticket] at hstop
      exact hstop
    · have hstop := xabtQ_stops (a := a) h hund.1
      rw [hengine] at hstop
      exact hstop
  · intro n hsel hund
    obtain ⟨u, hu, hseq, hsem, hwaits, hcopies, hrecords⟩ := semsDisarm_ends h a hsel hund
    refine ⟨u, hu, hseq, hsem, fun q thr d' hq htile hcore hslot hkey hsuper hw =>
        hwaits q _ d' 1 (cancels_semw _ thr d') hq htile hcore hslot hkey hsuper hw,
      fun q win k mask thr d' hq htile hcore hslot hkey hsuper hk hbit hn hw =>
        hwaits q _ d' _ (cancels_semwa hk hbit hn.symm thr d') hq htile hcore hslot hkey hsuper hw, hcopies,
      fun e he o ho hstarted hpassed hwsel hn hmine => hrecords e he o ho ⟨hstarted, hpassed, hwsel, hn, hmine⟩⟩

end Sys2Proof.Claims
end

section
/-!
O12, the words (R151 to R155, R297, R299, R302, R308): each leaves its stream where it is but for the registers it writes
(`SameMe`), and retires.
-/
namespace Sys2Proof.Claims
open Sys2Proof.Machine

/-! ### Steps that leave the executing stream alone -/

/-- The executing stream is the same one, with everything it has. -/
structure SameMe (s u : State) : Prop where
  cur : u.cur = s.cur
  me : u.me = s.me

theorem SameMe.refl (s : State) : SameMe s s := ⟨rfl, rfl⟩

theorem SameMe.trans {s u v : State} (h : SameMe s u) (g : SameMe u v) : SameMe s v := ⟨g.cur.trans h.cur, g.me.trans h.me⟩

theorem SameMe.of_routes {s u : State} (h : Routes s u) : SameMe s u := ⟨h.cur, h.me_eq⟩

theorem SameMe.of_lends {s u : State} (h : Lends s u) : SameMe s u := ⟨h.cur_eq, h.me_eq⟩

theorem foldl_sameMe {α : Type} {f : State → α → State} (hf : ∀ s a, SameMe s (f s a)) (l : List α) (s : State) : SameMe s (l.foldl f s) := by
  induction l generalizing s with
  | nil => exact .refl s
  | cons a l ih => exact (hf s a).trans (ih (f s a))

theorem dropRuns_sameMe (s : State) (core : Nat) (rs : List (Nat × Nat)) : SameMe s (s.dropRuns core rs) :=
  foldl_sameMe (f := fun (s : State) (r : Nat × Nat) => s.dropLines core r.1 r.2) (fun _ _ => ⟨rfl, rfl⟩) rs s

theorem askLining_sameMe (s : State) (tile core : Nat) : SameMe s (s.askLining tile core).2 := by
  unfold State.askLining
  dsimp only
  by_cases hasked : (s.auxOf (coreKey tile core)).liningAsked = true
  · rw [if_pos hasked]
    exact .refl s
  · rw [if_neg hasked]
    exact ⟨rfl, rfl⟩

/-- The base priority of the executing slot is nothing its stream is made of. -/
theorem setRegs_sameMe (s : State) (n : Nat) : SameMe s (s.setRegs s.cur.slotK { s.mySlot.regs with base := n }) := by
  refine ⟨rfl, ?_⟩
  have hslot : (s.setRegs s.cur.slotK { s.mySlot.regs with base := n }).slot s.cur.slotK =
      { s.slot s.cur.slotK with regs := { s.mySlot.regs with base := n } } := State.slot_setSlot_same ..
  change (s.setRegs s.cur.slotK _).at s.cur = s.at s.cur
  rw [State.at, State.at, State.superAt, State.superAt, hslot]
  rfl

/-- A word completes with the registers `x`. -/
def Completes (i : Instr) (s : State) (x : Reg → Word) : Prop := ∃ u, exec i s = .next u ∧ Sequential s u 4 x 0

section
variable {t : Tack} {body : State → Eff} {s : State} (h : Ready s t)
include h

theorem issueX_keeps (hb : ∃ s2, body (s.popped t) = .done s2 ∧ SameMe (s.popped t) s2) :
    ∃ u, issueX 4 t body s = .next u ∧ Sequential s u 4 s.x 0 := by
  obtain ⟨s2, hb, hsame⟩ := hb
  have hme := hsame.me.trans (State.me_popped s t)
  obtain ⟨u, hu, -, hseq⟩ := issueX_retires (size := 4) h hb (hsame.cur.trans (State.cur_popped s t))
    (fun r => congrArg (Stream.getX · r) hme) (.of_eq hme)
  exact ⟨u, hu, hseq⟩

theorem issue_keeps (hb : ∃ s2, body ((withoutExt s).popped t) = .done s2 ∧ SameMe ((withoutExt s).popped t) s2) :
    ∃ u, issue 4 t body s = .next u ∧ Sequential s u 4 s.x 0 := by
  obtain ⟨s2, hb, hsame⟩ := hb
  have hme := hsame.me.trans (bodyStart_me s t)
  obtain ⟨u, hu, -, hseq⟩ := issue_retires (size := 4) h hb (hsame.cur.trans (bodyStart_frame s t).cur)
    (fun r => congrArg (Stream.getX · r) hme) (by rw [hme]; exact ⟨rfl, rfl, rfl, rfl, rfl⟩)
  exact ⟨u, hu, hseq⟩

end

section
variable {t : Tack} {body : State → Eff} {s : State} {d : Reg} {v : Word} (h : Ready s t)
include h

theorem issueX_sets (hb : ∃ s2, body (s.popped t) = .done s2 ∧ s2.cur = s.cur ∧ s2.me = s.me.setX d v) :
    ∃ u, issueX 4 t body s = .next u ∧ Sequential s u 4 (s.wrote d v) 0 := by
  obtain ⟨s2, hb, hcur, hme⟩ := hb
  obtain ⟨u, hu, -, hseq⟩ := issueX_retires (size := 4) (x := s.wrote d v) h hb hcur
    (fun r => by rw [State.x, hme, Stream.getX_setX]; rfl) (by rw [hme]; exact .setX ..)
  exact ⟨u, hu, hseq⟩

theorem issue_sets (hb : ∃ s2, body ((withoutExt s).popped t) = .done s2 ∧ s2.cur = s.cur ∧ s2.me = { s.me with ext := none }.setX d v) :
    ∃ u, issue 4 t body s = .next u ∧ Sequential s u 4 (s.wrote d v) 0 := by
  obtain ⟨s2, hb, hcur, hme⟩ := hb
  obtain ⟨u, hu, -, hseq⟩ := issue_retires (size := 4) (x := s.wrote d v) h hb hcur
    (fun r => by rw [State.x, hme, Stream.getX_setX]; rfl)
    (by rw [hme]; exact SameControl.trans (b := { s.me with ext := none }) ⟨rfl, rfl, rfl, rfl, rfl⟩ (.setX ..))
  exact ⟨u, hu, hseq⟩

end

/-! ### Fences, acquires, persistence points (R151 to R154) -/

theorem exec_fence (scope : BitVec 3) (t : Tack) (s : State) : exec (.fence scope t) s = execFence scope t s := rfl
theorem exec_rel (scope : BitVec 3) (t : Tack) (s : State) : exec (.rel scope t) s = execRel scope t s := rfl
theorem exec_acq (t : Tack) (s : State) : exec (.acq t) s = execAcq t s := rfl
theorem exec_acqR (d : Reg) (m : MemOp) (t : Tack) (s : State) : exec (.acqR d m t) s = execAcqR d m t s := rfl
theorem exec_pfenRetain (t : Tack) (s : State) : exec (.pfenRetain t) s = execPfenRetain t s := rfl
theorem exec_pfenLining (t : Tack) (s : State) : exec (.pfenLining t) s = execPfenLining t s := rfl
theorem exec_linept (d : Reg) (t : Tack) (s : State) : exec (.linept d t) s = execLinept d t s := rfl
theorem exec_prio (d a : Reg) (t : Tack) (s : State) : exec (.prio d a t) s = execPrio d a t s := rfl
theorem exec_sendM (a b : Reg) (t : Tack) (s : State) : exec (.sendM a b t) s = execSendM a b t s := rfl
theorem exec_fsig (a b : Reg) (t : Tack) (s : State) : exec (.fsig a b t) s = execFsig a b t s := rfl

section
variable {s : State} {t : Tack} (h : Ready s t)
include h

section
variable (hstores : ∀ e ∈ (s.auxOf s.cur.coreK).stores, e.stream ≠ s.cur.lane) (hreds : ∀ e ∈ s.tiles, ∀ r ∈ e.2.reds, r.source ≠ s.cur.streamK)
include hstores hreds

theorem fence_completes (scope : BitVec 3) : Completes (.fence scope t) s s.x := by
  have hpop : (s.popped t).fencePending scope.toNat = s.fencePending scope.toNat := by
    rw [popped_eq]
    rfl
  have hdone : s.fencePending scope.toNat = false := by
    have hred : s.reductionsPending s.cur.streamK = false := by simpa [State.reductionsPending] using hreds
    have hstore : s.storesPending s.cur.coreK s.cur.lane = false := by simpa [State.storesPending] using hstores
    rw [State.fencePending, hred, hstore, Bool.and_false, Bool.or_false]
  rw [Completes, exec_fence, execFence]
  exact issueX_keeps h ⟨_, by rw [hpop, hdone, if_neg Bool.false_ne_true], .refl _⟩

theorem pfenRetain_completes : Completes (.pfenRetain t) s s.x := by
  have hpop : (s.popped t).retainPending = s.retainPending := by
    rw [popped_eq]
    rfl
  have hdone : s.retainPending = false := by
    unfold State.retainPending
    rw [Bool.or_eq_false_iff, List.any_eq_false, List.any_eq_false]
    refine ⟨fun e he => ?_, fun e he => ?_⟩
    · rw [decide_eq_false (hstores e he), Bool.false_and]
      exact Bool.false_ne_true
    · rw [Bool.not_eq_true, List.any_eq_false]
      intro r hr
      rw [decide_eq_false (hreds e he r hr), Bool.false_and]
      exact Bool.false_ne_true
  rw [Completes, exec_pfenRetain, execPfenRetain]
  exact issueX_keeps h ⟨_, by rw [hpop, hdone, if_neg Bool.false_ne_true], .refl _⟩

end

theorem rel_completes (scope : BitVec 3) : Completes (.rel scope t) s s.x := by
  rw [Completes, exec_rel, execRel]
  exact issueX_keeps h ⟨_, rfl, .of_routes (release_routes ..)⟩

theorem acq_completes : Completes (.acq t) s s.x := by
  rw [Completes, exec_acq, execAcq]
  exact issue_keeps h ⟨_, rfl, rfl, rfl⟩

theorem acqR_completes (d : Reg) (m : MemOp) : Completes (.acqR d m t) s s.x := by
  rw [Completes, exec_acqR, execAcqR]
  exact issueX_keeps h ⟨_, rfl, dropRuns_sameMe ..⟩

theorem pfenLining_completes {n : Nat} {t' : Tack} (hwait : s.me.wait = some (.lining n t'))
    (hpass : AtLeast s.myCore.lpseq (BitVec.ofNat 32 n)) : Completes (.pfenLining t) s s.x := by
  have hcore : (s.popped t).myCore = s.myCore := by
    rw [popped_eq]
    rfl
  rw [Completes, exec_pfenLining, execPfenLining]
  refine issueX_keeps h ⟨s.popped t, ?_, .refl _⟩
  simp only [State.me_popped, hwait, hcore, (semPasses_iff ..).2 hpass, if_true]

theorem linept_completes (d : Reg) : ∃ v, Completes (.linept d t) s (s.wrote d v) := by
  have hask := askLining_sameMe (s.popped t) (s.popped t).cur.tile (s.popped t).cur.core
  refine ⟨((s.popped t).askLining (s.popped t).cur.tile (s.popped t).cur.core).1.setWidth 64, ?_⟩
  rw [Completes, exec_linept, execLinept]
  refine issueX_sets h ⟨_, rfl, (State.cur_setMe ..).trans (hask.cur.trans (State.cur_popped s t)), ?_⟩
  rw [me_setX, hask.me, State.me_popped]

theorem prio_completes (d a : Reg) : Completes (.prio d a t) s (s.wrote d (BitVec.ofNat 64 s.mySlot.regs.base)) := by
  have hstart := bodyStart_frame s t
  have hregs : ((withoutExt s).popped t).mySlot.regs = s.mySlot.regs := by
    rw [State.mySlot, State.mySlot, hstart.cur]
    exact (congrArg Slot.regs (onlyStream_rest hstart s.cur.slotK) :)
  have hset := setRegs_sameMe ((withoutExt s).popped t)
  rw [Completes, exec_prio, execPrio]
  refine issue_sets h ⟨_, rfl, ?_, ?_⟩
  · exact (relend_lends ..).cur_eq.trans ((State.cur_setMe ..).trans ((hset _).cur.trans hstart.cur))
  · rw [(relend_lends ..).me_eq, me_setX, (hset _).me, bodyStart_me, hregs]

end

end Sys2Proof.Claims
end

section
/-!
O12, the words on a circuit (R297, R299 to R302, R308): SEND, FSIG, FCPY and FRED.
-/
namespace Sys2Proof.Claims
open Sys2Proof.Machine

/-! ### What a word on a circuit leaves alone -/

theorem setCirc_sameMe (s : State) (c : Nat) (v : Circuit) : SameMe s (s.setCirc c v) := ⟨rfl, rfl⟩

theorem addTransfer_sameMe (s : State) (c : Nat) (x : Transfer) : SameMe s (s.addTransfer c x) := ⟨rfl, rfl⟩

theorem setEngine_sameMe (s : State) (e : Eng) (v : Engine) : SameMe s (s.setEngine e v) := by
  cases e <;> exact ⟨rfl, rfl⟩

theorem signBy_sameMe (s : State) (p : Place) (sel : Nat) : SameMe s (s.signBy p sel) :=
  SameMe.trans ⟨cur_setSem .., me_setSem ..⟩ (.of_lends (relend_lends ..))

theorem signIf_sameMe (c : Bool) (s : State) (p : Place) (sel : Nat) : SameMe s (if c then s.signBy p sel else s) := by
  split_ifs
  · exact signBy_sameMe ..
  · exact .refl s

/-- The acceptance of a fabric copy: a waiting one with iterations, of another kind than FILL. -/
theorem acceptCopy_sameMe (s : State) (e : Eng) {o : CopyOp} (htotal : o.pat.total ≠ 0) (hkind : o.kind ≠ .fill) (hwaiting : o.waiting = true) :
    SameMe s (s.acceptCopy e o) := by
  unfold State.acceptCopy
  extract_lets g o' s0 s1 s2 s3 s4 s5
  have h0 : SameMe s s0 := .of_routes (settleCore_routes ..)
  have h1 : SameMe s0 s1 := setEngine_sameMe ..
  have h2 : SameMe s1 s2 := by
    simp only [s2]
    split
    · exact ⟨rfl, rfl⟩
    · exact .refl s1
  have h4 : SameMe s2 s4 := (signIf_sameMe _ s2 _ _).trans (signIf_sameMe _ s3 _ _)
  have h5 : s5 = s4 := by
    simp only [s5, o', decide_eq_false htotal, decide_eq_false hkind, Bool.or_self, Bool.false_eq_true, if_false]
  rw [if_neg (by simp only [o', hwaiting]; simp), h5]
  exact ((h0.trans h1).trans h2).trans h4

theorem holdPages_routes (p : Place) (h : Handle) (hidx w : Nat) (ps : List Int) (t : Tab Nat) (s : State) :
    Routes s (State.holdPages p h hidx w ps t s).2 := by
  induction ps generalizing t s with
  | nil => exact .refl s
  | cons pos ps ih =>
    unfold State.holdPages
    extract_lets bit n va
    split_ifs
    · exact ih ..
    · have hone := fetches_routes (xlate_fetches p.tile (handleKey p.slotK hidx) .read false 3 s va n)
      split
      · rename_i hr
        rw [hr] at hone
        exact hone.trans (ih ..)
      · rename_i hr
        rw [hr] at hone
        exact hone.trans (ih ..)

theorem onlyStream_circ {s v : State} (hv : OnlyStream s v) (c : Nat) : v.circ c = s.circ c := (congrArg (State.circ · c) hv.outside :)

theorem TransmitsHere.allowed {s : State} {c : Nat} {w : MakeWord} (h : TransmitsHere s c w) : s.circDenied c = false := by
  obtain ⟨hword, hrx, htile⟩ := h
  simp only [State.circDenied, Circuit.rx, Circuit.owner, hword, Option.isNone_some, Option.map_some, Option.getD_some, hrx, htile,
    ne_eq, not_true_eq_false, decide_false, Bool.or_self]

theorem circDenied_eq {s v : State} (hv : OnlyStream s v) (c : Nat) : v.circDenied c = s.circDenied c := by
  rw [State.circDenied, State.circDenied, onlyStream_circ hv, hv.cur]

theorem onCircuit_of_state {s v : State} (hv : OnlyStream s v) {c : Nat} {w : MakeWord} (hw : TransmitsHere s c w) {ok : List CircState}
    (hok : (s.circ c).state ∈ ok) (k : State → Eff) : onCircuit c ok k v = k v := by
  rw [onCircuit, circDenied_eq hv, TransmitsHere.allowed hw, onlyStream_circ hv, if_neg Bool.false_ne_true,
    if_neg (by rw [Bool.not_eq_true', Bool.not_eq_false]; simpa using hok)]

/-! ### SEND and FSIG -/

/-- No copy of the stream is on the circuit: none is left to be performed before a message (R301). -/
theorem copiesSpent_of_none {s : State} {c : Nat} {p : Place}
    (h : ∀ x ∈ (s.circ c).transfers, x.place = p → ∀ tile id, x.cargo ≠ .copy tile id) : s.copiesSpent c p = true := by
  refine List.all_eq_true.2 fun x hx => ?_
  split
  · rename_i tile id hcargo
    have hplace : x.place ≠ p := fun hp => h x hx hp tile id hcargo
    rw [decide_eq_true hplace, Bool.true_or]
  · rfl

section
variable {s : State} {t : Tack} {w : MakeWord} (h : Ready s t)
include h

theorem sendM_completes (a b : Reg) (hw : TransmitsHere s ((s.x a).toNat % 256) w) (hlive : (s.circ ((s.x a).toNat % 256)).state = .live)
    (hcredit : (s.circ ((s.x a).toNat % 256)).credits ≠ 0)
    (hslot : (s.circ ((s.x a).toNat % 256)).usedAt s.stitch < (s.circ ((s.x a).toNat % 256)).ports.length) (hrun : s.hub.halted = false)
    (hcopies : ∀ x ∈ (s.circ ((s.x a).toNat % 256)).transfers, x.place = s.cur → ∀ tile id, x.cargo ≠ .copy tile id) :
    Completes (.sendM a b t) s s.x := by
  have hstart := bodyStart_frame s t
  have hxa : ((withoutExt s).popped t).x a = s.x a := by rw [State.x_popped, x_withoutExt]
  generalize hc : (s.x a).toNat % 256 = c at *
  have hbits : bits (s.x a) 0 8 = c := (bits_from_zero ..).trans hc
  have hhub : ((withoutExt s).popped t).hub.halted = false := ((congrArg (fun v : State => v.hub.halted) hstart.outside :) : _ = s.hub.halted).trans hrun
  have hstitch : ((withoutExt s).popped t).stitch = s.stitch := (congrArg State.stitch hstart.outside :)
  have hspent : ((withoutExt s).popped t).copiesSpent c s.cur = true := copiesSpent_of_none (by rwa [onlyStream_circ hstart])
  have hfree : (s.circ c).slotFree s.stitch = true := decide_eq_true hslot
  rw [Completes, exec_sendM, execSendM]
  refine issue_keeps h ?_
  simp only [hxa, hbits]
  rw [onCircuit_of_state hstart hw (by rw [hlive]; exact List.mem_singleton_self _)]
  simp only [onlyStream_circ hstart, hstitch, hstart.cur, hspent, hhub, hfree, decide_eq_false hcredit, Bool.not_true, Bool.or_self,
    Bool.false_eq_true, if_false]
  exact ⟨_, rfl, (setCirc_sameMe ..).trans (addTransfer_sameMe ..)⟩

theorem fsig_completes (a b : Reg) (hw : TransmitsHere s ((s.x a).toNat % 256) w)
    (hopen : (s.circ ((s.x a).toNat % 256)).state = .making ∨ (s.circ ((s.x a).toNat % 256)).state = .live)
    (hsel : (s.x a).toNat / 256 % 512 < 64 ∨ 256 ≤ (s.x a).toNat / 256 % 512) : Completes (.fsig a b t) s s.x := by
  have hstart := bodyStart_frame s t
  have hxa : ((withoutExt s).popped t).x a = s.x a := by rw [State.x_popped, x_withoutExt]
  have hbad : selBad (bits (s.x a) 8 9) = false := by
    change selBad ((s.x a).toNat / 256 % 512) = false
    simp only [selBad, Bool.and_eq_false_iff, decide_eq_false_iff_not]
    omega
  have hbits : bits (s.x a) 0 8 = (s.x a).toNat % 256 := bits_from_zero (s.x a) 8
  rw [Completes, exec_fsig, execFsig]
  refine issue_keeps h ?_
  simp only [hxa, hbad, hbits, Bool.false_eq_true, if_false]
  rw [onCircuit_of_state hstart hw (by simpa using hopen)]
  exact ⟨_, rfl, addTransfer_sameMe ..⟩

end

/-! ### FCPY and FRED -/

/-- The position of an element depends on the pattern and on memory; a fabric copy has no array of its own. -/
theorem copyPos_fabric {s v : State} {o o' : CopyOp} (hpat : o'.pat = o.pat) (hkind : o.kind ≠ .gath ∧ o.kind ≠ .scat)
    (hkind' : o'.kind ≠ .gath ∧ o'.kind ≠ .scat) (k : Nat) : v.copyPos o' k = s.copyPos o k := by
  simp only [State.copyPos, hpat, hkind.1, hkind.2, hkind'.1, hkind'.2, if_false]

/-- A kind of fabric copy. -/
def Fabric (kind : CopyKind) : Prop := kind = .fcpy ∨ kind = .fred

theorem Fabric.other {kind : CopyKind} (h : Fabric kind) : kind ≠ .gath ∧ kind ≠ .scat ∧ kind ≠ .fill := by
  rcases h with rfl | rfl <;> decide

/-- The pattern at the operand of a word whose access passes. -/
theorem withPattern_popped {s : State} {m : MemOp} {pat : Pattern} {r : Nat} (hpat : patternAt s m = some (pat, r)) (hred : NoReductions s) (t : Tack)
    (k : Pattern → Nat → State → Eff) : withPattern m k (s.popped t) = k pat r (s.popped t) := by
  obtain ⟨⟨segs, leaf⟩, hacc, heq⟩ := Option.map_eq_some_iff.1 hpat
  have hdirect : direct (s.h m.h).space = true := by
    rw [List.mem_singleton.1 (space_of_access hacc)]
    rfl
  have hchk := checkMem_direct t hdirect hacc
  have hmem := (settle_settled (noReductions_popped t hred)).2
  rw [State.cur_popped, drainCore_mem_popped] at hmem
  obtain ⟨rfl, rfl⟩ := Prod.mk.inj heq
  unfold withPattern
  simp only [h_popped, offM_popped, hchk, Chk.andThen, hmem]

theorem endInside_popped (s : State) (t : Tack) (p : Place) (w : Nat) (cnt : List Nat) (rop : Bool) {e : CopyEnd} (h5 : e.h.space ≠ 5) :
    (s.popped t).endInside p w cnt rop e = s.endInside p w cnt rop e := by
  simp only [State.endInside, h5, if_false]
  rw [popped_eq]
  rfl

theorem copyChecks_popped (s : State) (t : Tack) (p : Place) (a : Nat) (pat : Pattern) {ends : List CopyEnd} (srcs dsts : List Nat)
    (strict : Bool) (h5 : ∀ e ∈ ends, e.h.space ≠ 5) :
    (s.popped t).copyChecks p a pat ends srcs dsts strict = s.copyChecks p a pat ends srcs dsts strict := by
  have hinside : ends.map (fun e => if pat.total = 0 ∨ e.indexed then none else (s.popped t).endInside p pat.width pat.cnt (decide (pat.rop ≠ 0)) e) =
      ends.map (fun e => if pat.total = 0 ∨ e.indexed then none else s.endInside p pat.width pat.cnt (decide (pat.rop ≠ 0)) e) :=
    List.map_congr_left fun e he => by rw [endInside_popped s t _ _ _ _ (h5 e he)]
  unfold State.copyChecks
  dsimp only
  rw [hinside, popped_eq]
  rfl

/-- The ends of a copy that passes its checks are of spaces it takes. -/
theorem space_of_copyChecks {s : State} {p : Place} {a : Nat} {pat : Pattern} {ends : List CopyEnd} {srcs dsts : List Nat} {strict : Bool}
    (h : s.copyChecks p a pat ends srcs dsts strict = none) {e : CopyEnd} (he : e ∈ ends) : e.h.space ∈ srcs ∨ e.h.space ∈ dsts := by
  have hall := List.findSome?_eq_none_iff.1 h
  by_contra hno
  rw [not_or] at hno
  have hbad (wr : Bool) : (!(if wr then dsts else srcs).contains e.h.space) = true := by
    cases wr
    · simpa using hno.1
    · simpa using hno.2
  have hrow := hall (if e.h.space = 9 ∧ !p.thimble then some (endFault 0x0D e.h e.r e.wr pat.width e.first 0)
    else if !(if e.wr then dsts else srcs).contains e.h.space then some (endFault 0x04 e.h e.r e.wr pat.width e.first 0)
    else if (if e.wr then !e.h.pw || (decide (pat.rop ≠ 0) && !e.h.pa) else !e.h.pr) then some (endFault 0x04 e.h e.r e.wr pat.width e.first 0)
    else none) (by
      simp only [List.mem_append, List.mem_map]
      exact .inl (.inl (.inl (.inl (.inl (.inr ⟨e, he, rfl⟩))))))
  rw [if_pos (hbad e.wr)] at hrow
  revert hrow
  split_ifs
  · exact fun hrow => absurd hrow (Option.some_ne_none _)
  · exact fun hrow => absurd hrow (Option.some_ne_none _)

theorem newCopy_src (s : State) (kind : CopyKind) (pat : Pattern) (r : Option Nat) (arg : Nat) :
    (s.newCopy kind pat r arg).src = s.h (BitVec.ofNat 6 pat.sh) := rfl

theorem fabric_completes {s : State} {t : Tack} {w : MakeWord} (h : Ready s t) {m : MemOp} {kind : CopyKind} (hkind : Fabric kind) {pat : Pattern} {r : Nat} {segs : List (Nat × Nat)} {leaf : Word}
    {pages : Tab Nat} {s1 : State} (hpat : patternAt s m = some (pat, r)) (hred : NoReductions s)
    (hroom : (s.engine (.tile s.cur.tile)).ops.length < 64) (htile : s.cur.tile < 16) (htotal : pat.total ≠ 0)
    (hw : TransmitsHere s pat.circ w) (hopen : (s.circ pat.circ).state = .making ∨ (s.circ pat.circ).state = .live)
    (hend : (s.circ pat.circ).tree = true ∨
      (s.h (BitVec.ofNat 6 pat.dh)).peer = w.dmod.toNat ∧ (s.h (BitVec.ofNat 6 pat.dh)).ptile = w.dtile.toNat)
    (hpages : State.holdPages s.cur (s.h (BitVec.ofNat 6 pat.sh)) pat.sh pat.width
      (if direct (s.h (BitVec.ofNat 6 pat.sh)).space then [] else
        (List.range pat.total).map (fun k => (s.copyPos (s.newCopy .fcpy pat (some r) 0) k).1)) [] (s.popped t) = ((.ok segs leaf, pages), s1))
    (hformat : pat.fabricBad kind = false)
    (hchecks : s.copyChecks s.cur m.h.toNat pat (s.copyEnds kind pat) [1, 2, 3, 4] [6] false = none) :
    ∃ u, issueX 4 t (roomIn true (withPattern m (fun pat r s => fabricBody m.h.toNat kind pat r s))) s = .next u ∧ Sequential s u 4 s.x 0 := by
  obtain ⟨hgath, hscat, hfill⟩ := hkind.other
  have hpop := OnlyStream.popped s t
  have heng : engineOf (s.popped t).cur true = .tile s.cur.tile := by
    rw [State.cur_popped, engineOf, Place.thimble, decide_eq_false (by omega)]
    rfl
  have hengine : (s.popped t).engine (.tile s.cur.tile) = s.engine (.tile s.cur.tile) := onlyStream_engine hpop _
  have hdenied : (s.popped t).circDenied pat.circ = false := (circDenied_eq hpop _).trans (TransmitsHere.allowed hw)
  have hends : (s.popped t).copyEnds kind pat = s.copyEnds kind pat := by simp only [State.copyEnds, h_popped]
  have hpass : (s.popped t).copyChecks s.cur m.h.toNat pat (s.copyEnds kind pat) [1, 2, 3, 4] [6] false = none := by
    rw [copyChecks_popped s t _ _ _ _ _ _ fun e he => ?_, hchecks]
    rcases space_of_copyChecks hchecks he with hsrc | hdst
    · intro h5
      rw [h5] at hsrc
      exact absurd hsrc (by decide)
    · rw [List.mem_singleton.1 hdst]
      decide
  have hpos (k : Nat) : (s.popped t).copyPos ((s.popped t).newCopy kind pat (some r) 0) k = s.copyPos (s.newCopy .fcpy pat (some r) 0) k :=
    copyPos_fabric (s := s) (v := s.popped t) (o := s.newCopy .fcpy pat (some r) 0) (o' := (s.popped t).newCopy kind pat (some r) 0) rfl
      ⟨CopyKind.noConfusion, CopyKind.noConfusion⟩ ⟨hgath, hscat⟩ k
  have hsame := (SameMe.of_routes (holdPages_routes s.cur (s.h (BitVec.ofNat 6 pat.sh)) pat.sh pat.width
      (if direct (s.h (BitVec.ofNat 6 pat.sh)).space then [] else
        (List.range pat.total).map (fun k => (s.copyPos (s.newCopy .fcpy pat (some r) 0) k).1)) [] (s.popped t)))
  rw [hpages] at hsame
  refine issueX_keeps h ?_
  rw [roomIn, heng, hengine, if_neg (by simpa [engineCap] using hroom), withPattern_popped hpat hred t]
  have hright : (!(s.circ pat.circ).tree && (decide ((s.h (BitVec.ofNat 6 pat.dh)).peer ≠ w.dmod.toNat) ||
      decide ((s.h (BitVec.ofNat 6 pat.dh)).ptile ≠ w.dtile.toNat))) = false := by
    rcases hend with htree | ⟨hpeer, hptile⟩
    · rw [htree]
      rfl
    · rw [hpeer, hptile]
      simp
  have hstate : (!(decide ((s.circ pat.circ).state = .making) || decide ((s.circ pat.circ).state = .live))) = false := by
    rw [Bool.not_eq_false', Bool.or_eq_true, decide_eq_true_eq, decide_eq_true_eq]
    exact hopen
  simp only [fabricBody, hformat, State.cur_popped, hends, hpass, onlyStream_circ hpop, hdenied, h_popped, hw.1, hright, hstate, newCopy_src,
    hpos, hpages, Bool.false_eq_true, if_false]
  exact ⟨_, rfl, hsame.trans ((acceptCopy_sameMe s1 _ htotal hfill rfl).trans (addTransfer_sameMe ..))⟩

end Sys2Proof.Claims
end

section
/-!
O12, the events of power and reset (R381, R383, R454, R466): what follows a tile's change of power changes no tile's power
(`KeepsPower`).
-/
namespace Sys2Proof.Claims
open Sys2Proof.Machine

/-! ### Streams, slots and schedule -/

theorem KeepsPower.of_outside {s u : State} (h : u.outside = s.outside) : KeepsPower s u :=
  .of_eq (congrArg State.clock h :) (congrArg (fun v : State => (v.hub.job, v.hub.hot)) h :) (congrArg State.tiles h :)

theorem KeepsPower.of_lends {s u : State} (h : Lends s u) : KeepsPower s u := .of_wakes (.of_lends h)

theorem later_keepsPower (s : State) (d : Due) : KeepsPower s (s.later d) := .of_eq rfl rfl rfl

theorem once_keepsPower (s : State) (d : Due) : KeepsPower s (s.once d) := .of_wakes (once_wakes s d)

theorem onceIf_keepsPower (c : Bool) (s : State) (d : Due) : KeepsPower s (if c then s.once d else s) := .of_wakes (onceIf_wakes c s d)

theorem again_keepsPower (s : State) (d : Due) : KeepsPower s (s.again d) := by
  unfold State.again
  split_ifs
  · exact .refl s
  · exact .of_eq rfl rfl rfl

/-! ### Traps (R280, R362, R364, R370) -/

theorem passRows_keepsPower (s : State) (p : Place) (ps : Pass) (k n : Nat) : KeepsPower s (s.passRows p ps k n) :=
  foldl_keepsPower (f := fun (s : State) i => s.passRow p ps (k + i)) (fun _ _ => .of_eq rfl rfl rfl) _ s

theorem retireAt_keepsPower (s : State) (p : Place) (n : Nat) (t : Tack) : KeepsPower s (s.retireAt p n t) :=
  .of_outside (outside_retireAt ..)

theorem finishPass_keepsPower (s : State) (core : Nat) (ps : Pass) : KeepsPower s (s.finishPass core ps) := by
  have hrows := passRows_keepsPower s (mPlace ps.slot) ps ps.k (ps.n - ps.k)
  have hpop (v : State) : KeepsPower v
      (if ps.tack.w then v.setSlot ps.slot ((v.slot ps.slot).takeTack (wChannel 1 (v.at (mPlace ps.slot))) 1) else v) := by
    split_ifs
    · exact .of_eq rfl rfl rfl
    · exact .refl v
  have hretire (v : State) (c : Core) : KeepsPower v ((v.setCore core c).retireAt (mPlace ps.slot) 4 ps.tack) :=
    KeepsPower.trans (u := v.setCore core c) (.of_eq rfl rfl rfl) (retireAt_keepsPower ..)
  exact ((hrows.trans (hpop _)).trans (hretire _ _)).trans (.of_outside (outside_setAt ..))

theorem interruptPass_keepsPower (s : State) (k : Nat) : KeepsPower s (s.interruptPass k) := by
  unfold State.interruptPass
  dsimp only
  split
  · exact .refl s
  · split_ifs
    · exact .refl s
    · exact finishPass_keepsPower ..
    · exact (passRows_keepsPower ..).trans (.of_eq rfl rfl rfl)

theorem setStreams_keepsPower (f : State → Nat → Nat × Stream) (l : List Nat) (s : State) :
    KeepsPower s (l.foldl (fun s i => s.setStream (f s i).1 (f s i).2) s) :=
  foldl_keepsPower (f := fun (s : State) i => s.setStream (f s i).1 (f s i).2) (fun _ _ => .of_eq rfl rfl rfl) l s

theorem haltStreams_keepsPower (s : State) (k : Nat) : KeepsPower s (s.haltStreams k) :=
  (setStreams_keepsPower (fun s f => (5 * k + f, (s.stream (5 * k + f)).halt)) _ s).trans (.of_lends (relend_lends ..))

theorem stopForTrap_keepsPower (s : State) (p : Place) (async : Bool) (e : Event) : KeepsPower s (s.stopForTrap p async e) := by
  unfold State.stopForTrap
  extract_lets s1 s2
  have h1 : KeepsPower s s1 := (interruptPass_keepsPower ..).trans (haltStreams_keepsPower ..)
  have h2 : KeepsPower s1 s2 := setStreams_keepsPower (fun s f => (5 * p.slotK + f, { s.stream (5 * p.slotK + f) with moved := false })) _ s1
  exact (h1.trans h2).trans (.of_eq rfl rfl rfl)

theorem thimbleEnter_keepsPower (s : State) (async : Bool) (e : Event) (r : Option Nat) : KeepsPower s (s.thimbleEnter async e r) :=
  (stopForTrap_keepsPower s ⟨16, 0, 0, 0⟩ async e).trans (.of_eq rfl rfl rfl)

theorem routeFrozen_keepsPower (s : State) (p : Place) (e : Event) : KeepsPower s (s.routeFrozen p e) := by
  unfold State.routeFrozen
  dsimp only
  refine (logRouted_routes s p.tile e).power.trans ?_
  split
  · exact (postSlot_routes ..).power
  · exact (postSuper_routes ..).power
  · exact .of_eq rfl rfl rfl
  · exact (report_routes ..).power
  · exact .refl _
  · exact (report_routes ..).power

theorem freeze_keepsPower (s : State) (k : Nat) : KeepsPower s (s.freeze k) := .of_eq rfl rfl rfl

theorem enterHandler_keepsPower (s : State) (p : Place) : KeepsPower s (s.enterHandler p) := by
  have hbad (v : State) (why : Nat) :
      KeepsPower v ((v.freeze p.slotK).routeFrozen p { code := 0x30, stream := p.stream, info2 := BitVec.ofNat 64 why }) :=
    (freeze_keepsPower ..).trans (routeFrozen_keepsPower ..)
  have hfetch := (fetches_routes (fetchWord_fetches s p.tile 0 (s.slot p.slotK).regs.tvec.toNat)).power
  unfold State.enterHandler
  dsimp only
  split
  · rename_i hr
    rw [hr] at hfetch
    exact hfetch.trans (hbad ..)
  · rename_i hr
    rw [hr] at hfetch
    split_ifs
    · exact hfetch.trans (hbad ..)
    · exact hfetch.trans (.of_eq rfl rfl rfl)

theorem deliverAsync_keepsPower (s : State) (k : Nat) : KeepsPower s (s.deliverAsync k) := by
  unfold State.deliverAsync
  dsimp only
  split
  · exact .refl s
  · rename_i e rest _
    have hpop : KeepsPower s (s.setSlot k { s.slot k with fifo := rest }) := .of_eq rfl rfl rfl
    split_ifs
    · exact .refl s
    · exact hpop.trans (thimbleEnter_keepsPower ..)
    all_goals exact hpop.trans ((stopForTrap_keepsPower ..).trans (enterHandler_keepsPower ..))

/-- The delivery of a copy's fault. -/
theorem deliverFault_keepsPower (s : State) (k : Nat) (p : Place) (e : Event) :
    KeepsPower s (if k = 512 then s.thimbleEnter true e none
      else if (s.stopForTrap p true e).frtDest p.tile 0x0E = 0 then ((s.stopForTrap p true e).logRouted p.tile e).enterHandler p
      else ((s.stopForTrap p true e).freeze k).routeFrozen p e) := by
  have hstop := stopForTrap_keepsPower s p true e
  split
  · exact thimbleEnter_keepsPower ..
  split
  · exact (hstop.trans (logRouted_routes ..).power).trans (enterHandler_keepsPower ..)
  · exact hstop.trans ((freeze_keepsPower ..).trans (routeFrozen_keepsPower ..))

theorem deliverNext_keepsPower (s : State) (k : Nat) : KeepsPower s (s.deliverNext k) := by
  have hset (v : Slot) : KeepsPower s (s.setSlot k v) := .of_eq rfl rfl rfl
  unfold State.deliverNext
  dsimp only
  split
  · exact deliverAsync_keepsPower s k
  split
  · exact .refl s
  split
  · exact .refl s
  split
  · exact hset _
  split
  · exact hset _
  rename_i e id rest _ _ _ _ _ ev _
  exact (hset { s.slot k with faults := rest, delivered := some (e, id) }).trans
    (deliverFault_keepsPower (s.setSlot k { s.slot k with faults := rest, delivered := some (e, id) }) k
      (placeOfSlot k (if ev.stream < 5 then ev.stream else 0)) ev)

theorem toRunning_keepsPower (s : State) (k : Nat) : KeepsPower s (s.toRunning k) := by
  unfold State.toRunning
  refine KeepsPower.trans (u := s.setSlot k { s.slot k with mode := .running, frozen := false }) (.of_eq rfl rfl rfl)
    (foldl_keepsPower (fun v f => ?_) _ _)
  dsimp only
  have hset : KeepsPower v (v.setStream (5 * k + f) { v.stream (5 * k + f) with stalled := none, blocked := false, moved := false }) :=
    .of_eq rfl rfl rfl
  split_ifs
  · exact hset
  · exact hset.trans (once_keepsPower ..)

end Sys2Proof.Claims
end

section
/-!
O12, the events of power and reset themselves: POWER_FAIL_DETECT, FINAL_FLUSH_COMMIT, LINING_RESUME, MODULE_RESET and
THERMAL_RECOVERY.
-/
namespace Sys2Proof.Claims
open Sys2Proof.Machine

/-! ### Transfers and collectives that end (R307, R315, R383) -/

theorem endFabric_keepsPower (s : State) (c tile id st done : Nat) : KeepsPower s (s.endFabric c tile id st done) := by
  unfold State.endFabric
  split
  · exact .refl s
  · exact (closeCopy_progress ..).1.power.trans (route_routes ..).power

theorem endTransfer_keepsPower (s : State) (c st : Nat) (t : Transfer) : KeepsPower s (s.endTransfer c st t) := by
  unfold State.endTransfer
  split
  · exact endFabric_keepsPower ..
  · exact .refl s
  · split
    · exact .refl s
    · exact (route_routes ..).power
  · exact once_keepsPower ..

theorem setCirc_keepsPower (s : State) (c : Nat) (v : Circuit) : KeepsPower s (s.setCirc c v) := .of_eq rfl rfl rfl

theorem endTransfers_keepsPower (s : State) (c : Nat) (late : Transfer → Bool) : KeepsPower s (s.endTransfers c late) := by
  unfold State.endTransfers
  extract_lets l ci s1 sent from_
  have h1 : KeepsPower s s1 := (setCirc_keepsPower s c _).trans (foldl_keepsPower (fun v t => endTransfer_keepsPower v c _ t) _ _)
  refine h1.trans (foldl_keepsPower (fun v x => ?_) _ _)
  exact (route_routes ..).power

theorem endTransfersOf_keepsPower (tile : Nat) (s : State) (c : Nat) : KeepsPower s (s.endTransfersOf tile c) := by
  unfold State.endTransfersOf
  dsimp only
  split
  · exact .refl s
  · exact ((setCirc_keepsPower s c _).trans (endTransfers_keepsPower ..)).trans (setCirc_keepsPower ..)

theorem abortOthers_keepsPower (s : State) (tile plan inst reason : Nat) : KeepsPower s (s.abortOthers tile plan inst reason) := by
  unfold State.abortOthers
  refine foldl_keepsPower (fun v e => ?_) _ _
  split
  · exact .refl v
  split
  · exact once_keepsPower ..
  · exact .refl v

theorem abortColl_keepsPower (s : State) (tile ticket reason : Nat) : KeepsPower s (s.abortColl tile ticket reason) := by
  unfold State.abortColl
  split
  · exact .refl s
  split
  · exact again_keepsPower ..
  · rename_i o _ _
    have hcoll : KeepsPower s (s.setColl tile ((s.coll tile).note o 0x0F)) := setTile_keepsPower rfl rfl
    extract_lets inst s1 s2 s3
    have h2 : KeepsPower s1 s2 := .of_eq rfl rfl rfl
    exact ((hcoll.trans h2).trans ((semAdd_progress ..).power.trans (route_routes ..).power)).trans (abortOthers_keepsPower ..)

theorem endFabricOf_keepsPower (s : State) (tile : Nat) : KeepsPower s (s.endFabricOf tile) := by
  unfold State.endFabricOf
  dsimp only
  exact ((foldl_keepsPower (endTransfersOf_keepsPower tile) _ s).trans
    (foldl_keepsPower (fun v (o : CopyOp) => endFabric_keepsPower v o.pat.circ tile o.id 0x09 o.done) _ _)).trans
    (foldl_keepsPower (fun v (o : CollOp) => abortColl_keepsPower v tile o.ticket 5) _ _)

/-! ### Slots and engines that go on (R383) -/

theorem setSlot_keepsPower (s : State) (k : Nat) (v : Slot) : KeepsPower s (s.setSlot k v) := .of_eq rfl rfl rfl

theorem preemptAgain_keepsPower (s : State) (k : Nat) (area : Word) : KeepsPower s (s.preemptAgain k area) := by
  unfold State.preemptAgain
  dsimp only
  split
  · exact .of_eq rfl rfl rfl
  split
  · exact .refl s
  · rename_i t _ _
    have hheld : KeepsPower s { s.setAux (k / 4) { s.auxOf (k / 4) with mgemv := (s.auxOf (k / 4)).mgemv.filter (fun g => g.slot ≠ k) } with
      held := s.held.filter (fun h => h.task ≠ t.id) } := .of_eq rfl rfl rfl
    exact (hheld.trans (setSlot_keepsPower ..)).trans (once_keepsPower ..)

/-- A slot goes on as its mode says. -/
theorem resumeMode_keepsPower (s : State) (k : Nat) (sl : Slot) :
    KeepsPower s (match sl.mode with
      | .trapped => if sl.frozen then s else s.enterHandler (placeOfSlot k (if sl.regs.fstrm < 5 then sl.regs.fstrm else 0))
      | .running => s.toRunning k
      | .preempted => if sl.psave then s else s.once (.contextSaveComplete (k / 32) (k / 4 % 8) (k % 4))
      | .free => s) := by
  split
  · split
    · exact .refl s
    · exact enterHandler_keepsPower ..
  · exact toRunning_keepsPower ..
  · split
    · exact .refl s
    · exact once_keepsPower ..
  · exact .refl s

theorem resumeSlot_keepsPower (torn : Bool) (s : State) (k : Nat) : KeepsPower s (s.resumeSlot torn k) := by
  unfold State.resumeSlot
  dsimp only
  split
  · exact .refl s
  · rename_i t _
    have hregs : KeepsPower s (s.setRegs k { (s.slot k).regs with resumed := true, torn := torn }) := setSlot_keepsPower ..
    have hroute (v : State) (e : Event) : KeepsPower v (if torn then v.route (k / 32) t.id e else v) := by
      split
      · exact (route_routes ..).power
      · exact .refl v
    have hpush (v : State) (f : Nat) : KeepsPower v (if (v.stream (5 * k + f)).push = [] then v else v.later (.pendingTackPush (placeOfSlot k f))) := by
      split
      · exact .refl v
      · exact later_keepsPower ..
    refine KeepsPower.trans (KeepsPower.trans (KeepsPower.trans (KeepsPower.trans hregs ?_) (hroute _ _)) (foldl_keepsPower hpush _ _)) (deliverNext_keepsPower ..)
    split
    · exact preemptAgain_keepsPower ..
    · exact resumeMode_keepsPower _ k (s.slot k)

theorem restartEngines_keepsPower (s : State) (tile : Nat) : KeepsPower s (s.restartEngines tile) := by
  unfold State.restartEngines
  dsimp only
  have hops (v : State) (e : Eng) : KeepsPower v ((v.engine e).ops.foldl (fun s o => if o.mayRun then s.later (.copyStart e o.id (2 ^ 64)) else s) v) := by
    refine foldl_keepsPower (fun w o => ?_) _ _
    split
    · exact later_keepsPower ..
    · exact .refl w
  have hmgemv (v : State) (c : Nat) : KeepsPower v ((v.auxOf (coreKey tile c)).mgemv.foldl (fun s g => s.later (.mgemvComplete tile c g.id)) v) :=
    foldl_keepsPower (fun _ _ => later_keepsPower ..) _ _
  exact ((((foldl_keepsPower hops _ s).trans (foldl_keepsPower hmgemv _ _)).trans (onceIf_keepsPower _ _ _)).trans (onceIf_keepsPower _ _ _)).trans
    (.of_wakes (nudge_wakes ..))

end Sys2Proof.Claims
end

section
/-!
O12, the events of power and reset (R381, R383, R454, R466), and the family.
-/
namespace Sys2Proof.Claims
open Sys2Proof.Machine

/-! ### Power lost (R381) -/

theorem setLining_keepsPower (s : State) (k : Nat) (v : Lining) : KeepsPower s (s.setLining k v) := .of_eq rfl rfl rfl

theorem setAux_keepsPower (s : State) (k : Nat) (v : CoreAux) : KeepsPower s (s.setAux k v) := .of_eq rfl rfl rfl

theorem setTileLining_keepsPower (s : State) (k : Nat) (v : TileLining) : KeepsPower s (s.setTileLining k v) := .of_eq rfl rfl rfl

theorem powerFail_flushes {s : State} {tile : Nat} (htile : tile < 16) (hdie : s.dieOn tile = true) : ((s.powerFail tile).tile tile).flushing = true := by
  unfold State.powerFail
  rw [if_neg (by rw [hdie]; simpa using htile)]
  extract_lets cores s1 t s3 s4 x s5 g
  have h3 : (s3.tile tile).flushing = true := by
    simp only [s3, State.tile_setTile, if_true]
  have h4 : KeepsPower s3 s4 := by
    simp only [s4]
    split
    · exact .refl s3
    · exact foldl_keepsPower (fun v c => (setLining_keepsPower ..).trans (setAux_keepsPower ..)) _ s3
  have h5 : KeepsPower s4 s5 := (setTileLining_keepsPower ..).trans (once_keepsPower ..)
  have hlast := foldl_keepsPower (fun v (o : CollOp) => abortOthers_keepsPower v tile o.plan (g.instOf o) 5) g.ops s5
  exact ((h4.trans (h5.trans hlast)).flushing tile).trans h3

theorem finalFlush_stops {s : State} {tile : Nat} (hflush : (s.tile tile).flushing = true) (good : Bool) :
    ((s.finalFlush tile good).tile tile).powered = false := by
  unfold State.finalFlush
  dsimp only
  rw [hflush, if_neg (by decide), State.tile_setTile, if_pos rfl]

/-! ### Power restored (R383) -/

theorem foldl_restoreCore_hub (tile : Nat) (f : Nat → CoreSnap) (l : List Nat) (s : State) :
    (l.foldl (fun s c => s.restoreCore tile c (f c)) s).hub = s.hub := by
  induction l generalizing s with
  | nil => rfl
  | cons c l ih => exact ih _

theorem restoreTile_powers (s : State) (tile : Nat) (p : TileSnap) :
    ((s.restoreTile tile p).tile tile).powered = true ∧ (s.restoreTile tile p).hub = s.hub := by
  refine ⟨?_, rfl⟩
  unfold State.restoreTile
  dsimp only
  rw [State.tile_setTile, if_pos rfl]

/-- What a resume does after it has restored its tile changes no tile's power. -/
theorem liningResume_restores {s : State} {tile : Nat} (hoff : (s.tile tile).powered = false) (htile : tile < 16) (hcool : s.hub.hot = false)
    (hmodule : s.hub.off = false) (hfence : bitN s.hub.fenced tile = false) :
    ∃ v, (v.tile tile).powered = true ∧ v.hub = s.hub ∧ KeepsPower v (s.liningResume tile) := by
  unfold State.liningResume
  rw [if_neg (by simp [hoff, hcool, hmodule, hfence]; omega)]
  extract_lets l torn snap s1 s2 x s3
  obtain ⟨hpower, hhub⟩ := restoreTile_powers s1 tile (if s.hub.fresh then resetTile else l.committed.getD resetTile)
  have h3 : KeepsPower s2 s3 := (setTileLining_keepsPower ..).trans (endFabricOf_keepsPower ..)
  refine ⟨s2, hpower, hhub.trans (foldl_restoreCore_hub tile snap _ s), ?_⟩
  split
  · exact h3
  · exact ((h3.trans (foldl_keepsPower (resumeSlot_keepsPower torn) _ s3)).trans (restartEngines_keepsPower ..)).trans (.of_lends (relend_lends ..))

theorem liningResume_hot (s : State) (tile : Nat) : (s.liningResume tile).hub.hot = s.hub.hot := by
  by_cases hstays : (s.tile tile).powered = true ∨ 16 ≤ tile ∨ s.hub.hot = true ∨ s.hub.off = true ∨ bitN s.hub.fenced tile = true
  · unfold State.liningResume
    dsimp only
    rw [if_pos hstays]
  · simp only [not_or, Bool.not_eq_true, Nat.not_le] at hstays
    obtain ⟨hoff, htile, hcool, hmodule, hfence⟩ := hstays
    obtain ⟨v, -, hhub, hkeeps⟩ := liningResume_restores hoff htile hcool hmodule hfence
    rw [hkeeps.hot, hhub]

theorem foldl_liningResume_hot (l : List Nat) (s : State) : (l.foldl (fun s t => s.liningResume t) s).hub.hot = s.hub.hot := by
  induction l generalizing s with
  | nil => rfl
  | cons t l ih =>
    rw [List.foldl_cons, ih]
    exact liningResume_hot s t

/-! ### The boot (R454) -/

/-- Clock and job are as they were. -/
def KeepsJob (s u : State) : Prop := (u.clock, u.hub.job) = (s.clock, s.hub.job)

theorem KeepsJob.trans {s u v : State} (h : KeepsJob s u) (g : KeepsJob u v) : KeepsJob s v := Eq.trans g h

theorem KeepsPower.toJob {s u : State} (h : KeepsPower s u) : KeepsJob s u := Prod.ext h.clock h.job

theorem foldl_keepsJob {α : Type} {f : State → α → State} (hf : ∀ s a, KeepsJob s (f s a)) (l : List α) (s : State) : KeepsJob s (l.foldl f s) := by
  induction l generalizing s with
  | nil => rfl
  | cons a l ih => exact (hf s a).trans (ih (f s a))

theorem raiseAt_keepsJob (s : State) (tile : Nat) (e : Event) : KeepsJob s (s.raiseAt tile e) := by
  unfold State.raiseAt
  dsimp only
  refine (logRouted_routes s tile e).power.toJob.trans ?_
  split
  · exact (postSuper_routes ..).power.toJob
  · exact (postSuper_routes ..).power.toJob
  · rfl
  all_goals rfl

theorem fence_keepsJob (s : State) (mask : Nat) : KeepsJob s (s.fence mask) := by
  have hfold : KeepsJob s ((List.range 16).foldl (fun s t =>
      if bitN mask t then s.setTile t { s.tile t with powered := false, flushing := false } else s) s) := by
    refine foldl_keepsJob (fun v t => ?_) _ _
    split <;> rfl
  exact hfold.trans rfl

theorem bootService_keepsJob (s : State) (peers : List Nat) : KeepsJob s (s.bootService peers) := by
  unfold State.bootService
  refine foldl_keepsJob (fun v m => ?_) _ _
  split <;> rfl

theorem bootOptics_keepsJob (s : State) (obs : BootObs) : KeepsJob s (s.bootOptics obs) := by
  have hlit (ls : Tab Laser) (ps : Tab Endpoint) : KeepsJob s { s with lasers := ls, eps := ps } := rfl
  exact (hlit _ _).trans (bootService_keepsJob ..)

theorem bootTrust_keepsJob (s : State) (obs : BootObs) : KeepsJob s (s.bootTrust obs) := by
  unfold State.bootTrust
  dsimp only
  have hsigned (c : List (List Byte)) (r : Option (Measurement × Nat)) : KeepsJob s { s with hub := { s.hub with chain := c, answer := r } } := rfl
  have hmeasured (v : State) (m : Nat) (c : Bool) (l l' : Link) (e : Event) :
      KeepsJob v (if c then v.setLink m l else (v.setLink m l').raiseAt 0 e) := by
    split
    · rfl
    · exact KeepsJob.trans (u := v.setLink m l') rfl (raiseAt_keepsJob ..)
  exact (hsigned _ _).trans (foldl_keepsJob (fun v m => hmeasured v m _ _ _ _) _ _)

theorem bootAct_keepsJob (s : State) (obs : BootObs) (n : Nat) (alt : Bool) : KeepsJob s (s.bootAct obs n alt) := by
  unfold State.bootAct
  dsimp only
  split
  · split <;> rfl
  · split
    · exact fence_keepsJob ..
    · rfl
  · split
    · exact fence_keepsJob ..
    · rfl
  · split <;> rfl
  · exact bootOptics_keepsJob ..
  · rfl
  · exact bootTrust_keepsJob ..
  · rfl
  · rfl

theorem recoveryMode_keepsJob (s : State) (obs : BootObs) : KeepsJob s (s.recoveryMode obs) :=
  (bootOptics_keepsJob s obs).trans rfl

theorem bootStep_keepsJob (s : State) (obs : BootObs) (n : Nat) : KeepsJob s (s.bootStep obs n).2 := by
  have hstart : KeepsJob s { s with hub := { (s.hub.note n 1 0) with outcome := 0 } } := rfl
  have hended (v : State) (st d out : Nat) : KeepsJob v { v with hub := { (v.hub.note n st d) with outcome := out } } := rfl
  have hfailed (v : State) (f : Nat) : KeepsJob v { v with hub := { v.hub with failed := f } } := rfl
  unfold State.bootStep
  dsimp only
  split
  · exact hstart
  split
  · split
    · exact (hstart.trans (bootAct_keepsJob ..)).trans (hended ..)
    · split <;> rfl
  · split
    · rfl
    split
    · exact ((hstart.trans (hfailed _ _)).trans (recoveryMode_keepsJob ..)).trans (hended ..)
    · exact ((hstart.trans (hfailed _ _)).trans (bootAct_keepsJob ..)).trans (hended ..)

theorem bootFrom_keepsJob (obs : BootObs) (l : List Nat) (s : State) : KeepsJob s (State.bootFrom obs l s) := by
  induction l generalizing s with
  | nil => rfl
  | cons n l ih =>
    rw [State.bootFrom]
    split
    · exact (bootStep_keepsJob ..).trans (ih _)
    · exact bootStep_keepsJob ..

theorem reboot_rests (s : State) (obs : BootObs) : (s.reboot obs).clock = 0 ∧ (s.reboot obs).hub.job = none := by
  have hboot := bootFrom_keepsJob obs [1, 2, 3, 4, 5, 6, 7, 8, 9, 10, 11, 12]
    { s.resetModule with hub := { s.resetModule.hub with journal := [], lastBoot := s.resetModule.hub.journal } }
  exact Prod.mk.inj hboot

/-! ### The family -/

/-- Settles O12: the words leave their stream in place (`SameMe`) and retire; the events by what they set and what keeps it
(`KeepsPower`, `KeepsJob`). -/
theorem fencesFabricAndPowerComplete : Obligations.FencesFabricAndPowerComplete := by
  refine ⟨fun s t d a b m scope h _ => ?_, fun s tile good obs => ?_⟩
  · intro completes
    refine ⟨fun hstores hreds => ⟨fence_completes h hstores hreds scope, pfenRetain_completes h hstores hreds⟩, rel_completes h scope,
      acq_completes h, acqR_completes h d m, fun n t' hwait hpass => pfenLining_completes h hwait hpass, linept_completes h d,
      prio_completes h d a, fun w => ⟨?_, ?_⟩⟩
    · intro ci sel hw
      exact ⟨fun hlive hcredit hslot hrun hcopies => sendM_completes h a b hw hlive hcredit hslot hrun hcopies,
        fun hopen hsel => fsig_completes h a b hw hopen hsel⟩
    · intro pat r segs leaf pages s1 hpat hred hroom htile htotal hw hopen hend hpages
      exact ⟨fun hformat hchecks => fabric_completes h (.inl rfl) hpat hred hroom htile htotal hw hopen hend hpages hformat hchecks,
        fun hformat hchecks => fabric_completes h (.inr rfl) hpat hred hroom htile htotal hw hopen hend hpages hformat hchecks⟩
  · refine ⟨fun htile hdie => ⟨_, rfl, powerFail_flushes htile hdie⟩, fun hflush => ⟨_, rfl, finalFlush_stops hflush good⟩,
      fun htile hoff hcool hmodule hfence => ⟨_, rfl, ?_⟩, ⟨_, rfl, rfl⟩, ⟨_, rfl, reboot_rests s obs⟩, ⟨_, rfl, rfl⟩, fun hhot => ⟨_, rfl, ?_⟩⟩
    · obtain ⟨v, hpower, -, hkeeps⟩ := liningResume_restores hoff htile hcool hmodule hfence
      exact (hkeeps.powered tile).trans hpower
    · rw [if_pos hhot]
      exact foldl_liningResume_hot _ _

end Sys2Proof.Claims
end
